-- ==== Sys2Proof/Word.lean ====
section
/-!
DEFINITION. The word types of the VXZ-2460 (R13, R14) and the sparse table, the one
shape in which the model holds indexed state.
-/

namespace Sys2Proof

/-- Eight bits. -/
abbrev Byte := BitVec 8
/-- A register or parameter word (R14). -/
abbrev Word := BitVec 32
/-- A 64-bit statistics counter or bus address. -/
abbrev Quad := BitVec 64
/-- An indexed family held sparsely: keys strictly rising, no entry equal to the default. -/
abbrev Tab (α : Type) := List (Nat × α)

end Sys2Proof
end

