-- ==== Sys2Proof/Syntax.lean ====
section
/-!
DEFINITION. The commands of the VXZ-2460, one constructor for each row of the opcode table: the
Slaca opcodes, the register accesses, and the events on its pins, ports and datapaths. An opcode's
operand is the number of the outstanding command whose work it is; its parameter words are in that
command. An event carries what the world outside the block supplies with it.
-/

namespace Sys2Proof

/-- How a fetch read of a packet ended (R385, R386): the whole packet's words, or an error or
poisoned data. -/
inductive PacketRead where
  | words (ws : List Word)
  | error
  deriving DecidableEq, Repr

/-- How a pointer read ended (R390, step 4 of R393). -/
inductive PointerRead where
  | words (ws : List Word)
  | poison
  | failed
  deriving DecidableEq, Repr

/-- How the device's read of a flash slot goes (R498 check 1): without an error, or with one in the
header or in the body. -/
inductive FlashRead where
  | whole | headerError | bodyError
  deriving DecidableEq, Repr

/-- What the boot flash holds from the start of each slot and of the boot record (R496); the bytes
after each list are erased. -/
structure Flash where
  slotA : List Byte := []
  slotB : List Byte := []
  record : List Byte := []
  deriving DecidableEq, Repr

/-- How a programming of a flash slot ended (R501). -/
inductive FlashEnd where
  | done | failed
  deriving DecidableEq, Repr

/-- One event of R472 as the programmable counters see it in a tick. -/
structure PmcEvent where
  code : BitVec 12
  master : BitVec 4
  priv : BitVec 2
  addr : Word
  id : Word
  /-- How many such events in a row. -/
  times : Nat := 1
  deriving DecidableEq, Repr

/-- A unit that starts under the stagger of R504: a converter (0 DAC_XI to 7 ADC_YQ) or a
churn group of four churns (0 to 7). -/
inductive StartUnit where
  | converter (i : Nat)
  | churnGroup (g : Nat)
  deriving DecidableEq, Repr

/-- A window of 4,096 symbols of a host lane (R279, R290, R292): the level indices at HRX, the SNR, clock
offset and peaking that stand at its end, the CDR's phase error in 0.001 UI and whether the lane's PCS
lanes hold marker lock then; and the word of 256 symbols with which new transmit taps begin, if the taps
have been set since the window before (R282). -/
structure LaneWindow where
  symbols : List Nat
  snr : BitVec 16
  offset : BitVec 16
  peak : BitVec 6
  phase : Int
  marker : Bool
  word : Nat
  deriving DecidableEq, Repr

/-- The lanes of a circuit's group that lose block lock or marker lock (R74). -/
structure LockLoss where
  circ : Nat
  lanes : List Nat
  deriving DecidableEq, Repr

/-- What stands outside the device at an input of the telemetry converter: the voltage, or the temperature
of a sensor in degrees, and the resistance in ohms through which it drives a ball; no resistance is an open
ball (R353, R362). -/
structure InputSource where
  value : Rat
  ohms : Option Rat := some 0
  deriving DecidableEq, Repr

/-- One count for each converter lane, XI to YQ. -/
structure FourCounts where
  xi : Nat
  xq : Nat
  yi : Nat
  yq : Nat
  deriving DecidableEq, Repr

/-- One sample on each converter lane, XI to YQ, in LSB. -/
structure FourCodes where
  xi : Int := 0
  xq : Int := 0
  yi : Int := 0
  yq : Int := 0
  deriving DecidableEq, Repr

/-- Four lanes' samples side by side. -/
def fourCodes (xi xq yi yq : List Int) : List FourCodes :=
  ((xi.zip xq).zip (yi.zip yq)).map fun c => ⟨c.1.1, c.1.2, c.2.1, c.2.2⟩

/-- The best candidates of the coarse and of the fine dispersion scan (R554). -/
structure CdScan where
  coarse : Nat
  fine : Nat
  deriving DecidableEq, Repr

/-- What is measured of a reference candidate (R296): its frequency over the last 100 ms, and that no
activity limit has run out since its last edge. -/
structure FreqReading where
  hz : Rat
  edges : Bool
  deriving DecidableEq, Repr

/-- A host lane of a group (R283, R284): the PCS lane that it carries, by its markers, and when they
come, in 0.1 ns. -/
structure GroupLane where
  pcs : Nat
  arrival : Nat
  deriving DecidableEq, Repr

/-- A request at the management fabric (R243): its master, 0 to 8 in the order of OP_FABRIC_CREDITS,
its target port, and the cycle on which it entered, counted from the start of the window. -/
structure FabricReq where
  master : Nat
  port : Nat
  entered : Int
  /-- What the programmable counters see of it (R472): its target address and its privilege. -/
  addr : Word := 0
  priv : BitVec 2 := 3
  deriving DecidableEq, Repr

/-- What the receive DSP takes in and estimates as a frame starts (R190, R208, R213, R225). -/
structure RxMeasure where
  /-- The ADC codes since the last command that brought any, up to the new frame's start. -/
  codes : List FourCodes
  /-- Front-end estimates: X gain, X phase, Y gain, Y phase and four skews. -/
  estimates : List Int
  /-- From the separator's taps: DGD in 0.1 ps and PDL in 0.01 dB. -/
  dgd : BitVec 16
  pdl : BitVec 16
  /-- Polarisation rotation rate in krad/s. -/
  sop : BitVec 16
  /-- Pilot amplitude ratio in 0.01 dB. -/
  pilotRatio : BitVec 16
  /-- The carrier loop has locked. -/
  carrier : Bool
  deriving DecidableEq, Repr

/-- What the detection of sync gives (R200, R207): the sample position of period 0 in 1/256 of a
sample, f_c in kHz, whether the far end's polarisations arrive swapped, and the quarter turns of
each output's phase ambiguity. -/
structure SyncFound where
  start : Nat
  cfo : Int
  swapped : Bool
  turnX : Nat
  turnY : Nat
  deriving DecidableEq, Repr

/-- An OP_CTR_CONFIG: a host's or the mailbox's packet by its number, or Zilvy's own by its core and
parameter words (R471, R474). -/
inductive CtrConfig where
  | packet (j : Nat)
  | zilvy (core : Nat) (words : List Word)
  deriving DecidableEq, Repr

/-- A write narrower than the code word of a firmware memory (R452): its word, the bytes it names of the
word's eight, their data, and the detector code of its master: 2 to 5 a core's store, 6 DMA. -/
structure NarrowWrite where
  addr : Nat
  data : BitVec 64
  bytes : BitVec 8
  master : Nat
  deriving DecidableEq, Repr

/-- A read of a firmware memory over the management fabric, with its master's detector code (R463): 1 the
SPI mailbox, 2 to 5 a core, 6 DMA, 8 the dispatcher. -/
structure PortRead where
  addr : Nat
  master : Nat
  deriving DecidableEq, Repr

/-- A read TLP (R540): its address, and how many words it reads. -/
structure ReadSpan where
  addr : BitVec 24
  words : Nat := 1
  deriving DecidableEq, Repr

/-- The 7-bit target address of an I2C transaction (R534), with the register address that it carries. -/
structure I2cAddress where
  target : BitVec 7
  addr : BitVec 24
  deriving DecidableEq, Repr

/-- An I2C read (R546): the target address, and how many words it clocks out. -/
structure I2cSpan where
  target : BitVec 7
  words : Nat
  deriving DecidableEq, Repr

/-- One command to the block. -/
inductive Instr where
  /-- OP_NOP (R407): The no-operation command is checked and completes at acceptance with no effect. -/
  | opNop (j : Nat)
  /-- OP_DEVICE_INFO (R407): Returns the device ID, silicon revision, Zilvy version, the cores in
      service and the present mode. -/
  | opDeviceInfo (j : Nat)
  /-- OP_ABORT (R400): Names a target tag or the running mailbox command; the outcome is decided
      against the target's commit through the serialisation point of R401. -/
  | opAbort (j : Nat)
  /-- OP_MODE_SET (R502): Commands a mode transition listed in R502 and commits at acceptance, subject
      to the refusals of R503. -/
  | opModeSet (j : Nat)
  /-- OP_RESET (R405): Stops fetch, completes every outstanding command, ramps the output down, writes
      its own completion last and schedules entry into RESET. -/
  | opReset (j : Nat)
  /-- RESET_COMMAND_ENTRY (R405): 10 us after the OP_RESET completion is written, the device enters
      RESET. -/
  | resetCommandEntry
  /-- OP_FABRIC_CREDITS (R243): Sets the per-master credit shares of the management fabric; they
      commit at the start of the next window. -/
  | opFabricCredits (j : Nat)
  /-- FABRIC_CREDIT_WINDOW (R243): Every 792 management cycles, each master's credit is reset to its
      share and unused credit lapses. `requests` are those that entered in the window that ends. -/
  | fabricCreditWindow (requests : List FabricReq := [])
  /-- OP_LINE_PROFILE (R61): In READY, sets the symbol rate, slots, code rate and patterns, and
      rewrites the headers and rows of both maps. -/
  | opLineProfile (j : Nat)
  /-- OP_TX_SHAPE (R164): Sets roll-off, PILOT_BOOST, RMS_TARGET and CLIP_LIMIT as a filter update
      that commits at a frame start. -/
  | opTxShape (j : Nat)
  /-- OP_TX_MASK (R164): Loads the 129-point spectral mask as a filter update that commits at a frame
      start. -/
  | opTxMask (j : Nat)
  /-- OP_TX_PRECOMP (R161): Loads lane skew, amplitude and group-delay correction, IQ imbalance and
      INVERT as a filter update. -/
  | opTxPrecomp (j : Nat)
  /-- OP_TX_RAMP (R182): Sets the ramp profiles, T_UP, T_DOWN, ALERT_ACTION and OPT_RETRIES. -/
  | opTxRamp (j : Nat)
  /-- OP_TX_OUTPUT (R170): Sets or clears the output request bit. -/
  | opTxOutput (j : Nat)
  /-- OP_TX_HOOKS (R182): Writes the UP and QUIET hook transaction lists. -/
  | opTxHooks (j : Nat)
  /-- OP_OPT_WRITE (R179): Issues up to 64 engine register writes on the optics control port, in
      parameter order. -/
  | opOptWrite (j : Nat)
  /-- OP_OPT_READ (R179): Issues up to 64 engine register reads on the optics control port and returns
      the data. -/
  | opOptRead (j : Nat)
  /-- OP_OPT_RESET (R181): Drives OPT_RESET_N low for 10 us, then blocks the port for 1 ms. -/
  | opOptReset (j : Nat)
  /-- OPT_RESET_END (R181): At the end of the 1 ms after an engine reset, the port accepts
      transactions again and OP_OPT_RESET completes. -/
  | optResetEnd
  /-- OPT_TRANSACTION_END (R178): A 56-bit optics port frame ends, and its status and CRC decide done,
      fail or retry. -/
  | optTransactionEnd (status : BitVec 8) (data : BitVec 16) (crc : BitVec 8)
  /-- OPT_RETRY (R178): 10 us after a failed optics frame, the same transaction is sent again and
      counted in OPT_RETRY_COUNT. -/
  | optRetry
  /-- OPT_ALERT_FALL (R174): OPT_ALERT_N falls: ENGINE_ALERT is raised and, with ALERT_ACTION 1, the
      output request is cleared and held clear. -/
  | optAlertFall
  /-- OPT_ALERT_RISE (R174): OPT_ALERT_N rises: the hold on the output request ends, and the request
      stays clear. -/
  | optAlertRise
  /-- TXDSP_OUTPUT_WRITE (R170): A write to ON_REQUEST sets the output request unless R174 or R505
      holds it clear. -/
  | txdspOutputWrite (w : Word)
  /-- TX_FRAME_START (R170): At the first sample of a transmitted frame, the output request is sampled
      and ramps or hooks start or reverse. -/
  | txFrameStart (filterReady : Bool)
  /-- RAMP_UP_DONE (R170): When phi reaches 1, the output becomes ON and RAMP_UP_DONE is raised. -/
  | rampUpDone
  /-- RAMP_DOWN_DONE (R170): When phi reaches 0, the output becomes QUIET, RAMP_DOWN_DONE is raised
      and the QUIET hooks run. -/
  | rampDownDone
  /-- DAC_CLIP_WINDOW (R166): At the end of a 1 ms window, a lane whose clipped samples exceed
      CLIP_LIMIT raises DAC_CLIP. The window ends before sample `sample` of the last frame whose
      samples are complete. -/
  | dacClipWindow (sample : Nat)
  /-- DAC_SYNTH_UNLOCK (R168): The DAC sampling synthesiser loses lock: the gain is cut to 0, the
      output becomes QUIET and the request is cleared. -/
  | dacSynthUnlock
  /-- DAC_SYNTH_LOCK (R168): The DAC sampling synthesiser locks again and SYNTH_LOCKED is set; the
      output stays QUIET. -/
  | dacSynthLock
  /-- OP_RX_FRONTEND (R226): Sets the AUTO flags, TAINT_WEIGHT, RX_CLIP_LIMIT, IQ corrections, skew
      and INVERT of the receive front end. -/
  | opRxFrontend (j : Nat)
  /-- OP_RX_CD (R196): Sets CD_MODE, tracking, transform length, search range, fixed dispersion and
      carrier wavelength. -/
  | opRxCd (j : Nat)
  /-- OP_RX_SEPARATOR (R226): Sets separator taps, steps, WHEY_SHIFT, LLR_UNIT and LOS_RMS. -/
  | opRxSeparator (j : Nat)
  /-- OP_RX_TIMING (R204): Sets the timing-recovery bandwidth code. -/
  | opRxTiming (j : Nat)
  /-- OP_RX_CARRIER (R209): Sets LO steering enable, gain, interval, deadband, retries and range. -/
  | opRxCarrier (j : Nat)
  /-- OP_RX_THRESH (R225): Sets the SNR, DGD, PDL, CFO and SOP event thresholds. -/
  | opRxThresh (j : Nat)
  /-- RX_FRAME_START (R215): A frame's period 0 reaches the ADCs: it is marked, new D is applied, and
      the AUTO front end and per-frame loops update. -/
  | rxFrameStart (m : RxMeasure)
  /-- WHEY_DETECTOR_DECISION (R202): After 1,024 data periods past the overhead span, the whey
      detector decides data or whey and sets the separator mode. `codes` are the ADC codes since
      the last command that brought any. -/
  | wheyDetectorDecision (codes : List FourCodes)
  /-- OP_DEC_CONFIG (R260): Sets the stealing, release mode, budget, iteration limits, deadline and
      bank of the decoder fabric. -/
  | opDecConfig (j : Nat)
  /-- OP_DEC_CHURN (R259): Takes a churn out of service, or returns it with its bank invalidated. -/
  | opDecChurn (j : Nat)
  /-- CHURN_DRAINED (R259): A churn taken out of service holds no block, leaves service and the
      command commits. -/
  | churnDrained (c : Nat)
  /-- OP_CIRCUIT_CREATE (R87): Creates a circuit with its lane group and configuration and enables its
      lanes. -/
  | opCircuitCreate (j : Nat)
  /-- OP_CIRCUIT_DELETE (R88): Deletes a created circuit that no map in use carries, and releases its
      lane group. -/
  | opCircuitDelete (j : Nat)
  /-- OP_MAP_LOAD (R62): Writes all 1,024 words of one frame map after the validity and busy checks,
      and clears its poison. -/
  | opMapLoad (j : Nat)
  /-- OP_MAP_SWITCH (R63): Requests a hitless move of the transmitter to the other map at a superframe
      boundary. -/
  | opMapSwitch (j : Nat)
  /-- OP_HLANE_CONFIG (R289): Writes precoding, inversion, CTLE preset, FFE, freeze thresholds and
      SNR_MIN for the named lanes. -/
  | opHlaneConfig (j : Nat)
  /-- OP_HLANE_RESTART (R288): Takes the named enabled lanes down with cause COMMAND and restarts them
      at L1. -/
  | opHlaneRestart (j : Nat)
  /-- OP_HLANE_TEST (R285): In MAINTENANCE, sets the loopback, generator pattern, checker pattern and
      rate on the named lanes. -/
  | opHlaneTest (j : Nat)
  /-- OP_OFFICER_CHALLENGE (R122): Generates an ephemeral key pair and a nonce and opens an enrolment
      challenge. -/
  | opOfficerChallenge (j : Nat)
  /-- OP_OFFICER_ENROL (R122): Verifies the signed wrapped OAK and KTK, fills the officer store and
      sets CRY_SEQ to 0. -/
  | opOfficerEnrol (j : Nat)
  /-- CHALLENGE_EXPIRY (R122): A pending enrolment challenge lapses 60 s after it was issued. -/
  | challengeExpiry
  /-- OP_OFFICER_UPDATE (R123): Replaces OAK and KTK with keys wrapped under the current KTK. -/
  | opOfficerUpdate (j : Nat)
  /-- OP_CRY_CONFIG (R135): Sets LINK_ROLE and TAG_RUN_LIMIT while no key slot holds a key. -/
  | opCryConfig (j : Nat)
  /-- OP_CRY_READ (R136): Returns a range of CRY registers to the officer through the core's latch. -/
  | opCryRead (j : Nat)
  /-- OP_KEY_LOAD (R125): Unwraps a key record into one slot, sets it LOADED, clears KEY_FAULT and
      returns the key check value. -/
  | opKeyLoad (j : Nat)
  /-- OP_KEY_ERASE (R127): Sets one key slot that is not in use EMPTY. -/
  | opKeyErase (j : Nat)
  /-- OP_EPOCH_SWITCH (R113): Schedules an epoch switch of the named contexts, untimed or at an
      instant. -/
  | opEpochSwitch (j : Nat)
  /-- EPOCH_SWITCH_INSTANT (R113): Where no frames are sent, a timed switch commits when the time
      counter reaches its instant. -/
  | epochSwitchInstant
  /-- OLD_KEY_ERASE (R116): At the end of the second superframe after the switch and the first new-
      epoch reception, the OLD slot is erased. -/
  | oldKeyErase (c : Nat)
  /-- EPOCH_LAG (R117): TX_EPOCH and RX_EPOCH differ for 8 complete superframes: EPOCH_LAG is set and
      raised. -/
  | epochLag (c : Nat)
  /-- OP_ZEROISE (R131): Starts zeroisation on the command's acceptance. -/
  | opZeroise (j : Nat)
  /-- ZEROISE_PIN (R130): ZEROISE_N held low for 20 ns triggers zeroisation. -/
  | zeroisePin
  /-- TAMPER_PIN (R130): TAMPER_N held low for 20 ns triggers zeroisation. -/
  | tamperPin
  /-- ZEROISE_COMPLETE (R131): The key-store overwrite and read-back end, the device enters ZEROISED,
      raises ZEROISED and aborts the uncommitted officer commands. -/
  | zeroiseComplete (nonzero : Bool)
  /-- OFFICER_STORE_FAULT (R134): A parity error in the officer store empties it and raises
      OFFICER_STORE_FAULT. -/
  | officerStoreFault
  /-- OP_TIME_CONFIG (R348): Sets role, servo, capture, limits, plane delays and ASYM. -/
  | opTimeConfig (j : Nat)
  /-- OP_TIME_SET (R339): Loads the time counter at the next tick, or at the next capture pulse with
      AT_PULSE. -/
  | opTimeSet (j : Nat)
  /-- OP_TIME_STEP (R339): Adds a signed time or the advice to the counter at the next tick. -/
  | opTimeStep (j : Nat)
  /-- TIME_SET_PULSE_TIMEOUT (R341): An OP_TIME_SET with AT_PULSE sees no pulse within 2 s and
      completes ST_TIMEOUT. -/
  | timeSetPulseTimeout
  /-- OP_TIME_PULSE (R344): Arms a PPSOUT in TIMED mode as ONCE, PERIODIC or OFF. -/
  | opTimePulse (j : Nat)
  /-- TIME_TICK (R323): At each 250 MHz tick, the time counter adds the increment BASE plus the servo
      correction. -/
  | timeTick
  /-- TIME_BASE_HI_WRITE (R323): A write of TIME_BASE_HI applies the pair with TIME_BASE_LO at the
      next tick, clamped to plus or minus 500 ppm. -/
  | timeBaseHiWrite (w : Word)
  /-- PULSE_INSTANT (R345): The counter reaches a programmed pulse instant and the PPSOUT rising edge
      is placed; ONCE outputs disarm and raise PULSE_DONE. -/
  | pulseInstant (k : Nat)
  /-- PULSE_WIDTH_END (R345): The programmed width has elapsed in ticks and the PPSOUT falls. -/
  | pulseWidthEnd (k : Nat)
  /-- SERVO_INTERVAL_END (R332): After INTERVAL received frames, the interval offset is formed,
      accepted or refused, and the servo updates. `n` is the interval's length in frames. -/
  | servoIntervalEnd (n : Nat)
  /-- OP_DPLL_REF_CONFIG (R317): Configures a candidate's type, frequency, priority, limits and
      qualification time, or disables a REFIN. -/
  | opDpllRefConfig (j : Nat)
  /-- OP_DPLL_SELECT (R298): Sets the DPLL selection mode, revertive flag, manual candidate and WTR. -/
  | opDpllSelect (j : Nat)
  /-- OP_DPLL_LOOP (R311): Sets loop bandwidths and damping per input type, DISAGREE_LIMIT, SLEW,
      HOLD_TAU and HOLD_GUARD. -/
  | opDpllLoop (j : Nat)
  /-- OP_DPLL_OUTPUT (R312): Configures a CLKOUT or PPSOUT output, and arms an alignment if ALIGN is
      set. -/
  | opDpllOutput (j : Nat)
  /-- ALIGN_FAIL (R315): No aligning pulse arrives within 2 s and the command completes ST_TIMEOUT. -/
  | alignFail (o : Nat)
  /-- DPLL_NCO_HI_WRITE (R309): A write of DPLL_NCO_HI applies the 40-bit offset at the next loop
      cycle, clamped. -/
  | dpllNcoHiWrite (w : Word)
  /-- DPLL_EVALUATION (R300): Every 1 ms, the selection logic applies R300, R303, R306 and R307 and
      may start, redirect or abandon a switch. `phase` is the phase that the detector measures of the
      input, or of a switch's target, against the output, in ps, where `fresh` says that an edge has
      come since the evaluation before. -/
  | dpllEvaluation (phase : Int) (fresh : Bool)
  /-- SWITCH_COMMITTED (R302): SETTLE_TIME ends and the loop closes on the target, built out or not. -/
  | switchCommitted
  /-- REF_FREQ_UPDATE (R296): A candidate's frequency reading updates, every 1 ms or at each pulse,
      and may move its qualification state. -/
  | refFreqUpdate (i : Nat) (reading : FreqReading)
  /-- REF_ACTIVITY_FAULT (R296): A candidate shows no edge within its activity limit, or a pulse
      outside its window, and becomes FAILED. -/
  | refActivityFault (i : Nat)
  /-- REF_QUALIFIED (R297): A QUALIFYING candidate completes QUAL_TIME without fault and becomes
      QUALIFIED. -/
  | refQualified (i : Nat)
  /-- REFIN_PULSE (R341): A pulse arrives on a PULSE REFIN; captures, pulse-aligned sets and
      alignments act on it. -/
  | refinPulse (i : Nat) (sub : Nat)
  /-- DPLL_LOCKED (R311): The phase error has stayed within the lock limit for 2/BW and the DPLL
      enters LOCKED. -/
  | dpllLocked
  /-- LOCK_LOST (R311): The phase error exceeds four times the lock limit and the DPLL returns to
      ACQUIRE. -/
  | lockLost
  /-- HOLDOVER_SAMPLE (R308): Every 1 s while LOCKED, the guarded output offset enters the holdover
      average. `guard` is the HOLD_GUARD of the sample, in s. -/
  | holdoverSample (guard : Nat)
  /-- OP_MON_SEQUENCE (R359): Loads a telemetry sequence, committing at once when idle or at the next
      pass start. -/
  | opMonSequence (j : Nat)
  /-- OP_MON_TESTDAC (R362): Sets the test DAC code and enable, and its injection onto an AIN ball. -/
  | opMonTestdac (j : Nat)
  /-- MONADC_START_WRITE (R358): A write of 1 to START starts a pass, makes one pending or is merged. -/
  | monadcStartWrite
  /-- CONVERSION_END (R357): A telemetry conversion ends and its result, over-range, limit and
      decimation effects are written. It is that of entry `i`, on input `input`, at which `v` stands. -/
  | conversionEnd (i input : Nat) (v : InputSource)
  /-- OP_SKIM_CONFIG (R374): Sets tap point, CIC decimation, FIR response and output shift, and
      requests a decimator reset. -/
  | opSkimConfig (j : Nat)
  /-- OP_SKIM_ARM (R370): Clears the capture buffer and arms the ring capture with a trigger mask and
      POST count. -/
  | opSkimArm (j : Nat)
  /-- OP_SKIM_TRIGGER (R371): Triggers the capture when mask bit 0 is armed. -/
  | opSkimTrigger (j : Nat)
  /-- OP_SKIM_SYNC (R372): Requests a decimator reset. -/
  | opSkimSync (j : Nat)
  /-- SKIM_FROZEN (R370): POST samples after the trigger have been written and the capture freezes. -/
  | skimFrozen
  /-- SYNC_N_FALL (R372): A SYNC_N falling edge held 4 ns causes a decimator reset. -/
  | syncNFall
  /-- DECIMATOR_RESET (R372): At the first DSP word 64 skim cycles after the cause, the CIC and FIR
      are cleared and the sync sample and time are recorded. -/
  | decimatorReset (sample : BitVec 64) (age : Nat)
  /-- SKIM_SAT_EVENT (R368): A skim output sample is held at the 8-bit limit and counted in SKIM_SAT.
      The operands are the four lanes' ADC codes of one output interval. -/
  | skimSatEvent (xi xq yi yq : List Int)
  /-- OP_MEM_RECOVER (R457): Starts a recovery pass over one memory group under the logging regime. -/
  | opMemRecover (j : Nat)
  /-- RECOVERY_PASS_END (R457): The recovery pass ends, or times out, and completes with its five-word
      result; MEM_RECOVER_DONE is raised. -/
  | recoveryPassEnd (g : Nat)
  /-- OP_MEM_INJECT (R458): Inverts the named data and check bits of one stored code word. -/
  | opMemInject (j : Nat)
  /-- OP_BIST (R508): Runs the selected memory march tests and known-answer tests in MAINTENANCE. -/
  | opBist (j : Nat)
  /-- BIST_DONE (R508): The self-test ends, the tested groups are invalidated, acquisition restarts
      and BIST_DONE is raised. -/
  | bistDone (failed : BitVec 5) (firstFail : Word)
  /-- OP_FW_STAGE (R501): Verifies a Zilvy image and programs it into a flash slot, then reads it
      back. -/
  | opFwStage (j : Nat)
  /-- FW_STAGED (R501): Flash programming and read-back end; the command completes and FW_STAGED is
      raised. -/
  | fwStaged (e : FlashEnd)
  /-- OP_FW_ACTIVATE (R501): Writes the boot record to prefer a verified slot and, with ADVANCE,
      raises the fused minimum security version. -/
  | opFwActivate (j : Nat) (r : FlashRead)
  /-- OP_CORE_RETURN (R407): Restarts an OFFLINE management core as step 5 of R403 does. -/
  | opCoreReturn (j : Nat)
  /-- OP_CTR_CONFIG (R478): Reconfigures a programmable counter, committing at the next time-counter
      tick. -/
  | opCtrConfig (c : CtrConfig)
  /-- OP_CTR_SNAPSHOT (R469): Requests a snapshot of the named blocks' counters at its commit tick. -/
  | opCtrSnapshot (j : Nat)
  /-- OP_BW_CONFIG (R480): Sets the bandwidth window and BW_INT, committing at the end of the window
      in progress. -/
  | opBwConfig (j : Nat)
  /-- PMC_TICK (R471): At each time-counter tick, the enabled programmable counters add their filtered
      events. -/
  | pmcTick (events : List PmcEvent)
  /-- SNAPSHOT_INSTANT (R469): At the snapshot tick, every counter of the named blocks is copied to
      its shadow and SNAPSHOT_DONE is raised. -/
  | snapshotInstant (wrapped : BitVec 17)
  /-- BW_WINDOW (R480): At a window end, every port's bytes and rate are latched, BW_SEQ increments
      and BW_WINDOW may be raised. -/
  | bwWindow (bytes : List Nat)
  /-- PMU_SNAP_WRITE (R469): A write of 1 to a PMU_SNAP bit requests a snapshot of that block at the
      next tick. -/
  | pmuSnapWrite (w : Word)
  /-- PMU_VIEW_WRITE (R469): A write of PMU_VIEW switches the block's counter reads between shadow and
      live values. -/
  | pmuViewWrite (w : Word)
  /-- PMU_SAMPLE_READ_WRITE (R483): A write advancing PMU_SAMPLE_READ within the unread range frees
      sample entries; other values are ignored. -/
  | pmuSampleReadWrite (w : Word)
  /-- LOW_WORD_READ (R468): A read of a pair's low word or a triple's word 0 returns it and loads the
      master's high-word latch. `span` may read several words (R540). -/
  | lowWordRead (master : Nat) (span : ReadSpan)
  /-- SQ_DOORBELL (R383): The host writes SQ_TAIL to cover new packets in a submission ring. -/
  | sqDoorbell (r : Nat) (w : Word)
  /-- CQ_HEAD_WRITE (R383): The host writes CQ_HEAD, freeing completion slots so that a waiting
      completion can be written. -/
  | cqHeadWrite (r : Nat) (w : Word)
  /-- SQ_ENABLE_WRITE (R409): Setting SQ ENABLE zeroes head and tail and allows fetch; clearing it
      stops fetch after the current packet. -/
  | sqEnableWrite (r : Nat) (w : Word)
  /-- SQ_FETCH_ERROR_CLEAR (R386): A W1C of FETCH_ERROR resumes fetch at SQ_HEAD. -/
  | sqFetchErrorClear (r : Nat)
  /-- CQ_ENABLE_WRITE (R409): Setting CQ ENABLE zeroes head and tail and restarts PHASE at 1; clearing
      is ignored while the bound SQ is busy. -/
  | cqEnableWrite (r : Nat) (w : Word)
  /-- PACKET_FETCH (R385): The device reads a whole packet from a submission ring, advances SQ_HEAD
      and makes the front-end checks. -/
  | packetFetch (r : Nat) (read : PacketRead)
  /-- PARAM_POINTER_READ_DONE (R390): The DMA read of pointer parameters ends, and the packet passes
      or fails step 4 of R393. -/
  | paramPointerReadDone (j : Nat) (read : PointerRead)
  /-- COMPLETION_WRITE (R384): A completion is written to its ring when the ring has room and ordering
      allows, CQ_TAIL advances and CQ_DONE is raised. -/
  | completionWrite (j : Nat)
  /-- MBX_WRITE (R387): An SPI WRITE transfer writes bytes into the mailbox request buffer. -/
  | mbxWrite (addr : BitVec 16) (bytes : List Byte)
  /-- MBX_READ (R387): An SPI READ transfer returns bytes from the mailbox space. -/
  | mbxRead (addr : BitVec 16) (n : Nat)
  /-- MBX_STATUS (R387): An SPI STATUS transfer returns the mailbox status byte. -/
  | mbxStatus
  /-- MBX_BAD_INSTRUCTION (R387): An SPI transfer with an unknown instruction byte is ignored in full. -/
  | mbxBadInstruction (b : Byte)
  /-- MBX_POST (R388): A write to 0x2000 posts the request buffer as a command, or sets OVERRUN while
      BUSY. -/
  | mbxPost
  /-- MBOX_RESPONSE_WRITE (R388): A mailbox command ends; the response buffer is written, BUSY clears,
      DONE is set and MBOX_DONE is raised. -/
  | mboxResponseWrite
  /-- CORE_TRAP (R402): A management core executes an illegal instruction or access. -/
  | coreTrap (c : Nat)
  /-- CORE_WATCHDOG (R402): A management core has given no heartbeat for 10 ms. -/
  | coreWatchdog (c : Nat)
  /-- CORE_RESTARTED (R403): The peer copy of the core's body ends and the core returns to service. -/
  | coreRestarted (c : Nat)
  /-- HOLDOFF_EXPIRY (R415): A group's hold-off timer expires and the group is delivered if it
      requests. -/
  | holdoffExpiry (n : Nat)
  /-- ICU_CLAIM_READ (R420): A read of ICU_CLAIM returns the lowest requesting source with its count
      and sets it in service. -/
  | icuClaimRead (n : Nat)
  /-- ICU_COMPLETE_WRITE (R421): A write of ICU_COMPLETE clears the in-service bit of the named
      source. -/
  | icuCompleteWrite (n : Nat) (w : Word)
  /-- ICU_SPURIOUS_READ (R435): A read of ICU_SPURIOUS returns and clears the spurious-claim count. -/
  | icuSpuriousRead (n : Nat)
  /-- ICU_ENABLE_WRITE (R426): A plain write of ICU_ENABLE sets all sixteen enable bits of a group. -/
  | icuEnableWrite (n : Nat) (w : Word)
  /-- ICU_ENABLE_SET (R435): A W1S write sets the named enable bits. -/
  | icuEnableSet (n : Nat) (w : Word)
  /-- ICU_ENABLE_CLR (R435): A W1C write clears the named enable bits. -/
  | icuEnableClr (n : Nat) (w : Word)
  /-- ICU_PENDING_WRITE (R425): A plain write of ICU_PENDING sets P of each event source to the
      written bit. -/
  | icuPendingWrite (n : Nat) (w : Word)
  /-- ICU_PENDING_SET (R425): A W1S write sets P of the named event sources without counting or
      logging. -/
  | icuPendingSet (n : Nat) (w : Word)
  /-- ICU_PENDING_CLR (R435): A W1C write clears P of the named event sources. -/
  | icuPendingClr (n : Nat) (w : Word)
  /-- ICU_CFG_WRITE (R414): A write of ICU_CFG sets the group's route and hold-off. -/
  | icuCfgWrite (n : Nat) (w : Word)
  /-- ICU_GPIO_MODE_WRITE (R438): A write of ICU_GPIO_MODE changes GPIO sensing modes, discarding P
      and taking level conditions at once. -/
  | icuGpioModeWrite (w : Word)
  /-- GPIO_EDGE (R438): A GPIO pin changes and raises or updates its source according to its mode. -/
  | gpioEdge (i : Nat) (high : Bool)
  /-- EVLOG_MERGE_WRITE (R431): A held entry whose settle window has passed is written to the event-
      log ring, with LATE, drops and markers as R431 and R432 state. -/
  | evlogMergeWrite
  /-- EVLOG_READ_WRITE (R434): A write of EVLOG_READ within the unread range consumes entries; other
      values are ignored. -/
  | evlogReadWrite (w : Word)
  /-- EVLOG_CTRL_WRITE (R441): A write sets the watermark and overwrite mode of the event log. -/
  | evlogCtrlWrite (w : Word)
  /-- D3HOT_ENTRY (R419): The PCIe function enters D3hot, stopping fetch and completion writes. -/
  | d3hotEntry (pmeEnable : Bool)
  /-- D0_RETURN (R419): The function returns to D0; waiting completions are written and requesting
      groups are delivered. -/
  | d0Return (clearPme : Bool)
  /-- BUS_MASTER_ENABLE_SET (R551): Bus Master Enable becomes 1 in D0; waiting completions are written
      and MSIX groups are delivered. -/
  | busMasterEnableSet
  /-- BUS_MASTER_ENABLE_CLEAR (R551): Bus Master Enable becomes 0, and the device stops all memory
      requests. -/
  | busMasterEnableClear
  /-- MSIX_ENABLE_SET (R418): MSI-X Enable becomes 1, and each requesting MSIX group is delivered. -/
  | msixEnableSet
  /-- MSIX_MASK_CLEAR (R418): A vector or function mask clears, and a message with a set pending bit
      is sent. -/
  | msixMaskClear (vector : Option Nat)
  /-- PCIE_LINK_UP (R442): The PCIe link enters L0 from a link-down state. -/
  | pcieLinkUp
  /-- PCIE_LINK_DOWN (R442): The PCIe link goes down. -/
  | pcieLinkDown
  /-- PCIE_ERROR (R442): An error is recorded in the Advanced Error Reporting capability. -/
  | pcieError (uncorrectable : Bool)
  /-- PERST_ASSERT (R494): PERST_N resets the endpoint and the ring registers, and marks outstanding
      completions for discard. -/
  | perstAssert
  /-- RING_COMPLETION_DISCARD (R494): A command outstanding at PERST_N reaches its outcome and its
      completion is discarded and counted. -/
  | ringCompletionDiscard (j : Nat)
  /-- I2C_WRITE (R546): An I2C write sets an address and writes whole data words through the port's
      access rights. -/
  | i2cWrite (addr : I2cAddress) (bytes : List Byte)
  /-- I2C_SET_ADDRESS (R546): An I2C write with three address bytes and no data sets the read address. -/
  | i2cSetAddress (addr : I2cAddress)
  /-- I2C_READ (R546): An I2C read returns words from the set address, with the side effects of each
      read. -/
  | i2cRead (span : I2cSpan)
  /-- I2C_ERROR (R442): An I2C transaction ends in a protocol error. -/
  | i2cError
  /-- QSPI_ERROR (R442): A boot-flash access outside BOOT fails. -/
  | qspiError
  /-- DIAG_WINDOW_READ (R545): A 32-bit read through a diagnostic memory window checks the code word,
      and records poison reads. -/
  | diagWindowRead (addr : BitVec 24)
  /-- MEMG_LAP_LIMIT_WRITE (R456): A new lap limit applies at once and may raise SCRUB_LAP_LONG for
      the lap in progress. -/
  | memgLapLimitWrite (g : Nat) (w : Word)
  /-- MEMG_LOG_CLEAR (R450): A write of LOG_CLEAR empties the group's log table and clears
      LOG_OVERFLOW. -/
  | memgLogClear (g : Nat)
  /-- MEMG_LOG_OVERFLOW_CLEAR (R450): A W1C write clears LOG_OVERFLOW. -/
  | memgLogOverflowClear (g : Nat)
  /-- MEMG_CLEAR_LAPS (R456): A write of CLEAR_LAPS sets the lap minimum and maximum to the next lap's
      time. -/
  | memgClearLaps (g : Nat)
  /-- SCRUB_READ (R454): The scrubber reads the next word in an idle port cycle, corrects or poisons
      it, and ends a lap at the last word. -/
  | scrubRead (g : Nat)
  /-- SCRUB_LAP_LONG (R456): The lap in progress reaches the lap limit, and the watchdog raises
      SCRUB_LAP_LONG. -/
  | scrubLapLong (g : Nat)
  /-- MERGE_DRAIN (R452): A merge-buffer entry drains as a full-width write, or is discarded on
      poison. In groups 2 to 5 the port first takes the narrow writes and the reads, in order; the key
      store's writes come from its own commands and it has no others. -/
  | mergeDrain (g addr : Nat) (writes : List NarrowWrite) (reads : List PortRead)
  /-- CHURN_ONLINE (R253): The dumped bank's valid bits are cleared and the churn returns to service,
      or is held out under R254. -/
  | churnOnline (c : Nat)
  /-- COEFF_SET_REBUILT (R449): The rebuilt dispersion coefficient set is switched in at a frame start
      and the poisoned set is invalidated. -/
  | coeffSetRebuilt
  /-- BLOCK_ARRIVAL (R236): A block arrives from V4; a vat entry is reserved, the account is credited
      and the block is dispatched or failed. `codes` are the ADC codes since the last command that
      brought any. -/
  | blockArrival (now : Nat) (codes : List FourCodes)
  /-- ITERATION_END (R232): An engine ends an outer pass, checks the CRC, and the block becomes final
      or waits; the free engine chooses or steals work. The engine is churn `c`'s. -/
  | iterationEnd (now : Nat) (b : BitVec 64) (c : Nat)
  /-- BLOCK_DEADLINE (R237): A waiting block's deadline comes within 0.770 us and it becomes final
      with cause DEADLINE. -/
  | blockDeadline (now : Nat) (b : BitVec 64)
  /-- STEAL_TRANSFER_END (R241): A ring transfer ends; the block starts in the thief, and waiting
      transfers are served by age. -/
  | stealTransferEnd (now : Nat) (b : BitVec 64) (parityError : Bool)
  /-- VAT_WRITE_END (R244): A final block's information bits are written to its vat entry, and its
      slot becomes FREE. -/
  | vatWriteEnd (now : Nat) (b : BitVec 64)
  /-- BLOCK_RELEASE (R245): The vat releases the head block, at once in order or at its deadline with
      fixed latency, and the deframer marks failures. -/
  | blockRelease (now : Nat)
  /-- FRAME_OPEN (R75): The assembler opens a frame: the mapper cuts every circuit, TX_TIME is fixed,
      and the map and epoch switches commit. -/
  | frameOpen (residues : List (Nat × Nat))
  /-- FRAME_HANDOFF (R330): The assembled frame passes to T5 with its overhead, tags and echo fields
      written. -/
  | frameHandoff
  /-- FRAME_DEFRAMED (R57): The receive sequencer deframes a frame, checks profile, map and tags, and
      delivers data or fill per circuit. -/
  | frameDeframed (age : Nat) (drains : List (Nat × Nat))
  /-- CLIENT_BLOCK_INGRESS (R77): A transcoded 257-bit client block enters the circuit's ingress FIFO,
      or is discarded on overrun. `symbols` are the symbols of the client's RS codewords that have
      come since the command before, in order. -/
  | clientBlockIngress (c : Nat) (symbols : List (BitVec 10))
  /-- INGRESS_FAIL_START (R74): A lane of a circuit's group loses signal, block lock or marker lock,
      and the ingress becomes failed. -/
  | ingressFailStart (loss : LockLoss)
  /-- INGRESS_FAIL_END (R74): 1 ms after the last lane regains lock, the ingress stops being failed. -/
  | ingressFailEnd (c : Nat)
  /-- EGRESS_UNDERRUN (R81): A circuit's egress FIFO empties before a frame's blocks arrive, so error
      control blocks are sent. -/
  | egressUnderrun (c : Nat) (periods : Nat)
  /-- RECOVERY_LOCK (R79): The residual fill has stayed within Q plus or minus 2 for 1 s and the
      recovery loop is locked. -/
  | recoveryLock (c : Nat)
  /-- RECOVERY_UNLOCK (R79): The fill leaves Q plus or minus 64, or steering hits its limit, and the
      loop is unlocked. -/
  | recoveryUnlock (c : Nat)
  /-- PTP_INGRESS (R93): A client PTP event message enters, and the ingress time is written into
      messageTypeSpecific. -/
  | ptpIngress (c : Nat) (frame : List Byte)
  /-- PTP_EGRESS (R94): A client PTP event message leaves, and the residence time is added to
      correctionField. -/
  | ptpEgress (c : Nat) (frame : List Byte)
  /-- ACQ_SIGNAL_DETECTED (R216): The RMS code stays at or above LOS_RMS for 10 us in A1, and
      acquisition goes to A2 or A3. -/
  | acqSignalDetected (codes : List FourCodes := [])
  /-- CD_FOUND (R216): The A2 dispersion scan ends above threshold, D is applied and acquisition goes
      to A3. -/
  | cdFound (scan : CdScan)
  /-- FRAME_SYNC_FOUND (R216): Two sync detections one frame apart move acquisition to A4. -/
  | frameSyncFound (f : SyncFound)
  /-- CONVERGED (R216): The loops are locked and pilot SNR has held for 4 frames, so acquisition goes
      to A5. -/
  | converged
  /-- ACQ_TIMEOUT (R216): An acquisition state reaches its limit, and the machine returns or repeats
      as the table states. -/
  | acqTimeout
  /-- ACQ_DECODE_FAIL (R218): A5 reaches its 64-frame limit without eight good overheads and returns
      to A3. -/
  | acqDecodeFail
  /-- POWER_STEP (R219): The received power ratio stays beyond plus or minus 6 dB for a full 1 us
      window, and acquisition restarts or LOF follows. -/
  | powerStep (codes : List FourCodes := [])
  /-- LOS (R222): The RMS code stays below LOS_RMS over a 1 us window. -/
  | los (codes : List FourCodes)
  /-- TIMING_UNLOCK (R205): The interpolator phase or the steering leaves its range and timing
      recovery unlocks. -/
  | timingUnlock
  /-- CARRIER_UNLOCK (R208): The pilot phase error stays high for 8 pilots, or f_c leaves plus or
      minus 3.5 GHz. -/
  | carrierUnlock
  /-- ADC_SYNTH_UNLOCK (R222): The ADC sampling synthesiser loses lock. -/
  | adcSynthUnlock
  /-- ADC_SYNTH_LOCK (R168): The ADC sampling synthesiser locks again, releasing acquisition from A1. -/
  | adcSynthLock
  /-- ADC_CLIP_WINDOW (R194): At the end of a 1 ms window, a lane whose clipped samples exceed
      RX_CLIP_LIMIT raises ADC_CLIP. -/
  | adcClipWindow (sample : Nat)
  /-- CD_TRACK_UPDATE (R197): Once per second in A6, D is re-estimated and a tracking step may be
      applied at the next frame start. -/
  | cdTrackUpdate (estimate : Int)
  /-- LO_STEER_INTERVAL (R209): At the end of an update interval, the mean f_c is formed and an LO
      step message may be sent. `n` is the interval's length in frames. -/
  | loSteerInterval (n : Nat)
  /-- LO_KEEPALIVE (R211): When no step is due for a second, a keep-alive message is sent on the LO
      steering port. -/
  | loKeepalive
  /-- LO_ACK (R211): The controller acknowledges a message, and an acknowledged step is added to
      RXDSP_LO_STEER. -/
  | loAck
  /-- LO_RETRY (R212): 10 us without an acknowledgement, the same message is resent; after LO_RETRIES,
      LO_PORT_ERROR is raised. -/
  | loRetry
  /-- LANE_START (R273): At its start slot, an enabled host lane pair starts its domains and receiver
      bring-up at L1. `first` is the pair's first lane. -/
  | laneStart (slot : Option Nat) (first : Nat)
  /-- LANE_TX_SYNTH_LOCK (R274): A started lane's transmit synthesiser locks and HTX starts driving. -/
  | laneTxSynthLock (l : Nat)
  /-- LANE_SIGNAL_DETECT (R275): The HRX amplitude is above threshold for 2 us, and the lane moves
      from L1 to L2. -/
  | laneSignalDetect (l : Nat)
  /-- LANE_CDR_LOCK (R275): The CDR phase error is within 0.1 UI for 10 us, and the lane moves to L3. -/
  | laneCdrLock (l : Nat)
  /-- LANE_UP (R275): The SNR has held at or above SNR_MIN for 1 ms, and the lane enters L4. -/
  | laneUp (l : Nat) (snr : BitVec 16) (peak : BitVec 6)
  /-- LANE_BRINGUP_TIMEOUT (R276): L2 or L3 reaches its limit, the next start peaking is tried, and
      BRINGUP_CYCLE is raised after index 6. -/
  | laneBringupTimeout (l : Nat)
  /-- LANE_DOWN (R277): A lane in L4 loses signal, CDR lock or SNR and returns to L1. -/
  | laneDown (l : Nat) (cause : BitVec 4)
  /-- LANE_FREEZE_WINDOW (R279): At the end of each 4,096-symbol window, the density and occupancy
      tests freeze or unfreeze adaptation. -/
  | laneFreezeWindow (l : Nat) (w : LaneWindow)
  /-- FREEZE_LONG (R281): A lane stays frozen for FREEZE_LIMIT and LANE_ERROR is raised with cause
      FREEZE_LONG. -/
  | freezeLong (l : Nat)
  /-- GROUP_ALIGNED (R284): Every PCS lane of a group holds alignment-marker lock and the group is
      deskewed. `lanes` are the group's host lanes in order. -/
  | groupAligned (c : Nat) (lanes : List GroupLane)
  /-- DESKEW_FAIL (R284): A group is not aligned 10 ms after its last lane entered L4, or a PCS lane
      is missing or duplicated. `mixed` says that a PCS lane is missing or duplicated. -/
  | deskewFail (c : Nat) (mixed : Bool := false)
  /-- CHECKER_LOCK (R286): The PRBS checker sees 1,024 consecutive error-free bits and locks. -/
  | checkerLock (l : Nat)
  /-- CHECKER_LOST (R286): 1,024 errors in a 4,096-bit window lose checker lock and raise LANE_ERROR. -/
  | checkerLost (l : Nat)
  /-- POWER_ON (R491): VDD_MON rises through its trip level and the device enters RESET. -/
  | powerOn
  /-- RESET_N_LOW (R491): RESET_N is held low for 1 us and the device enters RESET with the output
      cut. -/
  | resetNLow
  /-- SUPPLY_FAULT (R490): A rail stays below its trip level for 1 us and the device enters RESET. -/
  | supplyFault (rail : BitVec 4)
  /-- THERMAL_TRIP (R490): A die sensor holds at 125 C for 10 us and the device enters RESET with
      cause THERMAL. -/
  | thermalTrip
  /-- THERMAL_WARN (R490): A die sensor reaches 115 C, or all fall to 110 C, setting or clearing
      THERMAL_WARN. -/
  | thermalWarn (hottest : Int)
  /-- SUPPLY_LOW (R490): A rail enters or leaves the band just above its trip level. -/
  | supplyLow (rails : Vector Nat 10)
  /-- RESET_END (R492): RESET_N, rails, minimum time and temperature all allow it, so RESET ends and
      BOOT begins. -/
  | resetEnd (bootSel i2cPins : BitVec 2) (flash : Option Flash)
  /-- BOOT_SOURCE_ATTEMPT_END (R498): An image from flash or mailbox verifies or fails a check, and
      the next source is tried or boot proceeds. -/
  | bootSourceAttemptEnd (r : FlashRead)
  /-- MBX_LOAD_TIMEOUT (R498): No mailbox post arrives for 10 s during a load, which fails with code
      7. -/
  | mbxLoadTimeout
  /-- BOOT_COMPLETE (R500): A verified image is copied to all cores and the device enters STANDBY. -/
  | bootComplete
  /-- AVS_UPDATE (R489): The VDD_CORE target is recomputed and, if changed, published with
      AVS_CHANGED. -/
  | avsUpdate (hottest : Int)
  /-- AVS_LOW (R489): VDD_CORE stays below target minus 25 mV for 100 us, or recovers, setting or
      clearing AVS_LOW. -/
  | avsLow (core : Nat)
  /-- READY_ENTRY (R504): Entry into READY starts the common domains and synthesisers, invalidates
      groups 0, 1 and 9 and runs the KAT. -/
  | readyEntry (katPassed : Bool)
  /-- READY_UNIT_START (R504): At its stagger time, a converter or churn group starts during READY
      start-up. -/
  | readyUnitStart (u : StartUnit)
  /-- READY_DONE (R504): The last converter has calibrated, the start-up is complete and READY_DONE is
      raised. -/
  | readyDone
  /-- WIND_DOWN_UNIT_STOP (R505): After the ramp-down ends, units stop in reverse stagger and the
      fabric's blocks are discarded. -/
  | windDownUnitStop
  /-- STANDBY_ENTRY (R505): The domains of code P stop 50 us after the last unit, STANDBY is entered
      and the command completes. -/
  | standbyEntry
  /-- REGISTER_WRITE (R549): A BAR0 write to a writable register without a row of its own sets the
      field in the modes R549 allows. `ws` are the TLP's words and `enables` the byte enables of each. -/
  | registerWrite (addr : BitVec 24) (ws : List Word) (enables : List (BitVec 4))
  /-- TIMING_RECOVERY_LOCK (R205): The interpolator phase has stayed within plus or minus 0.25 of a
      sample for 100 us, so timing recovery is locked and LINECLK becomes valid. -/
  | timingRecoveryLock
  /-- CONVERTER_CALIBRATION_END (R504): A converter finishes its calibration within 200 us of its
      start and synthesiser lock, and its DEV_START calibrated bit is set. -/
  | converterCalibrationEnd (i : Nat)
  /-- ZEROISE_TRIGGER_RELEASE (R130): ZEROISE_N or TAMPER_N returns high, so the device stops re-
      zeroising and the pin state no longer blocks key loads or enrolment. -/
  | zeroiseTriggerRelease (pin : Bool)
  /-- DATAPATH_UE_READ (R448): A datapath reader (engine, steal read, crypto pipeline, equaliser or
      core fetch) finds an uncorrectable error in a word it reads mid-operation. -/
  | datapathUeRead (g addr : Nat)
  /-- RECOVERY_PASS_READ (R457): An OP_MEM_RECOVER pass reads its next word in an idle port cycle,
      correcting and logging, poisoning, or invalidating it with CLEAR. -/
  | recoveryPassRead (g : Nat)
  deriving DecidableEq, Repr

end Sys2Proof
end

