-- ==== Sys2Proof/Decode.lean ====
section
/-!
DEFINITION. The table gives none of its rows bits: an opcode reaches the block inside a packet
(R389), a register write by its address, and an event on a pin or port. So no word spells a
command by the table.
-/

namespace Sys2Proof

/-- The command that a word spells by the table's bits: the table gives no row any. -/
def decodeTableWord (_nbits _w : Nat) : Option Instr := none

end Sys2Proof
end

