-- ==== Sys2Proof/Machine/State.lean ====
section
/-!
DEFINITION. The state of the VXZ-2460 as plain data: every register, FIFO, buffer, counter,
mode and pin the spec gives the block, grouped by chapter, the reasons a step can stop, and
the state right after reset.
-/

namespace Sys2Proof.Machine

/-! ## Power, reset, boot and modes (R9, R487 to R513) -/

/-- The eight modes in the row order of R9, which is also the order of the mode codes (R392). -/
inductive Mode where
  | reset | boot | standby | ready | acquire | traffic | maintenance | zeroised
  deriving DecidableEq, Repr

/-- The image sources of R495, numbered as DEV_BOOT_STATUS.SOURCE numbers them (R512). -/
inductive ImageSource where
  | slotA | slotB | mailbox
  deriving DecidableEq, Repr

/-- The verified image the device runs or is about to run (R497). -/
structure Image where
  source : ImageSource
  version : Word
  security : Nat
  bodyLength : Nat
  /-- The enrolment key inside the image, absent when FLAGS[0] is 0. -/
  enrolKey : Option (List Byte)
  body : List Byte
  deriving DecidableEq, Repr

/-- An instruction sent to the boot flash over QSPI, with its 3-byte address, its dummy cycles and the bytes
that it covers from there (R496). -/
structure FlashOp where
  opcode : Byte
  addr : BitVec 24
  dummy : Nat := 0
  count : Nat := 0
  deriving DecidableEq, Repr

/-- How far a wind-down has come (R505). -/
inductive WindDown where
  /-- Step 1: the output is ramping down. -/
  | output
  /-- Step 2: units stop one by one; the number still running counts down from 24. -/
  | units (left : Nat)
  /-- Step 2 has ended; step 3 is due. -/
  | unitsStopped
  /-- Steps 1 to 3 have ended (OP_RESET only; R405). -/
  | done
  deriving DecidableEq, Repr

structure Pwr where
  mode : Mode := .reset
  /-- A READY start-up runs (R504). -/
  starting : Bool := false
  /-- READY has been entered and its entry actions (READY_ENTRY) are still due (R504). -/
  readyEntryDue : Bool := false
  /-- The host-lane pairs, churn groups and converters of R504 have been told to start. -/
  pRunning : Bool := false
  windDown : Option WindDown := none
  /-- The OP_MODE_SET whose completion ends with the transition in progress. -/
  modeJob : Option Nat := none
  thermalWarn : Bool := false
  avsLow : Bool := false
  supplyLow : Bool := false
  causePowerOn : Bool := false
  causePin : Bool := false
  causeSupply : Bool := false
  causeThermal : Bool := false
  causeCommand : Bool := false
  rail : BitVec 4 := 0
  /-- How far the fused minimum security version has been raised above its value at
  manufacture (R498, R501); fuses survive RESET. -/
  fusedAdvance : Nat := 0
  stageFail : BitVec 4 := 0
  failMbox : BitVec 4 := 0
  failB : BitVec 4 := 0
  failA : BitVec 4 := 0
  bootSel : BitVec 2 := 0
  source : BitVec 4 := 0
  /-- The sources still to be tried in this BOOT, in order (R495). -/
  bootOrder : List ImageSource := []
  /-- The first source this BOOT tried, which BOOT_FALLBACK compares with (R500). -/
  bootFirst : Option ImageSource := none
  /-- An image that has verified and is being copied to the cores (R500). -/
  verified : Option Image := none
  /-- The image Zilvy runs from. -/
  image : Option Image := none
  avsTarget : BitVec 10 := 750
  avsValid : Bool := false
  /-- The last update of the target (R489). -/
  avsAt : Option Quad := none
  /-- DEV_START (R509). -/
  start : Word := 0
  /-- READY was entered, and the units of R504 began to stop (R505), at these periods. -/
  readyAt : Quad := 0
  windAt : Quad := 0
  /-- Lanes that commands enabled after their slots, still to start in pairs, and when the pair before
  started (R273). -/
  pairs : List (Quad × List Nat) := []
  /-- RESET has been entered for a thermal trip since it was last left (R492). -/
  tripped : Bool := false
  /-- The boot flash, which stands outside the device, and what has been sent to it, newest first (R496). -/
  flash : Flash := {}
  qspi : List FlashOp := []
  /-- Self-tests in progress, oldest first: job and mask (R508). -/
  bist : List (Nat × BitVec 5) := []
  /-- Slots being programmed, oldest first: job, slot and the image's bytes (R501). -/
  staging : List (Nat × Bool × List Byte) := []
  deriving DecidableEq, Repr

/-! ## Interrupts, PCIe function states and the event log (R412 to R442, R551) -/

/-- P, E, S and C of one interrupt source (R413). For a level source `p` is its condition. -/
structure Src where
  p : Bool := false
  e : Bool := false
  s : Bool := false
  c : BitVec 8 := 0
  deriving DecidableEq, Repr

/-- One interrupt group (R414, R415, R424). -/
structure Grp where
  route : BitVec 3 := 0
  holdoff : BitVec 16 := 0
  /-- The running hold-off timer: the value loaded and the TIMESTAMP period of the load. -/
  timer : Option (BitVec 16 × Quad) := none
  logmask : BitVec 16 := 0xFFFF
  /-- A delivery has happened and no claim has followed it (R424). -/
  fresh : Bool := false
  /-- The group asserts on INT_N (R416). -/
  asserting : Bool := false
  /-- A delivery to a core that is not in service waits (R416). -/
  waiting : Bool := false
  deriving DecidableEq, Repr

/-- What an event-log entry holds before the merge gives it SEQ and LATE (R430). -/
structure LogEntry where
  stamp : Quad
  /-- The TIMESTAMP period in which the entry reached the merge (R31). -/
  reached : Quad
  secs : Word
  ns : Word
  source : BitVec 12
  officer : Bool
  timeInvalid : Bool
  code : BitVec 16
  data : Quad
  deriving DecidableEq, Repr

/-- What the interrupt controller and the endpoint have sent (R416, R419). -/
inductive Sent where
  | msix (vector : Nat)
  | pme
  | core (core group : Nat)
  deriving DecidableEq, Repr

structure Evt where
  src : Tab Src := []
  grp : Tab Grp := []
  gpioMode : Word := 0
  gpioPin : BitVec 16 := 0
  d3hot : Bool := false
  busMaster : Bool := false
  msixEnable : Bool := false
  functionMask : Bool := false
  vectorMask : Word := 0xFFFFFFFF
  pba : Word := 0
  pmeEnable : Bool := false
  pmeStatus : Bool := false
  linkUp : Bool := false
  perst : Bool := false
  /-- Rings whose ready completions wait, each counting as a request of its CQ_DONE source
  (R419, R551). -/
  waitingDone : BitVec 4 := 0
  /-- Everything sent, newest first. -/
  sent : List Sent := []
  /-- Entries stamped and waiting for the merge, in arrival order (R431). -/
  held : List LogEntry := []
  logWrite : BitVec 12 := 0
  logRead : BitVec 12 := 0
  /-- Entries written since RESET, modulo 2^32: the SEQ of the next entry. -/
  seqNext : Word := 0
  watermark : BitVec 12 := 2048
  overwrite : Bool := false
  /-- SEQ of the last entry written (R439). -/
  lastSeq : Word := 0
  /-- Entries discarded since the last marker (R432). -/
  discarded : Word := 0
  /-- TIMESTAMP and SOURCE of the last entry written. -/
  lastWritten : Option (Quad × BitVec 12) := none
  /-- The TIMESTAMP period count (R430). -/
  period : Quad := 0
  /-- The period of the last raise under each once-per-second limit, by the limit's key. -/
  limited : Tab (Option Quad) := []
  /-- Every fixed, bandwidth and programmable counter, by the BAR0 offset of its low word. -/
  cnt : Tab Quad := []
  /-- The counters that wrapped or saturated in the TIMESTAMP period that the last of them did (R470). -/
  passed : List Nat := []
  passedAt : Quad := 0
  deriving DecidableEq, Repr

/-! ## Slaca commands (R381 to R411) -/

structure Sq where
  base : Quad := 0
  enable : Bool := false
  size : BitVec 4 := 1
  fetchError : Bool := false
  tail : BitVec 14 := 0
  head : BitVec 14 := 0
  deriving DecidableEq, Repr

structure Cq where
  base : Quad := 0
  enable : Bool := false
  size : BitVec 4 := 0
  tail : BitVec 14 := 0
  head : BitVec 14 := 0
  phase : Bool := false
  deriving DecidableEq, Repr

/-- Core states of CORE_STATUS (R410). -/
inductive CoreState where
  | inService | restarting | offline
  deriving DecidableEq, Repr

structure CoreSt where
  state : CoreState := .inService
  lastCause : BitVec 2 := 0
  /-- TIMESTAMP period of the last fault (R404). -/
  lastFault : Option Quad := none
  /-- It faulted within 1 s of the fault before, and stays halted (R404). -/
  again : Bool := false
  /-- The OP_CORE_RETURN that restarts it. -/
  returnJob : Option Nat := none
  deriving DecidableEq, Repr

/-- How far an outstanding command has come (R393 to R398). -/
inductive Stage where
  /-- Fetched; steps 5 to 8 of R393 are still to come. -/
  | fetched
  /-- Its pointer read is outstanding (R390). -/
  | pointer
  /-- Accepted and not committed. -/
  | running
  /-- Committed; its work has not ended. -/
  | working
  /-- Its outcome is decided; its completion is not yet written. -/
  | decided
  deriving DecidableEq, Repr

structure Job where
  id : Nat
  mailbox : Bool
  ring : Nat
  opcode : BitVec 16
  tag : BitVec 12
  pointer : Bool
  noInt : Bool
  barrier : Bool
  key : BitVec 8
  priv : BitVec 2
  auth : Bool
  cookie : Quad
  params : List Word
  core : Option Nat := none
  stage : Stage := .fetched
  status : BitVec 8 := 0
  committed : Bool := false
  detail : Word := 0
  /-- The counter at the commit, or at the decision where there was no commit (R391). -/
  stamp : Nat := 0
  result : List Word := []
  /-- PERST_N marked the completion for discarding (R494). -/
  discarded : Bool := false
  /-- Job whose completion must be written before this one (R401). -/
  after : Option Nat := none
  /-- The front end refused it, or no core completed it (R433). -/
  front : Bool := false
  /-- Its chain's binding was released by a core fault (R403 step 4). -/
  released : Bool := false
  /-- Its completion is ready and waits for D0 and Bus Master Enable (R419, R551). -/
  waits : Bool := false
  /-- Its completion waits for room in its ring (R384). -/
  stalled : Bool := false
  /-- TIMESTAMP period and counter value at which the outcome was decided (R391, R433). -/
  decidedAt : Quad := 0
  decidedTime : Nat := 0
  /-- TIME_VALID was 0 at that moment (R430). -/
  decidedInvalid : Bool := false
  deriving DecidableEq, Repr

/-- A completion as it stands in host memory (R391). -/
structure Completion where
  ring : Nat
  slot : Nat
  words : List Word
  deriving DecidableEq, Repr

/-- A mailbox image load in progress (R499): the header chunk and the body bytes so far. -/
structure Load where
  header : List Byte
  body : List Byte
  bodyLength : Nat
  deriving DecidableEq, Repr

structure Cmd where
  sq : Tab Sq := []
  cq : Tab Cq := []
  core : Tab CoreSt := []
  /-- Outstanding commands in fetch order. -/
  jobs : List Job := []
  nextId : Nat := 0
  /-- The officer commands that have been taken and whose checks are still to come, in the order in
  which they were taken (R120). -/
  takes : List Nat := []
  /-- The ring from which the last packet was taken (R385). -/
  lastRing : Nat := 3
  /-- Completions written to host memory, newest first. -/
  written : List Completion := []
  mbRequest : Tab Byte := []
  mbResponse : Tab Byte := []
  mbBusy : Bool := false
  mbDone : Bool := false
  mbOverrun : Bool := false
  load : Option Load := none
  /-- The OP_RESET that has committed (R405). -/
  resetJob : Option Nat := none
  /-- The completion of OP_RESET has been written; RESET follows 10 us later. -/
  resetWritten : Bool := false
  resetAt : Quad := 0
  /-- RINGS_DISCARDED has been raised since the last PERST_N (R494). -/
  discardRaised : Bool := false
  deriving DecidableEq, Repr

/-! ## Memory integrity (R443 to R464) -/

/-- One protected code word: V, P, the data and the stored error pattern, data bits first,
then check bits from bit 128 (R444, R445). -/
structure MemCell where
  valid : Bool := false
  poison : Bool := false
  data : BitVec 128 := 0
  flips : BitVec 137 := 0
  deriving DecidableEq, Repr

/-- One entry of a group's log table (R450, R463). -/
structure LogRow where
  addr : BitVec 24
  syndrome : BitVec 9
  ue : Bool
  write : Bool
  boot : Bool
  detector : BitVec 4
  stamp : Quad
  deriving DecidableEq, Repr

/-- A recovery pass (R457). -/
structure Pass where
  job : Nat
  /-- The pass's reads so far: the next one takes the words of this number. -/
  addr : Nat
  clear : Bool
  read : Nat := 0
  ce : Nat := 0
  ue : Nat := 0
  invalidated : Nat := 0
  start : Quad := 0
  deriving DecidableEq, Repr

structure MemGrp where
  lapLimit : BitVec 20 := 4000
  lapLast : BitVec 24 := 0
  lapMin : BitVec 24 := 0
  lapMax : BitVec 24 := 0
  clearLaps : Bool := false
  log : List LogRow := []
  logOverflow : Bool := false
  lapLong : Bool := false
  /-- The scrubber's reads of the lap in progress: the next one takes the words of this number (in group 0
  one of each bank). -/
  scrubAddr : Nat := 0
  /-- Period at which the lap in progress last started to run, absent while it is paused. -/
  lapStart : Option Quad := none
  /-- Periods the lap in progress had run before its last pause. -/
  lapRun : Nat := 0
  pass : Option Pass := none
  deriving DecidableEq, Repr

/-- An entry of a merge buffer: the bits written and where, and the detector code of the master that
opened it (R452, R463). -/
structure MergeEntry where
  addr : Nat
  data : BitVec 128
  mask : BitVec 128
  master : Nat := 9
  deriving DecidableEq, Repr

/-- What a dispersion coefficient set was last filled with, and the word ranges invalidated since (R198,
R449). -/
structure CoeffSet where
  dispersion : Rat
  gone : List (Nat × Nat) := []
  deriving DecidableEq, Repr

structure Mem where
  /-- Words by group x 2^24 + address; an unlisted word has V = 0, but for the coefficients of group 9
  (coeffs). -/
  cells : Tab MemCell := []
  grp : Tab MemGrp := []
  /-- Narrow writes of the key store that have not drained, oldest first: the first eight are the
  merge buffer, and a later one is the stalled writer's (R452). -/
  merge : List MergeEntry := []
  /-- The same of the ports of groups 2 to 5, by group. -/
  ports : Tab (List MergeEntry) := []
  /-- What the reads of the last MERGE_DRAIN returned: the words, or the poison indication. -/
  loaded : List (Option (BitVec 64)) := []
  /-- The coefficient set in use, and the sets that hold coefficients, by half (R449). -/
  coeffSet : Bool := false
  coeffs : Tab (Option CoeffSet) := []
  /-- The poisoned coefficient set a rebuild will replace. -/
  coeffRebuild : Option Bool := none
  /-- MEMI_POISON_READ (R460). -/
  poisonRead : Word := 0
  deriving DecidableEq, Repr

/-! ## Counters and performance measurement (R465 to R486) -/

/-- The part of a programmable counter that OP_CTR_CONFIG replaces (R478, R485). -/
structure PmcConfig where
  event : BitVec 12 := 0
  reload : Bool := false
  sample : Bool := false
  int : Bool := false
  enable : Bool := false
  configPriv : BitVec 2 := 0
  masterMask : BitVec 10 := 0
  privMask : BitVec 4 := 0
  classMask : BitVec 8 := 0
  range0En : Bool := false
  range1En : Bool := false
  base0 : Word := 0
  limit0 : Word := 0
  base1 : Word := 0
  limit1 : Word := 0
  preset : BitVec 48 := 0
  deriving DecidableEq, Repr

/-- Who configures a programmable counter: an accepted packet, or Zilvy on a core (R471, R474). -/
inductive CtrIssuer where
  | packet (job : Nat)
  | zilvy (core : Nat)
  deriving DecidableEq, Repr

structure Pmc where
  cfg : PmcConfig := {}
  gen : BitVec 8 := 0
  /-- An accepted OP_CTR_CONFIG before its commit: its issuer, LOAD, configuration. -/
  pending : Option (CtrIssuer × Bool × PmcConfig) := none
  deriving DecidableEq, Repr

structure Pmu where
  pmc : Tab Pmc := []
  /-- PMU_OVERFLOW (R475). -/
  overflow : Quad := 0
  /-- The sample ring: eight words for each entry (R477). -/
  samples : Tab (List Word) := []
  sampleWrite : BitVec 8 := 0
  sampleRead : BitVec 8 := 0
  /-- The samples of counters 56 to 63, which go to Zilvy only (R471). -/
  own : List (List Word) := []
  /-- Blocks whose snapshot awaits its instant. -/
  snapPending : BitVec 17 := 0
  snapJobs : List (Nat × BitVec 17) := []
  view : BitVec 17 := 0
  snapOvf : BitVec 17 := 0
  snapTs : Quad := 0
  /-- The shadow copies, by the BAR0 offset of the counter's low word. -/
  shadow : Tab Quad := []
  window : BitVec 20 := 1000
  bwInt : Bool := false
  bwSeq : Word := 0
  bwPending : List (Nat × BitVec 20 × Bool) := []
  /-- When the window in progress began. -/
  bwStart : Quad := 0
  /-- MSI-X messages sent before it began, each of which carries four bytes (R479). -/
  bwMessages : Nat := 0
  deriving DecidableEq, Repr

/-! ## Register access ports (R468, R539 to R550) -/

/-- A master's high-word latch: the counter's address and its remaining words (R468). -/
structure Latch where
  addr : Option Nat := none
  words : List Word := []
  deriving DecidableEq, Repr

structure Bus where
  latch : Tab Latch := []
  i2cAddr : BitVec 24 := 0
  /-- I2C_A1 and I2C_A0 as sampled at the end of RESET (R534). -/
  i2cPins : BitVec 2 := 0
  /-- What the last read through any port returned, word by word. -/
  readData : List Word := []
  /-- EP of the PCIe completion that returned them (R446). -/
  poisoned : Bool := false
  /-- What MBX_MISO drove in the last SPI transfer, byte by byte; nothing where it stayed high-impedance
  (R387). -/
  spiData : List Byte := []
  deriving DecidableEq, Repr

/-! ## The line profile (R2, R7, R53, R61) -/

structure Profile where
  /-- Symbol rate in 0.25 GBd, 240 to 1,080. -/
  rate : Nat := 1080
  /-- Active slots, a multiple of 20 from 80 to 480. -/
  slots : Nat := 480
  /-- Rate code (R41). -/
  code : Nat := 4
  /-- The 64 pattern entries of each polarisation, codes 0 to 4 (R53). -/
  patX : List Nat := []
  patY : List Nat := []
  deriving DecidableEq, Repr

/-! ## Time counter and time transfer (R322 to R352) -/

/-- Servo states in the order of their codes (R333). -/
inductive Servo where
  | off | wait | tracking | locked | hold
  deriving DecidableEq, Repr

/-- Submodes of a TIMED pulse output (R344). -/
inductive PulseMode where
  | off | once | periodic
  deriving DecidableEq, Repr

/-- One PPSOUT in TIMED mode; instants count 25 ps steps of the time counter. -/
structure Pulse where
  mode : PulseMode := .off
  start : Nat := 0
  /-- Period and width in ns. -/
  period : Nat := 0
  width : Nat := 0
  /-- The next instant at which the output fires. -/
  next : Nat := 0
  /-- The TIMESTAMP period in which a ONCE instant was past at acceptance or was passed by a step: it
  fires at the next tick (R346). -/
  late : Option Quad := none
  /-- The last rising edge, in root time of 25 ps steps (R345). -/
  edge : Option Nat := none
  /-- A ONCE output has risen: it disarms as its pulse ends (R345). -/
  fired : Bool := false
  /-- The output is high: ticks of the width still to elapse. -/
  high : Option Nat := none
  deriving DecidableEq, Repr

/-- An accepted OP_TIME_SET or OP_TIME_STEP before its commit (R339). -/
structure PendingSet where
  job : Nat
  /-- 0 set, 1 step, 2 advised step: data [1:0] of TIME_SET. -/
  kind : Nat
  /-- The new value, or the signed step, in 2^-32 ns. -/
  value : Int
  atPulse : Bool
  /-- The TIMESTAMP period of acceptance (R341). -/
  since : Quad := 0
  deriving DecidableEq, Repr

/-- The measurement of one usable frame (R328, R329). -/
structure Meas where
  /-- Offset and path delay in ns. -/
  offset : Rat
  delay : Rat
  /-- The far end meets the FOLLOWER condition of R331. -/
  far : Bool
  /-- The frame's place in its interval. -/
  index : Nat
  /-- No set, step or change of D_RX has followed it in its interval (R340). -/
  fresh : Bool := true
  deriving DecidableEq, Repr

/-- The counter's course from a TIMESTAMP period on: its value then and its increment a tick. -/
structure Course where
  since : Quad
  value : Nat
  inc : Int
  deriving DecidableEq, Repr

structure Tim where
  /-- The 80-bit counter with its hidden 16 bits, in units of 2^-32 ns (R322). -/
  counter : Nat := 0
  /-- The counter before the last tick's increment (R345). -/
  before : Nat := 0
  /-- The counter's last courses, newest first, at most 64: what a capture of an earlier instant reads
  (R327). -/
  courses : List Course := []
  baseLo : Word := 0
  baseHi : Byte := 4
  /-- A write of TIME_BASE_HI waits for the next tick (R323). -/
  basePending : Bool := false
  /-- BASE in force, in 2^-32 ns. -/
  base : Nat := 4 * 2 ^ 32
  /-- TIME_CONFIG, TIME_LIMITS, TIME_PLANES and TIME_ASYM (R351). -/
  config : Word := 0x18019014
  limits : Word := 0x06400064
  planes : Word := 0
  asym : Word := 0
  valid : Bool := false
  captured : Bool := false
  cap : Nat := 0
  /-- TIME_ADVICE as a signed count of 2^-32 ns. -/
  advice : Int := 0
  adviceValid : Bool := false
  refusing : Bool := false
  bwClamped : Bool := false
  measuring : Bool := false
  farTimeValid : Bool := false
  farServoLocked : Bool := false
  servo : Servo := .off
  /-- The correction c and the integral I of R334. -/
  corr : Rat := 0
  integral : Rat := 0
  /-- Consecutive accepted offsets within LOCK_LIMIT (R333). -/
  goodRun : Nat := 0
  /-- Consecutive intervals without an accepted offset. -/
  emptyRun : Nat := 0
  /-- The last consecutive refused offsets in ns, newest first, at most eight (R338). -/
  refusedRun : List Rat := []
  /-- Frames counted into the interval in progress (R332). -/
  frames : Nat := 0
  /-- The measurements of its usable frames, newest first. -/
  usable : List Meas := []
  /-- A set, a step or a change of D_RX fell in the interval. -/
  spoiled : Bool := false
  /-- TIME_OFFSET and TIME_PATH_DELAY in ps. -/
  offset : Word := 0
  pathDelay : Word := 0
  /-- FRAME_COUNT and TX_TIME of the local frames opened, newest first, at most 4,096. -/
  sent : List (Quad × Nat) := []
  /-- Accepted sets and steps before their commit, oldest first. -/
  pendingSets : List PendingSet := []
  pulse : Tab Pulse := []
  deriving DecidableEq, Repr

/-! ## References, holdover and clock clean-up (R294 to R321) -/

/-- Candidate states in the order of their codes (R297, R320). -/
inductive RefState where
  | disabled | failed | qualifying | qualified | suspect
  deriving DecidableEq, Repr

structure Cand where
  state : RefState := .disabled
  pulse : Bool := false
  nominal : Word := 0
  priority : BitVec 4 := 0
  accept : BitVec 16 := 92
  reject : BitVec 16 := 120
  qualTime : BitVec 16 := 10
  window : BitVec 16 := 10
  /-- REF_STATUS.OFFSET, signed, 0.001 ppm. -/
  offset : Int := 0
  valid : Bool := false
  activityOk : Bool := false
  freqOk : Bool := false
  /-- A frequency has been read since the candidate's type and nominal were set, and when the last reading
  was taken (R296). -/
  read : Bool := false
  readAt : Option Quad := none
  /-- LINECLK and TIMECLK: their rates in Hz at the updates of the last 100 ms, newest first (R296). -/
  rates : List Rat := []
  /-- PULSE: the root time of the last pulse in 25 ps, and the good intervals since the last activity
  fault, newest first, at most 16 (R296, R297). -/
  pulseAt : Option Nat := none
  gaps : List Nat := []
  /-- The TIMESTAMP period in which it entered its state (R297, R300). -/
  since : Quad := 0
  /-- The period of the first agreeing comparison of an unbroken run while SUSPECT (R306). -/
  agreeSince : Option Quad := none
  deriving DecidableEq, Repr

/-- DPLL states in the order of their codes (R316). -/
inductive DpllState where
  | freerun | acquire | locked | switching | holdover | nco
  deriving DecidableEq, Repr

/-- Selection modes in the order of their codes (R298). -/
inductive SelMode where
  | auto | manual | nco | forcedHoldover
  deriving DecidableEq, Repr

/-- The settings of a clock or pulse output (R312, R313). -/
structure OutSet where
  enable : Bool := false
  frame : Bool := false
  freq : Word := 0
  fdiv : Word := 0
  /-- ALIGNED pulse width in us; PPSOUT only. -/
  width : Word := 100
  deriving DecidableEq, Repr

/-- An alignment armed by a command, with the settings that take effect at its commit (R314). -/
structure Armed where
  job : Nat
  cand : Nat
  /-- In 25 ps steps. -/
  offset : Int
  set : OutSet
  /-- The period of its acceptance. -/
  since : Quad
  /-- An OP_TIME_PULSE has named the output since: it stays in TIMED mode (R313). -/
  timed : Bool := false
  deriving DecidableEq, Repr

structure ClkOut where
  set : OutSet := {}
  /-- PPSOUT only: in TIMED mode (R313). -/
  timed : Bool := false
  armed : Option Armed := none
  /-- The last alignment made: the candidate, and where an edge or a pulse then fell, in 25 ps of root
  time (R314). -/
  aligned : Option (Nat × Int) := none
  /-- Where the relock after a change of frequency, F_DIV or mode ends, until when the output is low, in
  25 ps of root time (R312). -/
  relock : Option Nat := none
  /-- The last rising edge or pulse of the DPLL's output, and the next one, in 25 ps of root time (R313,
  R314). -/
  last : Option Rat := none
  next : Option Rat := none
  deriving DecidableEq, Repr

structure Dpll where
  cand : Tab Cand := []
  mode : SelMode := .auto
  revertive : Bool := true
  manual : BitVec 5 := 0
  wtr : Word := 300
  /-- An OP_DPLL_SELECT was accepted since the last evaluation (R303). -/
  commanded : Bool := false
  pulseBw : BitVec 7 := 10
  pulseDamp : BitVec 2 := 3
  freqBw : BitVec 10 := 10
  freqDamp : BitVec 2 := 3
  timeBw : BitVec 10 := 10
  timeDamp : BitVec 2 := 3
  lineBw : BitVec 9 := 10
  lineDamp : BitVec 2 := 0
  disagreeLimit : BitVec 16 := 20
  slew : BitVec 16 := 1000
  holdTau : BitVec 16 := 600
  holdGuard : BitVec 4 := 2
  state : DpllState := .freerun
  current : Option Nat := none
  target : Option Nat := none
  /-- The output offset at DECIDE, the period in which SETTLE began, and the target's pulses since
  (R302). -/
  decideY : Int := 0
  settleAt : Quad := 0
  /-- The last evaluation (R300) and the last holdover sample (R308). -/
  evalAt : Option Quad := none
  sampledAt : Option Quad := none
  settlePulses : Nat := 0
  wtrRunning : Bool := false
  disagree : Bool := false
  fallback : Bool := false
  slewLimited : Bool := false
  /-- DPLL_FREQ, DPLL_HOLD_EST and DPLL_NCO in 0.001 ppt. -/
  y : Int := 0
  estimate : Rat := 0
  nco : Int := 0
  ncoLo : Word := 0
  ncoHi : Byte := 0
  /-- The last value written to DPLL_NCO_LO (R309). -/
  ncoWritten : Word := 0
  /-- The measured phase of the input or target against the output, the offset absorbed at COMMIT, and
  DPLL_PHASE, in ps (R304, R310). -/
  raw : Int := 0
  /-- The phase that TIMECLK has gained on the output, in ps (R295). -/
  timePhase : Rat := 0
  built : Int := 0
  phase : Int := 0
  /-- The loop's integral term in 0.001 ppt (R310). -/
  loop : Rat := 0
  /-- The period since which the phase error has stayed within the lock limit (R311). -/
  lockFrom : Quad := 0
  /-- Values taken into the estimate (R308). -/
  history : Nat := 0
  /-- y at the evaluations of the last 11 s, newest first: period, y, and whether LOCKED (R308). -/
  trail : List (Quad × Int × Bool) := []
  out : Tab ClkOut := []
  deriving DecidableEq, Repr

/-! ## Frames, maps and the framer (R36 to R70) -/

/-- What kind of level a symbol period sends (R158). -/
inductive LevelKind where
  | off
  /-- A sync or pilot period, scaled by PILOT_BOOST. -/
  | pilot
  /-- A data period of a constellation, by its code, scaled to unit mean power. -/
  | data (code : Nat)
  deriving DecidableEq, Repr

/-- The unscaled point of one symbol period on one polarisation and how it is scaled. -/
structure SymbolLevel where
  kind : LevelKind
  i : Int
  q : Int
  deriving DecidableEq, Repr

/-- An OP_MAP_SWITCH between steps 1 and 3 of R63. -/
structure MapSwitch where
  job : Nat
  target : Bool
  /-- Superframe s has opened, so frames carry MAP_NEXT = target. -/
  opened : Bool := false
  deriving DecidableEq, Repr

/-- One circuit's container as the mapper cut it (R48, R75). -/
structure Container where
  circ : Nat
  slots : Nat
  clientFail : Bool
  phase : Nat
  blocks : List (BitVec 257)
  deriving DecidableEq, Repr

/-- A frame that the assembler holds (R22, R75). -/
structure OpenFrame where
  count : Quad
  sel : Bool
  next : Bool
  txTime : Nat
  /-- The profile that the header of the map in use describes. -/
  prof : Profile
  /-- MAP_CRC and the rows of the map in use. -/
  crc : Word
  rows : List Word
  /-- TX_EPOCH of every context as the frame opened. -/
  epoch : BitVec 1024
  containers : List Container
  /-- A poisoned map word was read (R65). -/
  poison : Bool
  /-- Zeroisation discarded its content, so that it goes out as a whey frame (R131). -/
  dropped : Bool := false
  deriving DecidableEq, Repr

/-- A frame handed to T5, before its first sample. -/
structure LineFrame where
  frame : OpenFrame
  /-- The 2,048 overhead bytes, with DATA_VALID still 0. -/
  overhead : List Byte
  /-- It goes out as a whey frame whatever the output state. -/
  whey : Bool
  deriving DecidableEq, Repr

/-- The most recent far-end frame with good overhead (R330); times as the overhead holds them. -/
structure Echo where
  count : Quad
  txTime : Nat
  arrival : Nat
  /-- When it was received, in 25 ps of root time. -/
  at' : Int := 0
  deriving DecidableEq, Repr

/-- Why a block became final (R237). -/
inductive Cause where
  | fault | overflow | wheySkip | passed | maxIter | deadline
  deriving DecidableEq, Repr

/-- A block as the vat released it (R245, R247): with its final cause and the bits it carries. -/
structure RxBlock where
  seq : Quad
  frame : Nat
  index : Nat
  cause : Cause
  bits : List Bool
  deriving DecidableEq, Repr

structure Frm where
  crcA : Word := 0
  crcB : Word := 0
  /-- The map the transmitter uses: false A, true B. -/
  txMap : Bool := false
  switch : Option MapSwitch := none
  /-- FRAME_COUNT of the next frame to open (R38). -/
  nextCount : Quad := 0
  /-- The transmitter has stopped since the last frame, so it resumes on a superframe. -/
  stopped : Bool := false
  /-- The last map read by the transmit sequencer was poisoned (R65). -/
  txPoison : Bool := false
  asm : Option OpenFrame := none
  ready : Option LineFrame := none
  /-- A frame is being sent: its FRAME_COUNT, MAP_SEL, MAP_NEXT, and whether it is a whey frame. -/
  sending : Bool := false
  txCount : Quad := 0
  txSel : Bool := false
  txNext : Bool := false
  txWhey : Bool := false
  /-- The last frame deframed, as received or as predicted (R58, R68, R69). -/
  rxAny : Bool := false
  rxCount : Quad := 0
  rxSel : Bool := false
  rxNext : Bool := false
  rxValid : Bool := false
  rxEpoch : BitVec 1024 := 0
  rxFail : BitVec 1024 := 0
  rxPredicted : Bool := false
  /-- MAP_SEL as last received with good overhead (R62). -/
  rxNamed : Option Bool := none
  /-- Superframe number and MAP_NEXT of the last frame with good overhead. -/
  lastGood : Option (Nat × Bool) := none
  echo : Option Echo := none
  /-- The management channel's bytes of the last frame with good overhead (R44). -/
  mgmt : List Byte := []
  /-- Blocks released and not yet deframed. -/
  rxBlocks : List RxBlock := []
  deriving DecidableEq, Repr

/-! ## Clients and circuits (R71 to R101) -/

/-- One 66-bit block of IEEE 802.3: a control block or data, and its 64 payload bits. -/
structure Block66 where
  control : Bool
  payload : BitVec 64
  deriving DecidableEq, Repr

structure Circ where
  created : Bool := false
  /-- CIRC_CONFIG (R99). -/
  config : Word := 0
  ingressFail : Bool := false
  /-- Ingress: the transcoded blocks since the last cut, oldest first (R75, R77). -/
  fifo : List (BitVec 257) := []
  /-- The map in use names it and a first cut has been made (R90). -/
  cutting : Bool := false
  /-- An overrun is discarding arriving blocks (R77). -/
  overrun : Bool := false
  /-- Dark at the transmitter; received without being created here (R89). -/
  dark : Bool := false
  unterminated : Bool := false
  recoveryLocked : Bool := false
  farFail : Bool := false
  egressFill : Bool := false
  fillPredicted : Bool := false
  /-- LAST_BLOCK_COUNT. -/
  lastCount : BitVec 16 := 0
  /-- The egress FIFO in 66-bit blocks, next to leave first. -/
  egress : List Block66 := []
  /-- A packet is open at the end of the egress stream (R85), and where the FIFO's blocks begin. -/
  openPacket : Bool := false
  openFront : Bool := false
  /-- Client fill has ended and no idle, ordered set or start has come yet (R85). -/
  hunting : Bool := false
  /-- The last frame delivered error fill. -/
  errorFill : Bool := false
  /-- BLOCK_COUNT of the circuit's previous frame (R84). -/
  prevCount : Nat := 0
  /-- PHASE of the last data frame, and the recovery loop's inputs from it: the block advance
  in 1/256 blocks and the residual fill error in 66-bit blocks (R79). -/
  lastPhase : BitVec 8 := 0
  advance : Int := 0
  fillError : Int := 0
  /-- The recovery loop: its integral and the steering about the nominal lane rate, as ratios, and
  the period since which the fill has stayed within Q ± 2. -/
  integral : Rat := 0
  steer : Rat := 0
  inBand : Option Quad := none
  /-- When the last lane of its group regained every lock (R278). -/
  lockAt : Quad := 0
  /-- The descrambler and the scrambler of the client's PCS (R73). -/
  descrambler : BitVec 58 := 0
  scrambler : BitVec 58 := 0
  /-- The 66-bit blocks that left for the host last, those not yet coded into a 257-bit block, the 257-bit
  blocks not yet in a codeword, and the place of the next one in the marker period (R73). -/
  out : List Block66 := []
  uncoded : List Block66 := []
  unsent : List (BitVec 257) := []
  txPlace : Nat := 0
  /-- Symbols received of the codewords in progress, the place of the next 257-bit block in the marker
  period, and the decoded blocks that have still to enter, each with its error marking (R73). -/
  rxSymbols : List (BitVec 10) := []
  rxPlace : Nat := 0
  decoded : List (BitVec 257 × Bool) := []
  /-- The symbols sent that lanes in loopback HOST_NEAR have still to receive (R285). -/
  near : List (BitVec 10) := []
  /-- The last PTP event message passed on, on ingress and on egress (R92 to R95). -/
  ptpIn : List Byte := []
  ptpOut : List Byte := []
  deriving DecidableEq, Repr

/-! ## Host lanes (R267 to R293) -/

/-- A PRBS checker (R286): its register, the error-free run while it aligns, bits and errors of the
window in progress while it is locked, and the bits not yet checked. -/
structure Checker where
  reg : Nat := 0
  run : Nat := 0
  bits : Nat := 0
  errors : Nat := 0
  queue : List Bool := []
  deriving DecidableEq, Repr

structure Lane where
  /-- Bring-up state, 0 to 4 for L0 to L4 (R275). -/
  state : Nat := 0
  /-- The circuit that holds the lane, and its rate (R267, R272). -/
  circuit : Option Nat := none
  /-- OP_HLANE_TEST keeps it enabled, at this rate. -/
  tested : Bool := false
  rate : Bool := false
  txOn : Bool := false
  signal : Bool := false
  cdr : Bool := false
  snrOk : Bool := false
  amLock : Bool := false
  aligned : Bool := false
  txPrecode : Bool := false
  rxPrecode : Bool := false
  txInvert : Bool := false
  rxInvert : Bool := false
  ctlePreset : BitVec 6 := 18
  cPre : Int := -4
  cPost : Int := -8
  tdMin : BitVec 5 := 8
  loMin : BitVec 5 := 2
  freezeLimit : BitVec 10 := 10
  snrMin : BitVec 16 := 1600
  startIndex : BitVec 4 := 0
  /-- Index 0 starts at the last applied peaking, not at CTLE_PRESET (R276). -/
  resume : Bool := false
  startPeak : BitVec 6 := 0
  peak : BitVec 6 := 0
  snr : BitVec 16 := 0
  cdrOffset : BitVec 16 := 0
  deskew : BitVec 16 := 0
  lastCause : BitVec 4 := 0
  densityLow : Bool := false
  levelLow : Bool := false
  frozen : Bool := false
  /-- Period at which it froze, and consecutive windows passed since (R279, R281). -/
  frozenAt : Quad := 0
  passed : Nat := 0
  freezeLong : Bool := false
  /-- DESKEW_FAIL has been raised for this entry into L4 (R284). -/
  deskewRaised : Bool := false
  loopback : BitVec 3 := 0
  pattern : BitVec 3 := 0
  checker : BitVec 3 := 0
  checkerLocked : Bool := false
  check : Checker := {}
  /-- The PCS lane it carries, as its markers name it (R283). -/
  pcs : Nat := 0
  /-- Period of the last entry into L4. -/
  upAt : Quad := 0
  /-- Period of the entry into the bring-up state, the frozen periods of L3, and the last unfreezing
  (R275, R280). -/
  since : Quad := 0
  idle : Nat := 0
  thawedAt : Quad := 0
  /-- The precoders' last values p(n - 1) in each direction (R269). -/
  txLast : Nat := 0
  rxLast : Nat := 0
  /-- The pattern generator's position (R285). -/
  gen : Nat := 0
  /-- PCS bits of the circuit waiting to be sent on this lane (R274). -/
  content : List Bool := []
  /-- The symbols of the last window at HTX, the last two of the window before, and the recovered
  bits of the last window at HRX. -/
  htx : List Nat := []
  htxTail : List Nat := []
  /-- C_PRE and C_POST as they were applied at the start of the last window and at its end, and the symbols
  of it before the change (R282). -/
  ffeWas : Int × Int := (-4, -8)
  ffe : Int × Int := (-4, -8)
  ffeCut : Nat := 0
  bits : List Bool := []
  /-- OP_HLANE_RESTART commands that wait for the lane's start (R288). -/
  waiting : List Nat := []
  deriving DecidableEq, Repr

/-! ## Transmit DSP and the optics port (R156 to R186) -/

inductive OutState where
  | quiet | rampUp | on | rampDown
  deriving DecidableEq, Repr

/-- Pre-compensation of one lane (R161): 0.1 ps, 0.05 dB and 0.1 ps units. -/
structure TxLane where
  skew : Int := 0
  invert : Bool := false
  amp : List Int := []
  delay : List Int := []
  deriving DecidableEq, Repr

/-- A filter set (R159 to R165). -/
structure TxFilter where
  /-- Roll-off in hundredths, PILOT_BOOST in 0.5 dB, RMS_TARGET in 0.25 LSB. -/
  beta : Nat := 5
  boost : Nat := 2
  rms : Nat := 128
  clipLimit : BitVec 16 := 0
  /-- M(0) to M(128) in 0.1 dB; empty for the flat mask. -/
  mask : List Int := []
  /-- IQ gain in 0.01 dB and phase in 0.01 degrees, X then Y. -/
  gainX : Int := 0
  phaseX : Int := 0
  gainY : Int := 0
  phaseY : Int := 0
  xi : TxLane := {}
  xq : TxLane := {}
  yi : TxLane := {}
  yq : TxLane := {}
  deriving DecidableEq, Repr

/-- The frame being sent as the transmit DSP holds it: its levels, the filter set and rate in
force, and the output as its first sample left. -/
structure TxFrame where
  levels : List (SymbolLevel × SymbolLevel) := []
  filter : TxFilter := {}
  rate : Nat := 1080
  out : OutState := .quiet
  phi : Rat := 0
  /-- T in us and the profile of the ramp that runs (R169). -/
  time : Word := 10000
  cosine : Bool := true
  since : Quad := 0
  /-- The period in which a loss of lock cut the gain to 0 (R168). -/
  cut : Option Quad := none
  deriving DecidableEq, Repr

/-- Which hook list runs. -/
inductive HookKind where
  | up | quiet
  deriving DecidableEq, Repr

/-- A transaction of the optics port (R176, R179): a hook write, or one of a command. -/
structure OptTrans where
  /-- The command, absent for a hook. -/
  job : Option Nat
  read : Bool
  addr : BitVec 16
  data : BitVec 16
  /-- Its place in the command. -/
  index : Nat
  /-- It is the last of its command or list. -/
  last : Bool
  deriving DecidableEq, Repr

/-- The transaction the port is carrying out. -/
structure OptWire where
  trans : OptTrans
  retries : Nat := 0
  /-- A frame is on the wire; otherwise the 10 us before a retry run. -/
  onWire : Bool := true
  /-- The 10 us have run while the port accepts no transaction (R181). -/
  due : Bool := false
  /-- The period in which the frame failed. -/
  failedAt : Quad := 0
  deriving DecidableEq, Repr

structure Tx where
  /-- The period of the last 1 ms window's end (R166). -/
  clipAt : Quad := 0
  out : OutState := .quiet
  request : Bool := false
  sampled : Bool := false
  /-- The ramp position when the state was entered, and the period of the entry (R169). -/
  phi : Rat := 0
  phiAt : Quad := 0
  upCosine : Bool := true
  downCosine : Bool := true
  /-- T_UP and T_DOWN in us. -/
  tUp : Word := 10000
  tDown : Word := 10000
  alertAction : Bool := false
  optRetries : BitVec 3 := 2
  /-- OPT_ALERT_N is low. -/
  alert : Bool := false
  synthLocked : Bool := false
  upHooks : List Word := []
  quietHooks : List Word := []
  /-- The hooks executing now. -/
  hooks : Option HookKind := none
  /-- UP hooks have completed and the ramp starts at the next frame start (R170). -/
  upReady : Bool := false
  filter : TxFilter := {}
  /-- A filter update that awaits its frame start: its job and set (R164). -/
  update : Option (Nat × TxFilter) := none
  wire : Option OptWire := none
  /-- Transactions waiting for the port: hooks, and commands' in order. -/
  hookQueue : List OptTrans := []
  hostQueue : List OptTrans := []
  /-- Data of the reads done by the running OP_OPT_READ. -/
  readResult : List Word := []
  lastStatus : BitVec 8 := 0
  lastFailed : Bool := false
  /-- OPT_RESET_N is low, or the 1 ms of R181 runs. -/
  resetActive : Bool := true
  /-- The OP_OPT_RESETs whose 1 ms has not elapsed, in order. -/
  optResetJobs : List (Nat × Quad) := []
  /-- The levels of the frame before, and the frame being sent (R156 to R169). -/
  before : List (SymbolLevel × SymbolLevel) := []
  now : TxFrame := {}
  /-- What the lanes' lands were driven with in the last frame whose samples are complete (R157,
  R166, R169). -/
  drive : List FourCodes := []
  /-- That frame's clipped samples by index that no 1 ms window has yet counted, and the count of
  the window in progress before that frame (R166). -/
  clips : List (Nat × Nat) := []
  clipSum : FourCounts := { xi := 0, xq := 0, yi := 0, yq := 0 }
  deriving DecidableEq, Repr

/-! ## Receive DSP (R187 to R230, R553, R554) -/

/-- Settings of one receive lane (R189): 0.1 ps. -/
structure RxLane where
  skew : Int := 0
  invert : Bool := false
  deriving DecidableEq, Repr

/-- A complex number. -/
structure Cx where
  re : Rat := 0
  im : Rat := 0
  deriving DecidableEq, Repr

/-- The power of the received samples over the last 101 us (R216, R219, R222). -/
structure PowerMeter where
  /-- The squared codes of all four lanes of each sample, newest first. -/
  squares : List Nat := []
  /-- Consecutive samples whose last 1 us reaches LOS_RMS. -/
  strong : Nat := 0
  /-- Consecutive samples out of range, the side, and P_ref as frozen while a step is confirmed. -/
  run : Nat := 0
  up : Bool := false
  held : Option Rat := none
  /-- A confirmed step that no command has taken yet. -/
  step : Bool := false
  deriving DecidableEq, Repr

/-- The receive datapath from the ADC codes to the LLRs (R187 to R215). -/
structure RxPath where
  /-- The ADC codes kept, oldest first, and the sample count of the first. -/
  adc : List FourCodes := []
  base : Nat := 0
  /-- Sample periods of the recovering interval that each lane still has to run (R191). -/
  recover : FourCounts := { xi := 0, xq := 0, yi := 0, yq := 0 }
  /-- The flagged words of 256 samples, by number (R192). -/
  flagged : List Nat := []
  /-- Clipped samples that no 1 ms window has yet counted: lane and sample count (R194). -/
  clips : List (Nat × Nat) := []
  /-- Squared codes of each axis and samples since the last frame start. -/
  energyX : Nat := 0
  energyY : Nat := 0
  samples : Nat := 0
  meter : PowerMeter := {}
  /-- The frame in progress: its next symbol period (1,048,576 when it has ended), the sample position
  of period 0, and the coded bits its data periods have used. -/
  period : Nat := 1048576
  start : Rat := 0
  used : Nat := 0
  /-- The interpolator's phase in samples, and the loop's frequency in samples per symbol (R204). -/
  phase : Rat := 0
  freq : Rat := 0
  /-- Steering of the ADC sampling synthesiser, as a ratio in steps of 0.01 ppb, and what the loop has
  worked out beyond the last whole step, as the interpolator's frequency (R204). -/
  steer : Rat := 0
  steerRest : Rat := 0
  /-- Consecutive symbols with the phase within 0.25 of a sample, and whether it has left 0.45 or the
  steering has reached its range since the lock (R205). -/
  quiet : Nat := 0
  stray : Bool := false
  /-- Consecutive pilots with a phase error above π/8, and whether eight have come in a row or f_c has
  left ±3.5 GHz since the start (R208). -/
  badPilots : Nat := 0
  wild : Bool := false
  /-- Carrier phase in turns, and frequency in turns per symbol (R207). -/
  theta : Rat := 0
  omega : Rat := 0
  /-- The separator's taps (R199), and the scale of its input. -/
  xx : List Cx := []
  xy : List Cx := []
  yx : List Cx := []
  yy : List Cx := []
  gain : Rat := 1
  /-- What the whey detector decided for the frame: data or whey (R202). -/
  decided : Option Bool := none
  /-- The output's power on the detector's data periods. -/
  wheySum : Rat := 0
  /-- Errors of the frame's untainted pilots on each polarisation, and their number (R213). -/
  noiseX : Rat := 0
  noiseY : Rat := 0
  pilots : Nat := 0
  /-- Correlations of outputs X and Y with the sync sequence's X and Y (R200): XX, XY, YX, YY. -/
  corr : List Cx := []
  /-- Tainted symbol periods and tainted data symbols of the frame, and phase slips (R193, R208). -/
  taintedPeriods : Nat := 0
  taintedData : Nat := 0
  slips : Nat := 0
  /-- The pilot amplitude ratio as estimated, in 0.01 dB (R213). -/
  ratio : Int := 0
  /-- The frame began in A5 or A6, so that its blocks are decoded; LLRs of whole blocks not yet handed
  to the dispatcher. -/
  collect : Bool := false
  llrs : List Int := []
  /-- The sample position of the last data symbol of each of those blocks (R235). -/
  ends : List Rat := []
  /-- The marks of frames not yet deframed, by frame: sample count and 1/256 of a sample (R215). -/
  marks : List (Nat × Nat × BitVec 8) := []
  deriving DecidableEq, Repr

/-- The settings that the commands of R226 write. -/
structure RxCfg where
  autoIq : Bool := true
  autoSkew : Bool := true
  taint : BitVec 2 := 1
  clipLimit : BitVec 8 := 0
  gainX : Int := 0
  phaseX : Int := 0
  gainY : Int := 0
  phaseY : Int := 0
  xi : RxLane := {}
  xq : RxLane := {}
  yi : RxLane := {}
  yq : RxLane := {}
  /-- CD_MODE FIXED. -/
  cdFixedMode : Bool := false
  cdTrack : Bool := false
  /-- N = 4,096 × 2^code. -/
  nCode : Nat := 4
  /-- Search range in ps/nm; absent for the widest that R196 allows. -/
  cdRange : Option (Int × Int) := none
  cdFixed : Int := 0
  /-- Carrier wavelength in 0.01 nm. -/
  lambda : Nat := 155000
  tCode : BitVec 2 := 3
  muK : BitVec 4 := 4
  muD : BitVec 4 := 6
  wheyShift : BitVec 3 := 3
  llrUnit : BitVec 5 := 8
  losRms : BitVec 8 := 16
  trBw : BitVec 2 := 2
  loEnable : Bool := false
  loGain : BitVec 3 := 2
  loInterval : BitVec 2 := 1
  deadband : BitVec 8 := 10
  loRetries : BitVec 3 := 3
  loRange : Word := 5000
  snrLow : BitVec 16 := 0
  snrHyst : BitVec 16 := 0
  dgdHigh : BitVec 16 := 0
  pdlHigh : BitVec 16 := 0
  cfoHigh : BitVec 16 := 0
  sopHigh : BitVec 16 := 0
  deriving DecidableEq, Repr

/-- The front end's applied values (R190). -/
structure FrontEnd where
  gainX : Int := 0
  phaseX : Int := 0
  gainY : Int := 0
  phaseY : Int := 0
  skewXi : Int := 0
  skewXq : Int := 0
  skewYi : Int := 0
  skewYq : Int := 0
  deriving DecidableEq, Repr

/-- The LO message not yet acknowledged (R211, R212). -/
structure LoMsg where
  step : Bool
  seq : BitVec 8
  /-- Step in kHz. -/
  value : Int
  retries : Nat := 0
  /-- LO_RETRIES have failed; the message waits for the next update interval. -/
  failed : Bool := false
  deriving DecidableEq, Repr

/-- What a command's mode change took the acquisition machine from: the TIMESTAMP period, the state, and
the counts that a loss of frame or the end of acquisition in that same cycle goes by (R224, R503). -/
structure HeldAcq where
  since : Quad
  acq : Nat
  syncFails : Nat := 0
  ohGood : Nat := 0
  ohBad : Nat := 0
  firstFrame : Nat := 0
  deriving DecidableEq, Repr

structure Rx where
  cfg : RxCfg := {}
  path : RxPath := {}
  /-- Accepted commands of R226 before their frame start: job, opcode, parameters. -/
  pend : List (Nat × BitVec 16 × List Word) := []
  fe : FrontEnd := {}
  /-- The AUTO front end's estimates, each held within its range, and 0 where AUTO is off: X gain, X
  phase, Y gain, Y phase and the four skews (R190). -/
  feEst : List Int := []
  /-- Acquisition state, 0 to 6 for A0 to A6 (R216). -/
  acq : Nat := 0
  /-- Frames begun in the state, and whether A3 was entered by a restart (R223). -/
  frames : Nat := 0
  restarted : Bool := false
  /-- The period of the entry into the state, of the last estimate of D in A6, of the last message on
  the LO port, and of the last 1 ms window's end (R194, R197, R211, R216). -/
  since : Quad := 0
  cdAt : Quad := 0
  loSentAt : Quad := 0
  clipAt : Quad := 0
  lastLof : BitVec 4 := 0
  adcLocked : Bool := false
  timingLocked : Bool := false
  carrierLocked : Bool := false
  los : Bool := false
  signal : Bool := false
  wheyMode : Bool := false
  clipHeavy : Bool := false
  /-- The TIMESTAMP period in which a clipped sample last came (R228). -/
  clippedAt : Option Quad := none
  snrLowNow : Bool := false
  /-- Consecutive frames with the pilot SNR of A4's exit, with failed sync, with good overhead
  in A5, and with failed overhead in A6. -/
  snrRun : Nat := 0
  syncFails : Nat := 0
  ohGood : Nat := 0
  ohBad : Nat := 0
  /-- Blocks that passed their CRC in this attempt of A5 (R218). -/
  crcPassed : Nat := 0
  /-- The first frame whose blocks belong to the present attempt at A5 and A6. -/
  firstFrame : Nat := 0
  /-- The whey detector's decisions of frames not yet deframed, by frame: data or whey. -/
  decisions : List (Nat × Bool) := []
  /-- Applied dispersion in ps/nm, the value for the next frame start and whether it is a tracking
  step, and the estimate. -/
  cdApplied : Rat := 0
  cdNext : Option (Rat × Bool) := none
  /-- Poisoned coefficients of the set in use: the equaliser takes zero for them (R449). -/
  cdDead : List Nat := []
  cdEst : Int := 0
  /-- Frames of the 64-frame measurement window (R225). -/
  window : Nat := 0
  /-- What the machine was when a command's mode change last held it (R224). -/
  held : Option HeldAcq := none
  /-- The line code of the map header that the receive sequencer last read, absent while it is the line
  profile's (R151). -/
  header : Option Profile := none
  /-- Registers of R227, as last measured. -/
  power : Word := 0
  snr : Word := 0
  dgdPdl : Word := 0
  cfo : Int := 0
  sopPb : Word := 0
  timing : Word := 0
  loSum : Int := 0
  loSeq : BitVec 8 := 0
  loMsg : Option LoMsg := none
  /-- f_c of the update interval's frames in kHz, newest first (R209). -/
  loFrames : List Int := []
  /-- The last message on the LO port, its first bit most significant (R211). -/
  loWire : BitVec 48 := 0
  deriving DecidableEq, Repr

/-! ## Decoder fabric, settling vat and management fabric (R231 to R266) -/

/-- What OP_DEC_CONFIG writes (R263); times and counts as the register holds them, with ITER_MIN
and ITER_MAX as counts. -/
structure DecCfg where
  stealGain : BitVec 16 := 256
  stealEnable : Bool := true
  /-- RELEASE_MODE: fixed latency. -/
  fixed : Bool := false
  budgetAuto : Bool := true
  iterWhey : Nat := 0
  iterMin : Nat := 2
  iterMax : Nat := 16
  /-- The programmed BUDGET in 1/16 iteration. -/
  budget : Nat := 72
  /-- DEADLINE in 10 ns. -/
  deadline : Nat := 900
  bank : Nat := 256
  deriving DecidableEq, Repr

/-- Where a block stands in the churns (R233). -/
inductive Place where
  /-- In no churn. -/
  | none
  | waiting (c : Nat)
  | running (c : Nat)
  /-- From churn v to churn c over the steal ring; the transfer may still wait for its hops. -/
  | transit (v c : Nat) (moving : Bool)
  /-- Final; its vat write has not ended. -/
  | final (c : Nat)
  deriving DecidableEq, Repr

/-- A block from its arrival to its release. Times count ADC samples (R28, R235). -/
structure DecBlock where
  seq : Quad
  /-- The received frame it belongs to, and its index there. -/
  frame : Nat
  index : Nat
  arrival : Nat
  deadline : Nat
  limit : Nat
  done : Nat := 0
  place : Place := .none
  /-- Refused under R238 since it last ran. -/
  refused : Bool := false
  /-- Stolen since its last iteration (R242). -/
  stolen : Bool := false
  cause : Option Cause := none
  /-- Its vat entry has been written. -/
  written : Bool := false
  /-- When its present iteration, or its present transfer, started. -/
  startAt : Nat := 0
  /-- Its slot in the churn that holds it, and the one reserved in a thief. -/
  slot : Nat := 0
  toSlot : Nat := 0
  /-- The churn that took it in last. -/
  churn : Option Nat := none
  /-- The hard decisions of the last outer pass, or of the channel LLRs where none has run. -/
  hard : List Bool := []
  /-- State metrics at the starts and ends of the window lanes, inner and outer trellis, as the last
  iteration left them (R231). -/
  inner : List (List Int × List Int) := []
  outer : List (List Int × List Int) := []
  deriving DecidableEq, Repr

structure Churn where
  started : Bool := false
  offCmd : Bool := false
  offFault : Bool := false
  dumping : Bool := false
  /-- The dump in progress followed another within 1 s (R254). -/
  again : Bool := false
  lastDump : Option Quad := none
  /-- The OP_DEC_CHURN commands that are taking it out, and returning it. -/
  draining : List Nat := []
  returning : List Nat := []
  deriving DecidableEq, Repr

structure Dec where
  cfg : DecCfg := {}
  /-- Accepted OP_DEC_CONFIG commands before their commit. -/
  cfgPend : List (Nat × DecCfg) := []
  account : Int := 0
  /-- The applied BUDGET in 1/16 iteration, and the applied deadline in 10 ns. -/
  applied : Nat := 0
  appliedDeadline : Nat := 900
  clamped : Bool := false
  allStarted : Bool := false
  lastC : Nat := 31
  nextSeq : Quad := 0
  /-- The frame whose blocks arrive now, and the index of its next block. -/
  frame : Nat := 0
  index : Nat := 0
  /-- The latest ADC sample count the fabric has been given. -/
  now : Nat := 0
  /-- Arrived and not released, in sequence order. -/
  blocks : List DecBlock := []
  churn : Tab Churn := []
  /-- The shares and credits of the nine masters, and a command's shares before its commit. -/
  shares : List Nat := [128, 16, 64, 64, 64, 64, 192, 64, 32]
  credits : List Nat := [128, 16, 64, 64, 64, 64, 192, 64, 32]
  /-- Requests that wait at the top node of the management fabric, those that wait at a leaf, and the beats
  granted in the last window: cycle and request (R243). -/
  requests : List FabricReq := []
  /-- Requests that leaf P, leaf Q and the cores' leaf have still to forward. -/
  atP : List FabricReq := []
  atQ : List FabricReq := []
  atCores : List FabricReq := []
  granted : List (Nat × FabricReq) := []
  sharesPend : List (Nat × List Nat) := []
  /-- The last credit window's end (R243). -/
  windowAt : Quad := 0
  deriving DecidableEq, Repr

/-! ## Telemetry converter and skim tap (R353 to R380) -/

/-- An entry of a sequence (R357, R374). -/
structure MonEntry where
  input : BitVec 6
  gain : BitVec 2
  sCode : BitVec 3
  decimate : Bool
  low : BitVec 12
  high : BitVec 12
  deriving DecidableEq, Repr

/-- An entry's sum in the decimation window (R363). -/
structure MonSum where
  sum : Nat := 0
  overRange : Bool := false
  disturbed : Bool := false
  deriving DecidableEq, Repr

structure Mon where
  seq : List MonEntry := []
  log2 : Nat := 0
  /-- An accepted OP_MON_SEQUENCE before its commit: job, entries, DEC_LOG2. -/
  pend : Option (Nat × List MonEntry × Nat) := none
  running : Bool := false
  passPending : Bool := false
  /-- The entry converting now. -/
  active : Nat := 0
  /-- Tag of the last completed pass. -/
  tag : BitVec 4 := 0
  result : Tab Word := []
  dec : Tab Word := []
  sums : Tab MonSum := []
  /-- Passes accumulated in the window. -/
  fill : Nat := 0
  /-- The last conversion was over-range; the period at which it ended, or at which the conversion in
  progress began. -/
  overRange : Bool := false
  lastEnd : Quad := 0
  /-- Word 0 of the last OP_MON_TESTDAC, and the period of its commit (R362). -/
  testDac : Word := 0
  dacSet : Quad := 0
  deriving DecidableEq, Repr

/-- Capture states in the order of their codes (R370). -/
inductive Capture where
  | idle | armed | triggered | frozen
  deriving DecidableEq, Repr

/-- One lane's decimators: integrators, comb delays, and the last CIC outputs, newest first. -/
structure Decimator where
  ints : List (BitVec 68) := [0, 0, 0, 0, 0]
  combs : List (BitVec 68) := [0, 0, 0, 0, 0]
  history : List Int := []
  deriving DecidableEq, Repr

structure Skim where
  /-- SKIM_CONFIG (R378). -/
  corrected : Bool := false
  c : Nat := 5
  fir : Nat := 0
  shift : Nat := 0
  capture : Capture := .idle
  wrapped : Bool := false
  aborted : Bool := false
  cause : BitVec 6 := 0
  mask : BitVec 6 := 0
  post : Nat := 0
  /-- Samples still to be written after the trigger. -/
  left : Nat := 0
  index : Nat := 0
  trigIndex : Nat := 0
  trigTime : Nat := 0
  syncIndex : Nat := 0
  syncTime : Nat := 0
  syncSample : Quad := 0
  /-- The causes of the pending decimator reset, oldest first: the OP_SKIM_SYNC, absent for another
  cause, and the period in which it was recognised (R372). -/
  syncs : List (Option Nat × Quad) := []
  lanes : Tab Decimator := []
  /-- The last 128 ADC codes before the next output interval, oldest first: what V1's corrections of
  the tap CORRECTED still need (R189, R365). -/
  tail : List FourCodes := []
  deriving DecidableEq, Repr

/-! ## Circuit encryption and the key store (R102 to R140) -/

inductive SlotState where
  | empty | loaded | old | retained
  deriving DecidableEq, Repr

/-- The automatic erasure of an OLD slot (R116). -/
structure OldSlot where
  slot : Bool
  /-- The switch frame's epoch bit has been received with good overhead. -/
  seen : Bool := false
  /-- FRAME_COUNT of the first frame after the switch. -/
  first : Quad := 0
  /-- Superframes that have begun on the line since the later of the two events. -/
  opened : Nat := 0
  deriving DecidableEq, Repr

structure Ctx where
  slot0 : SlotState := .empty
  slot1 : SlotState := .empty
  txEpoch : Bool := false
  rxEpoch : Bool := false
  retain : Bool := false
  fault : Bool := false
  lag : Bool := false
  /-- Superframes opened while the epochs have differed; the frame in which they begin to differ
  counts where it opens one (R117). -/
  lagOpens : Nat := 0
  /-- RUN, and TAG_FAIL_RUN raised since the last pass (R129). -/
  run : BitVec 16 := 0
  runRaised : Bool := false
  erase : Option OldSlot := none
  /-- RX_EPOCH stands as a frame with good overhead set it (R116). -/
  heard : Bool := false
  /-- Onsets of R111 and R112. -/
  txNoKey : Bool := false
  rxNoKey : Bool := false
  deriving DecidableEq, Repr

/-- A pending OP_EPOCH_SWITCH (R113). -/
structure EpochSwitch where
  job : Nat
  instant : Option Nat
  retain : Bool
  circuits : BitVec 1024
  deriving DecidableEq, Repr

/-- An enrolment challenge (R122): private scalar, point and nonce. -/
structure Challenge where
  scalar : List Byte
  pub : List Byte
  nonce : List Byte
  /-- TIMESTAMP period of its issue. -/
  issued : Quad
  deriving DecidableEq, Repr

structure Cry where
  /-- OAK and KTK. -/
  officer : Option (List Byte × List Byte) := none
  seq : Quad := 0
  challenge : Option Challenge := none
  linkRole : Bool := false
  tagLimit : BitVec 16 := 8
  katFailed : Bool := false
  zPin : Bool := false
  zTamper : Bool := false
  zCommand : Bool := false
  zReadback : Bool := false
  /-- ZEROISE_N and TAMPER_N are asserted. -/
  zeroisePin : Bool := false
  tamperPin : Bool := false
  /-- Between step 1 and step 4 of R131. -/
  zeroising : Bool := false
  switches : List EpochSwitch := []
  ctx : Tab Ctx := []
  deriving DecidableEq, Repr

/-! ## The whole block -/

structure State where
  /-- The commands that are waiting, first in, first out. -/
  pending : List Instr := []
  evt : Evt := {}
  pwr : Pwr := {}
  cmd : Cmd := {}
  mem : Mem := {}
  pmu : Pmu := {}
  bus : Bus := {}
  tim : Tim := {}
  dpll : Dpll := {}
  prof : Profile := {}
  frm : Frm := {}
  circ : Tab Circ := []
  lane : Tab Lane := []
  tx : Tx := {}
  rx : Rx := {}
  dec : Dec := {}
  mon : Mon := {}
  skim : Skim := {}
  cry : Cry := {}
  /-- The events of the programmable counters that the next tick counts (R471, R472). -/
  noted : List PmcEvent := []
  /-- Bytes of the bandwidth window in progress, by port (R479). -/
  carried : Tab Nat := []
  /-- The model's own counter: how many free values have been drawn. -/
  free : Nat := 0
  deriving DecidableEq, Repr

/-- Why a run could stop with a fault. No command of the model raises one: every row of the
table has an effect the spec gives, and one whose precondition is absent changes nothing. -/
inductive Fault where
  /-- Never raised: the spec names no event that stops the block. Safe. -/
  | none
  deriving DecidableEq, Repr

/-- Why a command could be refused. -/
inductive Refusal where
  /-- A command without a meaning yet, by its mnemonic; raised by `exec` alone. Safe. -/
  | notModelled (mnemonic : String)
  deriving DecidableEq, Repr

/-- The pattern of the 2.4T preset: 31 entries of code 3 spread over 64, the others code 4
(R7, R66). -/
def resetPattern : List Nat :=
  [4, 4, 3, 4, 3, 4, 3, 4, 3, 4, 3, 4, 3, 4, 3, 4] ++
  [3, 4, 3, 4, 3, 4, 3, 4, 3, 4, 3, 4, 3, 4, 3, 4] ++
  [4, 3, 4, 3, 4, 3, 4, 3, 4, 3, 4, 3, 4, 3, 4, 3] ++
  [4, 3, 4, 3, 4, 3, 4, 3, 4, 3, 4, 3, 4, 3, 4, 3]

/-- The default lap limits of the twelve groups (R456). -/
def resetLaps : Tab MemGrp :=
  [(2, { lapLimit := 2500 }), (3, { lapLimit := 2500 }), (4, { lapLimit := 2500 }),
   (5, { lapLimit := 2500 }), (7, { lapLimit := 1000 }), (8, { lapLimit := 1000 }),
   (9, { lapLimit := 5000 }), (10, { lapLimit := 5000 })]

/-- The block right after power-on: RESET, every register at its reset value (R491, R493,
R507). -/
def State.reset : State where
  evt := { grp := [(1, { logmask := 0 })] }
  pwr := { causePowerOn := true }
  mem := { grp := resetLaps }
  prof := { patX := resetPattern, patY := resetPattern }

end Sys2Proof.Machine
end

