-- ==== Sys2Proof/Config.lean ====
section
/-!
DEFINITION. What an implementation fixes and the spec leaves open: opaque constants without a
value, so that every claim holds whatever they are (notes/assumptions names each).
-/

namespace Sys2Proof.Config

/-- Silicon revision (R407, R509). -/
opaque siliconRevision : BitVec 8
/-- The minimum security version fused at manufacture, 0 to 32 (R498). -/
opaque fusedSecurity : BitVec 6
/-- The VDD_CORE target in mV that the fused per-part data give for the hottest die sensor, in 0.1 °C
(R489). -/
opaque avsTarget : Int → Int
/-- The two fused digests of image-signing keys (R498). -/
opaque keyDigest : Bool → List Byte
/-- The n-th value that the spec leaves open, of any width up to 512 bits. -/
opaque freeValue : Nat → BitVec 512
/-- What a check finds in a word with an error pattern of three or more bits (R444): group,
address, pattern. 0 passes unseen, 1 corrected to a wrong value, otherwise uncorrectable. -/
opaque multiBitOutcome : Nat → Nat → BitVec 137 → Nat
/-- The check bits that a data bit of a word enters (R444): group, address, bit. -/
opaque checkColumn : Nat → Nat → Nat → BitVec 9
/-- The syndrome of an error pattern of three or more bits (R444): group, address, pattern. -/
opaque openSyndrome : Nat → Nat → BitVec 137 → BitVec 9
/-- A word of a dispersion coefficient set, by the dispersion it serves and its place in the set (R198,
R443); the spec gives the coefficients no encoding. -/
opaque coefficient : Rat → Nat → BitVec 64
/-- What D_RX holds in ps beside V1 to V4 and the applied deadline, from the symbol rate in
0.25 GBd, the rate code and the patterns: the time from period 0 to the block whose release opens
the frame at the deframer, and the deframer's own (R26, R327). -/
opaque frameStart : Nat → Nat → List Nat → List Nat → Nat
/-- The hard decisions a(0) to a(B - 1) that a failed block carries when no iteration ran (R247),
from its channel LLRs. -/
opaque channelDecisions : List Int → List Bool

/-- The hard decision on a(i) of a block where its posterior soft value is 0 (R232): sequence number,
iterations done before, and i. -/
opaque tieBit : BitVec 64 → Nat → Nat → Bool

/-- Whether the receiver's own detection takes a correlation with the sync sequence for sync (R554), by
the power of both polarisations' correlations. -/
opaque syncDetected : Rat → Bool

/-- How far the realised transmit response of a lane lies from the programmed one, by filter set,
symbol rate in 0.25 GBd, lane and frequency in Fs / 2,048: magnitude in dB and group delay in ps
inside the band, where R162 bounds both, and the magnitude beyond it. -/
opaque txRipple : Machine.TxFilter → Nat → Nat → Int → Rat
opaque txDelay : Machine.TxFilter → Nat → Nat → Int → Rat
opaque txStop : Machine.TxFilter → Nat → Nat → Int → Rat

/-- The 257-bit blocks of the alignment markers of IEEE 802.3 (R73), whose bits the spec does not give:
client type, lane rate and place in the group. -/
opaque marker : Nat → Bool → Nat → BitVec 257
/-- The level indices of the SSPRQ sequence of IEEE 802.3 (R285), which the spec does not give. -/
opaque ssprq : Nat → Nat

/-- The gain of a skim FIR response of R367 at the k-th of the frequencies that its taps determine, inside
what the table allows there; the taps are in ROM and not published. -/
opaque skimGain : Nat → Nat → Rat
/-- The initial contents of a core's data space, by core and word address (R403, R500). -/
opaque coreData : Nat → Nat → BitVec 64
/-- Whether a value that the spec fits to a register's or counter's unit without a rounding rule
goes up rather than down. -/
opaque roundsUp : Rat → Bool

end Sys2Proof.Config
end

