-- ==== Sys2Proof/Machine/Ops.lean ====
section
/-!
DEFINITION. The named operations over the state: tables, bit fields, group updates, counters
(R465, R466), interrupt sources and delivery (R413 to R416), event-log queues (R429 to R431),
the time counter's value (R322) and the mode of the device (R9).
-/

namespace Sys2Proof.Machine

/-! ### Tables -/

/-- The entry of key `k`, or the default. -/
def tabGet {α : Type} (d : α) : Tab α → Nat → α
  | [], _ => d
  | (k', v) :: l, k => if k' = k then v else if k < k' then d else tabGet d l k

/-- Set key `k` to `v`, keeping keys rising and dropping an entry equal to the default. -/
def tabSet {α : Type} [DecidableEq α] (d : α) : Tab α → Nat → α → Tab α
  | [], k, v => if v = d then [] else [(k, v)]
  | (k', v') :: l, k, v =>
    if k' = k then (if v = d then l else (k, v) :: l)
    else if k < k' then (if v = d then (k', v') :: l else (k, v) :: (k', v') :: l)
    else (k', v') :: tabSet d l k v

/-- Update key `k`. -/
def tabMod {α : Type} [DecidableEq α] (d : α) (l : Tab α) (k : Nat) (f : α → α) : Tab α :=
  tabSet d l k (f (tabGet d l k))

/-- Drop every key from `lo` up to, not including, `hi`. -/
def tabClear {α : Type} (l : Tab α) (lo hi : Nat) : Tab α :=
  l.filter fun e => e.1 < lo || hi ≤ e.1

/-- Change every entry, dropping those that become the default. -/
def tabMap {α : Type} [DecidableEq α] (d : α) (f : α → α) (l : Tab α) : Tab α :=
  l.filterMap fun e => if f e.2 = d then none else some (e.1, f e.2)

/-- The canonical form: keys strictly rising, no entry equal to the default. -/
def tabWf {α : Type} [DecidableEq α] (d : α) : Tab α → Bool
  | [] => true
  | (k, v) :: l => decide (v ≠ d) && l.all (fun e => decide (k < e.1)) && tabWf d l

/-! ### Bit fields -/

/-- The field [hi:lo] of a word (R13). -/
def fld (w : Word) (hi lo : Nat) : Nat := (w.toNat >>> lo) % 2 ^ (hi + 1 - lo)

/-- Bit `i` of a word. -/
def bit (w : Word) (i : Nat) : Bool := w.getLsbD i

/-- A flag as a number, for building register words. -/
def b2n (b : Bool) : Nat := if b then 1 else 0

/-- A signed reading of an n-bit number. -/
def signed (n v : Nat) : Int := if v < 2 ^ (n - 1) then v else (v : Int) - 2 ^ n

/-- An integer as an n-bit two's complement number. -/
def wrapInt (n : Nat) (v : Int) : Nat := (v % (2 ^ n : Int)).toNat

/-- An integer held within a range. -/
def clampInt (lo hi v : Int) : Int := if v < lo then lo else if hi < v then hi else v

/-- The absolute value of a rational. -/
def absRat (r : Rat) : Rat := if r < 0 then -r else r

/-- The nearest integer, halves upward. -/
def roundRat (r : Rat) : Int := (r + 1 / 2).floor

/-- One of the two integers around a value, which one the spec leaves open. -/
def openRound (r : Rat) : Int :=
  if r.den = 1 then r.num else if Config.roundsUp r then r.ceil else r.floor

/-- The nearest integer; the spec does not say where halves go. -/
def nearest (r : Rat) : Int := if (2 * r).den = 1 then openRound r else roundRat r

/-- A register word from a number. -/
def word (n : Nat) : Word := BitVec.ofNat 32 n

/-- A 64-bit event datum. -/
def datum (n : Nat) : Quad := BitVec.ofNat 64 n

/-! ### Group updates -/

def State.onEvt (f : Evt → Evt) (s : State) : State := { s with evt := f s.evt }
def State.onPwr (f : Pwr → Pwr) (s : State) : State := { s with pwr := f s.pwr }
def State.onCmd (f : Cmd → Cmd) (s : State) : State := { s with cmd := f s.cmd }
def State.onMem (f : Mem → Mem) (s : State) : State := { s with mem := f s.mem }
def State.onPmu (f : Pmu → Pmu) (s : State) : State := { s with pmu := f s.pmu }
def State.onBus (f : Bus → Bus) (s : State) : State := { s with bus := f s.bus }
def State.onTim (f : Tim → Tim) (s : State) : State := { s with tim := f s.tim }
def State.onDpll (f : Dpll → Dpll) (s : State) : State := { s with dpll := f s.dpll }
def State.onCry (f : Cry → Cry) (s : State) : State := { s with cry := f s.cry }
def State.onProf (f : Profile → Profile) (s : State) : State := { s with prof := f s.prof }
def State.onFrm (f : Frm → Frm) (s : State) : State := { s with frm := f s.frm }
def State.onTx (f : Tx → Tx) (s : State) : State := { s with tx := f s.tx }
def State.onRx (f : Rx → Rx) (s : State) : State := { s with rx := f s.rx }
def State.onDec (f : Dec → Dec) (s : State) : State := { s with dec := f s.dec }
def State.onMon (f : Mon → Mon) (s : State) : State := { s with mon := f s.mon }
def State.onSkim (f : Skim → Skim) (s : State) : State := { s with skim := f s.skim }

/-- Apply `f` when `b` holds. -/
def when (b : Bool) (f : State → State) (s : State) : State := if b then f s else s

/-- Draw a free value: the value, and the state with the counter advanced. -/
def drawFree (s : State) : BitVec 512 × State :=
  (Config.freeValue s.free, { s with free := s.free + 1 })

/-! ### Modes (R9, R27, R392) -/

def Mode.code : Mode → Nat
  | .reset => 0 | .boot => 1 | .standby => 2 | .ready => 3
  | .acquire => 4 | .traffic => 5 | .maintenance => 6 | .zeroised => 7

/-- The modes of clock-domain code S: STANDBY and every later mode (R27). -/
def Mode.codeS : Mode → Bool
  | .reset | .boot => false
  | _ => true

/-- Zilvy runs, the event log runs and the time counter ticks. -/
def State.codeS (s : State) : Bool := s.pwr.mode.codeS

/-- The domains of code P run (R27, R510). -/
def State.codeP (s : State) : Bool := s.pwr.pRunning

/-! ### The time counter's value (R322) -/

/-- One second in units of 2^-32 ns. -/
def second : Nat := 1000000000 * 2 ^ 32

/-- The counter wraps after 2^48 seconds. -/
def timeModulus : Nat := 2 ^ 48 * second

def timeSecs (t : Nat) : Nat := t / second % 2 ^ 48
def timeNs (t : Nat) : Nat := t / 2 ^ 32 % 1000000000
def timeFrac (t : Nat) : Nat := t / 2 ^ 16 % 2 ^ 16

/-- A time as its three little-endian words. -/
def tripleWords (t : Nat) : List Word :=
  [word (timeSecs t), word (timeSecs t / 2 ^ 32 + timeNs t * 2 ^ 16),
   word (timeNs t / 2 ^ 16 + timeFrac t * 2 ^ 16)]

/-- A signed time as its three words: seconds in two's complement (R322). -/
def signedTripleWords (t : Int) : List Word := tripleWords (t % (timeModulus : Int)).toNat

/-- The 96-bit value of three words. -/
def triple96 (w0 w1 w2 : Word) : Nat := w0.toNat + w1.toNat * 2 ^ 32 + w2.toNat * 2 ^ 64

/-- The nanoseconds field of a triple. -/
def tripleNs (v : Nat) : Nat := v / 2 ^ 48 % 2 ^ 32

/-- The time that a triple names; its nanoseconds must be below 10^9. -/
def tripleTime (v : Nat) : Nat :=
  (v % 2 ^ 48) * second + tripleNs v * 2 ^ 32 + (v / 2 ^ 80) * 2 ^ 16

/-- The signed time that a signed triple names. -/
def tripleSigned (v : Nat) : Int :=
  signed 48 (v % 2 ^ 48) * (second : Int) + ((tripleNs v * 2 ^ 32 + (v / 2 ^ 80) * 2 ^ 16 : Nat) : Int)

/-! ### Interrupt sources (R412, R413) -/

/-- What the event functions need from the rest of the block. -/
structure EvtCtx where
  /-- Not in RESET. -/
  alive : Bool
  /-- The event log runs (R429). -/
  log : Bool
  secs : Word
  ns : Word
  timeInvalid : Bool
  /-- Cores in service, one bit each. -/
  cores : BitVec 4

def coreInService (s : State) (c : Nat) : Bool :=
  s.codeS && decide (c < 4) && decide ((tabGet {} s.cmd.core c).state = .inService)

/-- Cores in service, one bit each (R410). -/
def coreMask (s : State) : BitVec 4 :=
  BitVec.ofNat 4 ((List.range 4).foldl (fun m c => m + b2n (coreInService s c) * 2 ^ c) 0)

def State.ctx (s : State) : EvtCtx where
  alive := decide (s.pwr.mode ≠ .reset)
  log := s.codeS
  secs := word (timeSecs s.tim.counter)
  ns := word (timeNs s.tim.counter)
  timeInvalid := !s.tim.valid
  cores := coreMask s

/-- The sources a chapter defines in each group; every other is reserved (R412). -/
def definedInGroup : Nat → Nat
  | 0 => 0x03FF | 1 => 0x001F | 2 => 0x00FF | 3 => 0x000F | 4 => 0x007F | 5 => 0x007F
  | 6 => 0x1FFF | 7 => 0x7FFF | 10 => 0x00FF | 15 => 0x01FF | 16 => 0x0FFF | 17 => 0x007F
  | 18 => 0x00FF | 19 => 0xFFFF | 20 => 0xFFFF | 21 => 0xFFFF | 22 => 0xFFFF | 11 => 0x0FFF | 12 => 0x03FF | 13 => 0x07FF | 14 => 0x0007 | 8 => 0x000F | 9 => 0x000F
  | 23 => 0x00FF | 24 => 0xFFFF | _ => 0

def sourceDefined (i : Nat) : Bool := (definedInGroup (i / 16)).testBit (i % 16)

/-- The level sources; the GPIO sources are so in mode 3 (R438). -/
def levelSource (gpio : Word) (i : Nat) : Bool :=
  if 384 ≤ i ∧ i < 400 then fld gpio (2 * (i - 384) + 1) (2 * (i - 384)) == 3
  else [3, 5, 6, 37, 48, 49, 83, 107, 119, 120].contains i || i == 165 || (decide (304 ≤ i) && decide (i < 368) && i % 4 == 2) || i == 177 || i == 193
    || i == 211 || i == 226

def srcAt (e : Evt) (i : Nat) : Src := tabGet {} e.src i
def grpAt (e : Evt) (n : Nat) : Grp := tabGet {} e.grp n

def setSrc (i : Nat) (f : Src → Src) (e : Evt) : Evt := { e with src := tabMod {} e.src i f }
def setGrp (n : Nat) (f : Grp → Grp) (e : Evt) : Evt := { e with grp := tabMod {} e.grp n f }

/-- Group `n` has registers (R412). -/
def groupExists (n : Nat) : Bool := decide (n < 25)

def Src.requests (r : Src) : Bool := r.p && r.e && !r.s

/-- The lowest-numbered source of group `n` that requests (R420). -/
def firstRequest (e : Evt) (n : Nat) : Option Nat :=
  ((List.range 16).map (fun i => 16 * n + i)).find? fun i => (srcAt e i).requests

/-- A waiting completion counts as a request of its ring's CQ_DONE source for the delivery of an
MSIX-routed group, and for no other (R419, R551). -/
def waitingRequest (e : Evt) : Bool :=
  (grpAt e 1).route == 0 && (List.range 4).any fun r =>
    e.waitingDone.getLsbD r && (srcAt e (16 + r)).e && !(srcAt e (16 + r)).s

def groupRequests (e : Evt) (n : Nat) : Bool :=
  (firstRequest e n).isSome || (n == 1 && waitingRequest e)

/-- Load a group's hold-off timer, as every delivery does (R415). -/
def loadTimer (n : Nat) (e : Evt) : Evt :=
  setGrp n (fun g => { g with
    timer := if g.holdoff = 0 then none else some (g.holdoff, e.period), fresh := true }) e

/-- Zilvy claims every source of the group on its core and completes each at once (R416). A level source
whose condition holds keeps its P and requests again at its completion. -/
def claimAll (n : Nat) (e : Evt) : Evt :=
  (List.range 16).foldl (fun e i =>
    let k := 16 * n + i
    if (srcAt e k).requests then
      setSrc k (fun r => { r with p := levelSource e.gpioMode k && r.p, c := 0 }) e
    else e) e

/-- A group is delivered to its target (R416, R418, R419, R551). The flag says that a PME was
sent. -/
def deliver (cores : BitVec 4) (n : Nat) (e : Evt) : Evt × Bool :=
  match (grpAt e n).route.toNat with
  | 0 =>
    if e.d3hot then
      let e := loadTimer n e
      if e.pmeEnable && !e.pmeStatus then
        ({ e with pmeStatus := true, sent := .pme :: e.sent }, true)
      else (e, false)
    else if !e.msixEnable then (e, false)
    else if !e.busMaster then (loadTimer n e, false)
    else
      let e := loadTimer n e
      if e.functionMask || e.vectorMask.getLsbD n then
        ({ e with pba := e.pba ||| (1#32 <<< n) }, false)
      else ({ e with sent := .msix n :: e.sent }, false)
  | 1 => (setGrp n (fun g => { g with asserting := true }) (loadTimer n e), false)
  | r + 2 =>
    if cores.getLsbD r then
      let e := loadTimer n e
      let e := claimAll n { e with sent := .core r n :: e.sent }
      (setGrp n (fun g => { g with fresh := false, waiting := false }) e, false)
    else (setGrp n (fun g => { g with waiting := true }) e, false)

/-- INT_N assertion, a waiting core delivery and the vector's pending bit end when the group stops
requesting (R416; for the pending bit the PCIe Base Specification, R418; PRESUMED, log 155). -/
def relax (n : Nat) (e : Evt) : Evt :=
  if groupRequests e n then e
  else
    let e := setGrp n (fun g => { g with asserting := false, waiting := false }) e
    { e with pba := e.pba &&& ~~~(1#32 <<< n) }

/-- Zilvy has claimed and completed what group n requested at its last delivery, so that whatever requests
now has started to request since (R416). A level source whose condition holds requests again at each
completion; with HOLDOFF 0 that re-request is delivered at the group's next change (DESIGN CHOICE, log
156). -/
def coreServed (cores : BitVec 4) (n : Nat) (e : Evt) : Bool :=
  match (grpAt e n).route.toNat with
  | r + 2 => cores.getLsbD r
  | _ => false

/-- Change a group's sources; if the group starts to request with its timer idle, it is
delivered (occasion 1 of R415). -/
def touch (cores : BitVec 4) (n : Nat) (f : Evt → Evt) (e : Evt) : Evt × Bool :=
  let was := groupRequests e n && !coreServed cores n e
  let e := relax n (f e)
  if !was && groupRequests e n && (grpAt e n).timer.isNone then deliver cores n e else (e, false)

/-- Count and pend one raise of an event source (R413). -/
def Src.raised (r : Src) : Src := { r with p := true, c := if r.c = 255 then 255 else r.c + 1 }

def bump (x : EvtCtx) (i : Nat) (e : Evt) : Evt × Bool :=
  touch x.cores (i / 16) (setSrc i Src.raised) e

/-! ### Counters in the event part of the state (R465, R466) -/

def cntAt (e : Evt) (off : Nat) : Quad := tabGet 0 e.cnt off
def setCnt (off : Nat) (v : Quad) (e : Evt) : Evt := { e with cnt := tabSet 0 e.cnt off v }

/-- The top of an error counter. -/
def errMax : Quad := 0xFFFFFFFFFFFF

/-- An error counter after `n` more events, sticking at its top. -/
def errAfter (v : Quad) (n : Nat) : Quad :=
  if errMax.toNat ≤ v.toNat + n then errMax else v + BitVec.ofNat 64 n

/-- A counter passes its limit in the present TIMESTAMP period (R470). -/
def Evt.pass (off : Nat) (e : Evt) : Evt :=
  { e with passed := (if e.passedAt = e.period then e.passed else []) ++ [off], passedAt := e.period }

/-- The offset of EVLOG_DROPPED_LO (R439). -/
def cntDropped : Nat := 0x30028

/-! ### Event-log queues (R429 to R432) -/

/-- A source's queue holds at most four entries (R431). -/
def queueFull (src : BitVec 12) (e : Evt) : Bool :=
  decide (4 ≤ (e.held.filter fun h => h.source = src).length)

/-- The entry a source stamps now (R430). -/
def stampEntry (x : EvtCtx) (src : Nat) (officer : Bool) (code : Nat) (data : Quad) (e : Evt) :
    LogEntry where
  stamp := e.period
  secs := x.secs
  ns := x.ns
  source := BitVec.ofNat 12 src
  officer := officer
  timeInvalid := x.timeInvalid
  code := BitVec.ofNat 16 code
  data := data
  reached := e.period

/-- Discard an entry: count it, and raise EVLOG_DROPPED at the first discard after a marker
(R432); a counter that reaches its top raises ERR_SATURATED, whose own entry is queued only
where its queue has room. -/
def discardEntry (x : EvtCtx) (e : Evt) : Evt × Bool :=
  let old := cntAt e cntDropped
  let new := errAfter old 1
  let first := e.discarded = 0
  let e := { setCnt cntDropped new e with discarded := e.discarded + 1 }
  let e := if old ≠ errMax ∧ new = errMax then e.pass cntDropped else e
  let r1 := if first then bump x 50 e else (e, false)
  if old ≠ errMax ∧ new = errMax then
    let r2 := bump x 81 r1.1
    let e := r2.1
    let e := if (grpAt e 5).logmask.getLsbD 1 && !queueFull 81 e then
        { e with held := e.held ++ [stampEntry x 81 false 0 (datum cntDropped) e] }
      else e
    (e, r1.2 || r2.2)
  else r1

/-- Queue an entry toward the merge, or discard it when its source's queue is full. -/
def enqueue (x : EvtCtx) (h : LogEntry) (e : Evt) : Evt × Bool :=
  if queueFull h.source e then discardEntry x e else ({ e with held := e.held ++ [h] }, false)

/-- The log entry of interrupt source `i`, where the log runs and R429 logs the source. -/
def logSource (x : EvtCtx) (officer : Bool) (i code : Nat) (data : Quad) (e : Evt) : Evt × Bool :=
  if x.log && i / 16 != 3 && (grpAt e (i / 16)).logmask.getLsbD (i % 16) then
    enqueue x (stampEntry x i officer code data e) e
  else (e, false)

/-- PME_SENT follows a PME (R419). -/
def afterPme (x : EvtCtx) (r : Evt × Bool) : Evt :=
  if r.2 then (logSource x false 372 0 0 (bump x 372 r.1).1).1 else r.1

/-- Compose two event actions, keeping whether a PME was sent. -/
def andThen (r : Evt × Bool) (f : Evt → Evt × Bool) : Evt × Bool :=
  let r' := f r.1
  (r'.1, r.2 || r'.2)

/-- Raise event source `i`: P, C, a log entry and perhaps a delivery (R413, R415, R429). The
flag says that an officer command caused it (R430). -/
def raiseByE (officer : Bool) (x : EvtCtx) (i : Nat) (data : Quad) (e : Evt) : Evt :=
  if x.alive then afterPme x (andThen (bump x i e) (logSource x officer i 0 data)) else e

def raiseE (x : EvtCtx) (i : Nat) (data : Quad) (e : Evt) : Evt := raiseByE false x i data e

/-- Give a level source its present condition: C counts a rising edge, and each edge logs. -/
def levelE (x : EvtCtx) (i : Nat) (b : Bool) (data : Quad) (e : Evt) : Evt :=
  if !x.alive || (srcAt e i).p = b then e
  else
    let f : Src → Src := fun r => if b then r.raised else { r with p := false }
    afterPme x (andThen (touch x.cores (i / 16) (setSrc i f) e)
      (logSource x false i (if b then 1 else 2) data))

/-- Add to a statistics counter, raising STAT_WRAP when it wraps (R465, R466). -/
def statE (x : EvtCtx) (off n : Nat) (e : Evt) : Evt :=
  let v := cntAt e off
  let e := setCnt off (v + BitVec.ofNat 64 n) e
  if 2 ^ 64 ≤ v.toNat + n then raiseE x 80 (datum off) (e.pass off) else e

/-- Add to an error counter, raising ERR_SATURATED when it reaches its top. -/
def errE (x : EvtCtx) (off n : Nat) (e : Evt) : Evt :=
  let v := cntAt e off
  let v' := errAfter v n
  let e := setCnt off v' e
  if v ≠ errMax ∧ v' = errMax then raiseE x 81 (datum off) (e.pass off) else e

/-! ### The same on the whole state -/

def raise (i : Nat) (data : Nat) (s : State) : State := s.onEvt (raiseE s.ctx i (datum data))
/-- Raise with the OFFICER bit of the log entry; entries that no command raises clear it (R430; DEDUCED,
log 105). -/
def raiseBy (officer : Bool) (i : Nat) (data : Nat) (s : State) : State :=
  s.onEvt (raiseByE officer s.ctx i (datum data))
def setLevelData (i : Nat) (b : Bool) (data : Nat) (s : State) : State :=
  s.onEvt (levelE s.ctx i b (datum data))
def setLevel (i : Nat) (b : Bool) (s : State) : State := setLevelData i b 0 s
def statAdd (off n : Nat) (s : State) : State := s.onEvt (statE s.ctx off n)
def errAdd (off n : Nat) (s : State) : State := s.onEvt (errE s.ctx off n)

/-- The value of the counter whose low word stands at `off`. -/
def counter (s : State) (off : Nat) : Quad := cntAt s.evt off

/-- Set a counter to zero, as its own chapter's rule does. -/
def clearCounter (off : Nat) (s : State) : State := s.onEvt (setCnt off 0)

/-- One second in TIMESTAMP periods of 4 ns (R430). -/
def secondPeriods : Nat := 250000000

/-- Whether a limit of once per second lets a raise through now. -/
def limitOpen (key : Nat) (e : Evt) : Bool :=
  match tabGet none e.limited key with
  | none => true
  | some p => decide (secondPeriods ≤ (e.period - p).toNat)

/-- Raise under a limit of once per second per key; in RESET nothing is raised and no limit starts. The
flag says that an officer command caused it. -/
def raiseLimitedBy (officer : Bool) (key i data : Nat) (s : State) : State :=
  if s.pwr.mode ≠ .reset ∧ limitOpen key s.evt then
    raiseBy officer i data
      (s.onEvt fun e => { e with limited := tabSet none e.limited key (some e.period) })
  else s

def raiseLimited (key i data : Nat) (s : State) : State := raiseLimitedBy false key i data s

/-- An occasion 3 of R415 for group `n`: delivered while it requests, whatever its timer. -/
def deliverNow (n : Nat) (s : State) : State :=
  if groupRequests s.evt n then s.onEvt fun e => afterPme s.ctx (deliver s.ctx.cores n e) else s

/-- Every MSIX-routed group that requests is delivered, in ascending order (R418, R419, R551). -/
def deliverMsix (s : State) : State :=
  (List.range 25).foldl (fun s n =>
    if (grpAt s.evt n).route = 0 then deliverNow n s else s) s

/-- Change the device's mode: count it and raise MODE_CHANGED (R509, R513). The flag says that
an officer command caused it. -/
def setModeBy (officer : Bool) (m : Mode) (s : State) : State :=
  let old := s.pwr.mode
  raiseBy officer 0 (m.code + old.code * 16)
    (statAdd 0x20 1 (s.onPwr fun p => { p with mode := m }))

def setMode (m : Mode) (s : State) : State := setModeBy false m s

/-! ### What the PMU sees (R471, R472, R479) -/

/-- Events of the programmable counters happen; the PMU counts them at its next tick. -/
def noteEvents (l : List PmcEvent) (s : State) : State :=
  { s with noted := if s.codeS then s.noted ++ l else s.noted }

/-- `times` events of the datapath: code 9, no privilege. -/
def noteMany (times code addr id : Nat) (s : State) : State :=
  noteEvents (if times = 0 then [] else
    [{ code := BitVec.ofNat 12 code, master := 9, priv := 3, addr := word addr, id := word id
       times := times }]) s

def note (code addr id : Nat) (s : State) : State := noteMany 1 code addr id s

/-- Bytes pass a port of R479. -/
def carry (port bytes : Nat) (s : State) : State :=
  { s with carried := if s.codeS then tabMod 0 s.carried port (· + bytes) else s.carried }

/-! ### Start times (R504) -/

/-- When the unit of a DEV_START bit starts, in us from entry into READY. -/
def startTime (b : Nat) : Nat := if b < 8 then 250 * b else if b < 24 then 100 * (b - 16) else 50 * (b - 24)

/-- `n` us have passed since a TIMESTAMP period. -/
def usSince (n : Nat) (p : Quad) (s : State) : Bool := decide (n * 250 ≤ (s.evt.period - p).toNat)

/-- The start time of a unit has come. -/
def unitDue (b : Nat) (s : State) : Bool := usSince (startTime b) s.pwr.readyAt s

end Sys2Proof.Machine
end

