-- ==== Sys2Proof/Machine/Operands.lean ====
section
/-!
DEFINITION. The operand forms of the commands: the packet header (R389, R390), the opcode
catalogue with each opcode's privilege, trailer, pointer limit and modes (R390, R393, R406),
and byte and word strings.
-/

namespace Sys2Proof.Machine

/-! ### Byte and word strings (R14) -/

/-- A little-endian byte string as a number. -/
def leNat : List Byte → Nat
  | [] => 0
  | b :: bs => b.toNat + 256 * leNat bs

/-- The n little-endian bytes of a number. -/
def natLe : Nat → Nat → List Byte
  | 0, _ => []
  | n + 1, v => BitVec.ofNat 8 v :: natLe n (v / 256)

/-- A big-endian byte string as a number. -/
def beNat (bs : List Byte) : Nat := bs.foldl (fun v b => v * 256 + b.toNat) 0

/-- The n big-endian bytes of a number. -/
def natBe (n v : Nat) : List Byte := (natLe n v).reverse

/-- Words as their little-endian bytes. -/
def wordBytes (ws : List Word) : List Byte := ws.flatMap fun w => natLe 4 w.toNat

/-- Bytes as little-endian words, the last one filled with zeros. -/
def bytesWords : List Byte → List Word
  | a :: b :: c :: d :: l => word (leNat [a, b, c, d]) :: bytesWords l
  | [] => []
  | l => [word (leNat l)]

/-- A 64-bit value as its two words. -/
def quadWords (q : Quad) : List Word := [word q.toNat, word (q.toNat / 2 ^ 32)]

/-! ### The opcode catalogue (R406) -/

def opOf (n : Nat) : BitVec 16 := BitVec.ofNat 16 n

/-- The opcodes of R406. -/
def catalogue : List Nat :=
  [0x0100, 0x0101, 0x0102, 0x0103, 0x0104, 0x0120, 0x0201,
   0x0210, 0x0211, 0x0212, 0x0213, 0x0214, 0x0215, 0x0220, 0x0221, 0x0222,
   0x0230, 0x0231, 0x0232, 0x0233, 0x0234, 0x0235, 0x0240, 0x0241,
   0x0301, 0x0302, 0x0310, 0x0311, 0x0320, 0x0321,
   0x0400, 0x0401, 0x0402, 0x0403, 0x0404, 0x0410, 0x0411, 0x0420, 0x04F0,
   0x0501, 0x0502, 0x0503, 0x0504, 0x0601, 0x0602, 0x0603, 0x0604,
   0x0701, 0x0702, 0x0710, 0x0711, 0x0712, 0x0713, 0x0801, 0x0802, 0x0810, 0x0822,
   0x0901, 0x0902, 0x0910, 0x0A01, 0x0A02, 0x0A03]

def inCatalogue (op : BitVec 16) : Bool := catalogue.contains op.toNat

/-- An officer command (R119). -/
def officerOp (op : BitVec 16) : Bool := decide (0x0400 ≤ op.toNat) && decide (op.toNat ≤ 0x04FF)

/-- An officer command that must carry the trailer (R119, R121). -/
def trailerOp (op : BitVec 16) : Bool :=
  officerOp op && !([0x0400, 0x0401, 0x04F0].contains op.toNat)

/-- The largest LENGTH a pointer may name for the opcode (R390, R501). -/
def pointerLimit (op : BitVec 16) : Nat := if op = 0x0901 then 197633 else 1020

/-- READY, ACQUIRE, TRAFFIC and MAINTENANCE. -/
def onLineMode (m : Mode) : Bool := m == .ready || m == .acquire || m == .traffic || m == .maintenance

/-- The modes in which an opcode is accepted at step 6 of R393, its chapter's list. A mode rule
that depends on a parameter is checked by the command itself. -/
def opModes (op : BitVec 16) (m : Mode) (p : Bool) : Bool :=
  match op.toNat with
  | 0x0103 => m.codeS && m != .zeroised
  | 0x0201 => m == .ready
  | 0x0301 | 0x0302 | 0x0310 | 0x0211 | 0x0212 => onLineMode m
  | 0x0210 => m == .ready || m == .maintenance
  | 0x0230 | 0x0232 | 0x0240 | 0x0241 => onLineMode m
  | 0x0231 | 0x0233 => m == .ready || m == .acquire || m == .maintenance
  | 0x0213 | 0x0214 | 0x0215 | 0x0321 => onLineMode m || m == .zeroised
  | 0x0311 => m == .acquire || m == .traffic
  | 0x0420 => m == .ready || m == .acquire || m == .traffic
  | 0x0710 | 0x0711 | 0x0712 | 0x0713 => m.codeS && p
  | 0x0802 | 0x0810 | 0x0822 => m == .maintenance
  | _ => m.codeS

/-! ### The packet header (R389) -/

/-- The header fields of a packet and its parameter words, as an outstanding command. -/
def jobOfWords (id ring : Nat) (mailbox : Bool) (ws : List Word) : Job :=
  let w0 := ws.getD 0 0
  let w1 := ws.getD 1 0
  { id := id, mailbox := mailbox, ring := ring
    opcode := w0.extractLsb' 0 16, tag := w0.extractLsb' 16 12
    pointer := bit w0 28, noInt := bit w0 29, barrier := bit w0 30
    key := w1.extractLsb' 0 8, priv := w1.extractLsb' 8 2, auth := bit w1 10
    cookie := (ws.getD 3 0).append (ws.getD 2 0)
    params := (ws.drop 4).take (fld w1 25 16) }

/-- The zero fields of the header are zero, PRIV is not 0b11 and PARAM_LEN is in range (R389). -/
def headerFieldsOk (w0 w1 : Word) : Bool :=
  !bit w0 31 && fld w1 15 11 == 0 && fld w1 31 26 == 0 && fld w1 9 8 != 3 &&
    decide (fld w1 25 16 ≤ 1020)

/-- The first bad pointer word of R390, if any; 0xFFFF when PARAM_LEN is not 4. -/
def pointerFault (ps : List Word) : Option Nat :=
  if ps.length ≠ 4 then some 0xFFFF
  else if fld (ps.getD 0 0) 1 0 ≠ 0 then some 0
  else if (ps.getD 2 0).toNat = 0 ∨ 1048576 < (ps.getD 2 0).toNat then some 2
  else if ps.getD 3 0 ≠ 0 then some 3
  else none

/-- The packet's slot count: ceil((16 + 4 × PARAM_LEN) / 64) (R385). -/
def packetSlots (w1 : Word) : Nat := (16 + 4 * fld w1 25 16 + 63) / 64

/-- The 16-byte header as its four words, rebuilt from its fields (R119, R389). -/
def headerWords (j : Job) : List Word :=
  [word (j.opcode.toNat + j.tag.toNat * 2 ^ 16 + b2n j.pointer * 2 ^ 28 + b2n j.noInt * 2 ^ 29 +
     b2n j.barrier * 2 ^ 30),
   word (j.key.toNat + j.priv.toNat * 2 ^ 8 + b2n j.auth * 2 ^ 10 + j.params.length * 2 ^ 16),
   j.cookie.extractLsb' 0 32, j.cookie.extractLsb' 32 32]

/-- Parameter word `i`; 0 beyond the end. -/
def Job.param (j : Job) (i : Nat) : Word := j.params.getD i 0

/-- The parameter words before the officer trailer, where the packet carries one (R119). -/
def Job.body (j : Job) : List Word :=
  if j.auth then j.params.take (j.params.length - 10) else j.params

/-! ### Status codes (R392) -/

def stOk : BitVec 8 := 0x00
def stAborted : BitVec 8 := 0x01
def stAbortedFault : BitVec 8 := 0x02
def stAlreadyDone : BitVec 8 := 0x03
def stBadOpcode : BitVec 8 := 0x10
def stBadParam : BitVec 8 := 0x11
def stBusy : BitVec 8 := 0x12
def stDenied : BitVec 8 := 0x13
def stAuthFail : BitVec 8 := 0x14
def stNotFound : BitVec 8 := 0x15
def stMode : BitVec 8 := 0x16
def stPoison : BitVec 8 := 0x17
def stTimeout : BitVec 8 := 0x18

/-- A refusal: the completion's status and DETAIL. -/
abbrev Refused := BitVec 8 × Word

/-- DETAIL with a check step in [23:16] and a low half. -/
def stepDetail (step low : Nat) : Word := word (step * 2 ^ 16 + low)

/-- The first offending parameter word is `i` (step 7). -/
def badParam (i : Nat) : Refused := (stBadParam, stepDetail 7 i)
def refBusy : Refused := (stBusy, stepDetail 8 0)
def refDenied : Refused := (stDenied, stepDetail 8 0)
def refNotFound : Refused := (stNotFound, stepDetail 8 0)
def refPoison : Refused := (stPoison, stepDetail 8 0)
def refAuth8 : Refused := (stAuthFail, stepDetail 8 0)
/-- ST_MODE carries the present mode (R392). -/
def refMode (s : State) : Refused := (stMode, word s.pwr.mode.code)

/-- The checks of a list in order: the first whose condition holds decides. -/
def firstRefusal : List (Bool × Refused) → Option Refused
  | [] => none
  | (b, r) :: l => if b then some r else firstRefusal l

end Sys2Proof.Machine
end

