-- ==== Sys2Proof/Machine/Reals.lean ====
section
/-!
DEFINITION. Real functions on rationals, to well below every resolution that the spec states:
cosine, exponential, logarithm, decibels, square root and angle; complex numbers, and a signal between
its samples.
-/

namespace Sys2Proof.Machine

/-- Pi to 21 decimals. -/
def piRat : Rat := 3141592653589793238463 / 1000000000000000000000

/-- The cosine series to 24 terms; far below 16-bit resolution for |x| up to pi. -/
def ratCos (x : Rat) : Rat :=
  ((List.range 24).foldl (fun (acc : Rat × Rat) n =>
    (acc.1 + acc.2, -acc.2 * x * x / ((2 * n + 1) * (2 * n + 2) : Nat))) (0, 1)).1

/-- The cosine of a number of turns, reduced to within half a turn. -/
def cosTurn (x : Rat) : Rat := ratCos (2 * piRat * (x - roundRat x))

/-- The sine of a number of turns. -/
def sinTurn (x : Rat) : Rat := cosTurn (x - 1 / 4)

/-- The exponential series to 40 terms. -/
def ratExp (x : Rat) : Rat :=
  ((List.range 40).foldl (fun (acc : Rat × Rat) n =>
    (acc.1 + acc.2, acc.2 * x / (n + 1 : Nat))) (0, 1)).1

/-- The amplitude ratio of a number of decibels: 10^(d / 20). -/
def dbFactor (d : Rat) : Rat := ratExp (d * 2302585092994 / 20000000000000)

/-- Halve an interval n times around the square root of r. -/
def sqrtWithin (r : Rat) : Nat → Rat → Rat → Rat
  | 0, lo, hi => (lo + hi) / 2
  | n + 1, lo, hi =>
    let m := (lo + hi) / 2
    if m * m < r then sqrtWithin r n m hi else sqrtWithin r n lo m

/-- The square root of a rational at or above 0, to 2^-64 of its bound; exact at 0 and 1. -/
def ratSqrt (r : Rat) : Rat :=
  if r ≤ 0 then 0 else if r = 1 then 1 else sqrtWithin r 64 0 (if r < 1 then 1 else r)

/-- A rational held within a range. -/
def boundRat (lo hi v : Rat) : Rat := if v < lo then lo else if hi < v then hi else v

/-! ### Logarithm and angle -/

/-- The natural logarithm of a rational in 1/2 to 2, by the series of the inverse hyperbolic tangent. -/
def lnNear (y : Rat) : Rat :=
  let z := (y - 1) / (y + 1)
  2 * ((List.range 24).foldl (fun (acc : Rat × Rat) n =>
    (acc.1 + acc.2 / (2 * n + 1 : Nat), acc.2 * z * z)) (0, z)).1

/-- The natural logarithm of a positive rational; 0 at and below 0. -/
def ratLn (x : Rat) : Rat :=
  if x ≤ 0 then 0
  else
    let e : Int := (Nat.log2 x.num.toNat : Int) - Nat.log2 x.den
    let y := if 0 ≤ e then x / (2 ^ e.toNat : Nat) else x * (2 ^ (-e).toNat : Nat)
    lnNear y + e * lnNear 2

/-- A power ratio in decibels. -/
def powerDb (x : Rat) : Rat := 10 * ratLn x / ratLn 10

/-- The arc tangent of a rational within 1, its argument halved twice. -/
def atanUnit (t : Rat) : Rat :=
  let h := fun (x : Rat) => x / (1 + ratSqrt (1 + x * x))
  let z := h (h t)
  4 * ((List.range 24).foldl (fun (acc : Rat × Rat) n =>
    (acc.1 + acc.2 / (2 * n + 1 : Nat), -acc.2 * z * z)) (0, z)).1

/-! ### Complex numbers -/

def Cx.add (a b : Cx) : Cx := { re := a.re + b.re, im := a.im + b.im }
def Cx.sub (a b : Cx) : Cx := { re := a.re - b.re, im := a.im - b.im }
def Cx.mul (a b : Cx) : Cx := { re := a.re * b.re - a.im * b.im, im := a.re * b.im + a.im * b.re }
def Cx.conj (a : Cx) : Cx := { re := a.re, im := -a.im }
def Cx.scale (r : Rat) (a : Cx) : Cx := { re := r * a.re, im := r * a.im }
def Cx.power (a : Cx) : Rat := a.re * a.re + a.im * a.im

/-- The unit vector at a number of turns. -/
def Cx.turn (x : Rat) : Cx := { re := cosTurn x, im := sinTurn x }

def Cx.sum (l : List Cx) : Cx := l.foldl Cx.add {}

/-- The products of two lists, summed. -/
def Cx.dot (a b : List Cx) : Cx := Cx.sum (List.zipWith Cx.mul a b)

/-- The argument in turns, above -1/2 and up to 1/2; 0 for the number 0. -/
def Cx.arg (a : Cx) : Rat :=
  let turns := fun (t : Rat) => atanUnit t / (2 * piRat)
  if a.re = 0 ∧ a.im = 0 then 0
  else if absRat a.im ≤ absRat a.re then
    if 0 < a.re then turns (a.im / a.re)
    else if 0 ≤ a.im then 1 / 2 + turns (a.im / a.re) else turns (a.im / a.re) - 1 / 2
  else if 0 < a.im then 1 / 4 - turns (a.re / a.im)
  else -(1 / 4) - turns (a.re / a.im)

/-! ### Interpolation between samples -/

/-- sin(pi x) / (pi x). -/
def ratSinc (x : Rat) : Rat := if x = 0 then 1 else sinTurn (x / 2) / (piRat * x)

/-- A sampled signal at a position between its samples, from the 64 around it. -/
def between (f : Int → Cx) (x : Rat) : Cx :=
  Cx.sum ((List.range 64).map fun (i : Nat) =>
    let k : Int := x.floor + (i : Int) - 31
    Cx.scale (ratSinc (x - k)) (f k))

end Sys2Proof.Machine
end

