-- ==== Sys2Proof/Machine/LineCode.lean ====
section
/-!
DEFINITION. The line code (R141 to R155) and the symbol periods of a frame (R36 to R41): pure
functions from frame bits to the levels of the symbol periods, and the block CRC and
descrambler that the receiver applies.
-/

namespace Sys2Proof.Machine

/-! ### Code rates (R41) -/

/-- Frame bits B of a code block by rate code. -/
def blockFrameBits : Nat → Nat
  | 0 => 11432 | 1 => 12252 | 2 => 13071 | 3 => 13617 | 4 => 13890 | 5 => 14300 | 6 => 14709
  | _ => 14982

/-- Outer input bits K of a code block (R143). -/
def outerBits (code : Nat) : Nat := blockFrameBits code + 36

/-- The kept bits M of the second outer stream (R147). -/
def keptBits (code : Nat) : Nat := 16384 - outerBits code

/-! ### Generators -/

/-- The bits that a shift register of the two top taps produces: state, width, low tap. The
bit fed back is the output, as in R142. -/
def tapBits (width tap : Nat) : Nat → Nat → List Bool
  | 0, _ => []
  | n + 1, s =>
    let k := s.testBit (width - 1) != s.testBit (tap - 1)
    k :: tapBits width tap n ((s * 2 + b2n k) % 2 ^ width)

/-- The scrambler keystream (R142). -/
def keystream (n : Nat) : List Bool := tapBits 31 28 n (2 ^ 31 - 1)

/-- The PRBS15 stream (R37). -/
def prbs15 (n : Nat) : List Bool := tapBits 15 14 n (2 ^ 15 - 1)

/-- Scrambling and descrambling (R142). -/
def scramble (bits : List Bool) : List Bool := List.zipWith (· != ·) bits (keystream bits.length)

/-! ### CRC-32 with polynomial 0x04C11DB7, no reflection (R56, R143) -/

def crcStep (crc : Word) (b : Bool) : Word :=
  if crc.getLsbD 31 != b then (crc <<< 1) ^^^ 0x04C11DB7#32 else crc <<< 1

def crcBits (init : Word) (bits : List Bool) : Word := bits.foldl crcStep init

/-- A number's n bits, most significant first. -/
def bitsMsb : Nat → Nat → List Bool
  | 0, _ => []
  | n + 1, v => v.testBit n :: bitsMsb n v

/-- The number of a bit string, first bit most significant. -/
def msbNat (bits : List Bool) : Nat := bits.foldl (fun v b => v * 2 + b2n b) 0

/-- Bytes as bits, each most significant bit first (R42). -/
def byteBits (bs : List Byte) : List Bool := bs.flatMap fun b => bitsMsb 8 b.toNat

/-- Bits as bytes, first bit most significant; a short last byte is filled with zeros. -/
def bitsBytes : List Bool → List Byte
  | a :: b :: c :: d :: e :: f :: g :: h :: l =>
    BitVec.ofNat 8 (msbNat [a, b, c, d, e, f, g, h]) :: bitsBytes l
  | [] => []
  | l => [BitVec.ofNat 8 (msbNat l * 2 ^ (8 - l.length))]

/-- A decoded block passes its CRC (R144). -/
def passesCrc (b : Nat) (a : List Bool) : Bool := crcBits 0 (a.take (b + 32)) == 0

/-! ### Encoding one block (R143 to R149) -/

/-- The outer input: information, CRC and tail. -/
def outerInput (info : List Bool) : List Bool :=
  info ++ bitsMsb 32 (crcBits 0 info).toNat ++ [false, false, false, false]

/-- p2(i) is kept (R147). -/
def kept (k m i : Nat) : Bool := decide (k - m ≤ (i * m) % k)

/-- The punctured outer code: remaining inputs, index, and the last four inputs. -/
def outerCode (k m : Nat) : List Bool → Nat → Bool → Bool → Bool → Bool → List Bool
  | [], _, _, _, _, _ => []
  | a :: l, i, a1, a2, a3, a4 =>
    let p1 := a != (a3 != a4)
    let p2 := (a != a1) != (a2 != a4)
    (if kept k m i then [p1, p2] else [p1]) ++ outerCode k m l (i + 1) a a1 a2 a3

/-- The interleaver address (R148). -/
def interleave (x : Nat) : Nat := (263 * x + 480 * x * x) % 16384

def interleaved (u : List Bool) : List Bool :=
  (List.range 16384).map fun x => u.getD (interleave x) false

/-- The inner code 1/(1 + D + D^2): inputs and the last two outputs (R149). -/
def innerCode : List Bool → Bool → Bool → List Bool
  | [], _, _ => []
  | v :: l, w1, w2 => let w := v != (w1 != w2); w :: innerCode l w w1

/-- The coded block of B scrambled frame bits. -/
def encodeBlock (code : Nat) (info : List Bool) : List Bool :=
  innerCode (interleaved
    (outerCode (outerBits code) (keptBits code) (outerInput info) 0 false false false false))
    false false

/-- The first n consecutive pieces of a bit string. -/
def pieces {α : Type} (size : Nat) : Nat → List α → List (List α)
  | 0, _ => []
  | n + 1, l => l.take size :: pieces size n (l.drop size)

/-- The coded bits of a frame: blocks 0 to n - 1, then the coded pad (R40, R150). -/
def codedBits (code n pad : Nat) (frame : List Bool) : List Bool :=
  (pieces (blockFrameBits code) n (scramble frame)).flatMap (encodeBlock code) ++ prbs15 pad

/-! ### Labels and points (R152 to R155) -/

/-- Bits of a symbol by pattern code (R39). -/
def symbolBits : Nat → Nat
  | 0 => 2 | 1 => 3 | 2 => 4 | 3 => 5 | _ => 6

/-- The Gray maps PAM2, PAM4 and PAM8 by part width and value (R153). -/
def grayLevel : Nat → Nat → Int
  | 1, 0 => -1 | 1, _ => 1
  | 2, 0 => -3 | 2, 1 => -1 | 2, 3 => 1 | 2, _ => 3
  | _, 0 => -7 | _, 1 => -5 | _, 3 => -3 | _, 2 => -1 | _, 6 => 1 | _, 7 => 3 | _, 5 => 5 | _, _ => 7

/-- Width of the I part of a label (R152). -/
def iWidth : Nat → Nat
  | 0 => 1 | 1 => 2 | 2 => 2 | _ => 3

def withSign (s v : Int) : Int := if s < 0 then -v else v

/-- The fold of the 32QAM cross (R154). -/
def fold32 (i q : Int) : Int × Int :=
  if i.natAbs = 7 then (withSign i (if q.natAbs = 3 then 3 else 1), withSign q 5) else (i, q)

/-- The unscaled point of a label. -/
def point (code : Nat) (label : List Bool) : Int × Int :=
  let n := iWidth code
  let i := grayLevel n (msbNat (label.take n))
  let q := grayLevel (symbolBits code - n) (msbNat (label.drop n))
  if code = 3 then fold32 i q else (i, q)

/-- Mean energy of the unscaled points (R155). -/
def meanEnergy : Nat → Nat
  | 0 => 2 | 1 => 6 | 2 => 10 | 3 => 20 | _ => 42

/-- What the unscaled points are multiplied by: unit mean power for every constellation, and
PILOT_BOOST, in 0.5 dB, above it for sync and pilot periods (R155, R158). -/
def levelScale (boost : Nat) : LevelKind → Rat
  | .off => 0
  | .data code => 1 / ratSqrt (meanEnergy code : Nat)
  | .pilot => dbFactor ((boost : Rat) / 2) / ratSqrt 2

/-- The complex value that a symbol period carries before pulse shaping (R158). -/
def SymbolLevel.value (boost : Nat) (l : SymbolLevel) : Rat × Rat :=
  ((l.i : Rat) * levelScale boost l.kind, (l.q : Rat) * levelScale boost l.kind)

/-! ### Symbol periods (R36 to R39, R49, R158) -/

def SymbolLevel.zero : SymbolLevel := { kind := .off, i := 0, q := 0 }

/-- A sync or pilot level of one bit pair. -/
def pilotLevel (b0 b1 : Bool) : SymbolLevel :=
  let p := point 0 [b0, b1]
  { kind := .pilot, i := p.1, q := p.2 }

/-- A data level of one label. -/
def dataLevel (code : Nat) (label : List Bool) : SymbolLevel :=
  let p := point code label
  { kind := .data code, i := p.1, q := p.2 }

/-- A period of the sync sequence or a pilot period (R36). -/
def isPilot (n : Nat) : Bool := decide (n < 1024) || (n - 1024) % 64 == 0

/-- The levels of a list of symbol periods in transmission order, from period `n` and data
period `k`: the pattern, the PRBS bits and coded bits still to be used, the coded bits already
used, and how many of them a whey frame sends. -/
def periodLevels (patX patY : List Nat) (span : Nat) :
    Nat → Nat → Nat → List Bool → List Bool → Nat → List (SymbolLevel × SymbolLevel)
  | 0, _, _, _, _, _ => []
  | left + 1, n, k, prbs, coded, used =>
    if isPilot n then
      (pilotLevel (prbs.getD 0 false) (prbs.getD 1 false),
        pilotLevel (prbs.getD 2 false) (prbs.getD 3 false)) ::
        periodLevels patX patY span left (n + 1) k (prbs.drop 4) coded used
    else
      let cx := patX.getD (k % 64) 0
      let cy := patY.getD (k % 64) 0
      let bx := symbolBits cx
      let by' := symbolBits cy
      let x := if used < span then dataLevel cx (coded.take bx) else SymbolLevel.zero
      let y := if used + bx < span then dataLevel cy ((coded.drop bx).take by')
        else SymbolLevel.zero
      (x, y) :: periodLevels patX patY span left (n + 1) (k + 1) prbs
        (coded.drop (bx + by')) (used + bx + by')

/-! ### Frame geometry (R39 to R41, R47, R61) -/

/-- The sum of the bits of a pattern's first n entries. -/
def patternBits (n : Nat) (pat : List Nat) : Nat := ((pat.take n).map symbolBits).sum

/-- The coded capacity C of a frame. -/
def capacity (p : Profile) : Nat :=
  16112 * patternBits 64 p.patX + patternBits 16 p.patX +
    (16112 * patternBits 64 p.patY + patternBits 16 p.patY)

/-- The code blocks N of a frame. -/
def frameBlocks (p : Profile) : Nat := capacity p / 16384

/-- The frame bits F. -/
def frameBitCount (p : Profile) : Nat := frameBlocks p * blockFrameBits p.code

/-- The slot width W at a symbol rate in 0.25 GBd (R47). -/
def slotBits (rate : Nat) : Nat :=
  let num := 5120000000 * 1048576
  let den := 8 * (rate * 250000000)
  8 * ((num + den - 1) / den)

/-- The fill of a frame with t TAG rows (R61); negative where the profile does not fit. -/
def frameFill (p : Profile) (t : Nat) : Int :=
  (frameBitCount p : Int) - 16384 - 128 * t - (slotBits p.rate * p.slots : Nat)

/-- The levels of all 1,048,576 periods of a frame. A whey frame sends only the data symbols
that carry coded bits of blocks 0 and 1 (R49). -/
def frameLevels (p : Profile) (whey : Bool) (frame : List Bool) : List (SymbolLevel × SymbolLevel) :=
  periodLevels p.patX p.patY (if whey then 32768 else capacity p) 1048576 0 0
    (prbs15 (4 * (1024 + 16368)))
    (codedBits p.code (frameBlocks p) (capacity p - 16384 * frameBlocks p) frame) 0

/-! ### Pattern presets (R7, R66) -/

/-- The spread rule of R66. -/
def spreadPattern (base spread m : Nat) : List Nat :=
  (List.range 64).map fun i => if (i * m) / 64 < ((i + 1) * m) / 64 then spread else base

/-- The presets 1 to 6: 2.4T to 0.4T. -/
def presetProfile (n : Nat) : Profile :=
  let mk := fun rate slots code base spread m =>
    ({ rate := rate, slots := slots, code := code
       patX := spreadPattern base spread m, patY := spreadPattern base spread m } : Profile)
  match n with
  | 1 => mk 1080 480 4 4 3 31
  | 2 => mk 1080 400 2 3 2 7
  | 3 => mk 800 320 2 3 4 17
  | 4 => mk 800 240 1 2 3 14
  | 5 => mk 540 160 1 2 3 10
  | _ => mk 540 80 0 0 1 15

end Sys2Proof.Machine
end

