-- ==== Sys2Proof/Machine/RsFec.lean ====
section
/-!
DEFINITION. The RS(544,514) code of the clients' PCS (R71, R73): symbols of ten bits in
GF(2^10) by x^10 + x^3 + 1, the generator's roots 2^0 to 2^29, first symbol of highest degree, as
IEEE 802.3 has them (PRESUMED, log 132).
-/

namespace Sys2Proof.Machine

/-! ### The field -/

/-- Twice an element. -/
def gfDouble (a : Nat) : Nat := if 512 ≤ a then (2 * a) ^^^ 0x409 else 2 * a

/-- The product of `a` and the low n bits of `b`. -/
def gfMulBits : Nat → Nat → Nat → Nat
  | 0, _, _ => 0
  | n + 1, a, b => (if b % 2 = 1 then a else 0) ^^^ gfMulBits n (gfDouble a) (b / 2)

def gfMul (a b : Nat) : Nat := gfMulBits 10 a b

def gfSquare (a : Nat) : Nat := gfMul a a

/-- The inverse: the power 2^10 - 2. -/
def gfInv (a : Nat) : Nat :=
  ((List.range 9).foldl (fun (p : Nat × Nat) _ => let q := gfSquare p.1; (q, gfMul p.2 q)) (a, 1)).2

/-- 2^n in the field. -/
def gfPow : Nat → Nat
  | 0 => 1
  | n + 1 => gfDouble (gfPow n)

/-- 2^-n in the field, for n up to 1,023. -/
def gfPowNeg (n : Nat) : Nat := gfPow (1023 - n % 1023)

/-! ### The encoder -/

/-- The parity after one more symbol, highest degree first: the remainder's next step. -/
def parityStep (g parity : List Nat) (m : Nat) : List Nat :=
  let f := m ^^^ parity.headD 0
  (parity.drop 1 ++ [0]).zipWith (fun p c => p ^^^ gfMul f c) g

/-- The generator's coefficients under x^30, highest degree first. -/
def rsGenerator : List Nat :=
  ((List.range 30).foldl (fun (p : List Nat) j =>
    (p ++ [0]).zipWith (· ^^^ ·) (0 :: p.map (gfMul (gfPow j)))) [1]).drop 1

/-- A codeword: the message and its thirty parity symbols. -/
def rsEncode (m : List Nat) : List Nat :=
  let g := rsGenerator
  m ++ m.foldl (parityStep g) (List.replicate 30 0)

/-! ### The decoder -/

/-- A word's value at x, first symbol of highest degree. -/
def gfEval (x : Nat) (l : List Nat) : Nat := l.foldl (fun a c => gfMul a x ^^^ c) 0

def syndromes (r : List Nat) : List Nat := (List.range 30).map fun j => gfEval (gfPow j) r

/-- The state of Berlekamp and Massey's algorithm: the locator, the one before its last change of length,
the length, the shift and the discrepancy then; lowest degree first. -/
structure Locator where
  now : List Nat := [1]
  was : List Nat := [1]
  len : Nat := 0
  shift : Nat := 1
  last : Nat := 1

/-- The sum of two polynomials, lowest degree first. -/
def polyAdd : List Nat → List Nat → List Nat
  | [], b => b
  | a, [] => a
  | x :: a, y :: b => (x ^^^ y) :: polyAdd a b

/-- The locator takes the syndrome of index n. -/
def Locator.step (s : List Nat) (l : Locator) (n : Nat) : Locator :=
  let d := (l.now.zip (List.range (l.len + 1))).foldl
    (fun a e => a ^^^ gfMul e.1 (s.getD (n - e.2) 0)) 0
  if d = 0 then { l with shift := l.shift + 1 }
  else
    let f := gfMul d (gfInv l.last)
    let next := polyAdd l.now (List.replicate l.shift 0 ++ l.was.map (gfMul f))
    if 2 * l.len ≤ n then { now := next, was := l.now, len := n + 1 - l.len, shift := 1, last := d }
    else { l with now := next, shift := l.shift + 1 }

/-- The error at the symbol of degree i: 0 where the locator has no root, else by Forney's formula with the
evaluator `w`. -/
def errorAt (locator w : List Nat) (i : Nat) : Nat :=
  let x := gfPowNeg i
  if gfEval x locator.reverse ≠ 0 then 0
  else
    let slope := (locator.zip (List.range locator.length)).foldl
      (fun a e => if e.2 % 2 = 1 then a ^^^ gfMul e.1 (gfPow ((1023 - i % 1023) * (e.2 - 1) % 1023)) else a) 0
    gfMul (gfPow i) (gfMul (gfEval x w.reverse) (gfInv slope))

/-- The evaluator: syndromes times locator, below degree 30. -/
def evaluator (s locator : List Nat) : List Nat :=
  (List.range 30).map fun k =>
    (locator.zip (List.range (k + 1))).foldl (fun a e => a ^^^ gfMul e.1 (s.getD (k - e.2) 0)) 0

/-- The received word with its errors corrected, up to fifteen symbols; none of an uncorrectable word. -/
def rsDecode (r : List Nat) : Option (List Nat) :=
  let s := syndromes r
  if s.all (· == 0) then some r
  else
    let l := (List.range 30).foldl (Locator.step s) {}
    let w := evaluator s l.now
    let c := (r.zip (List.range r.length)).map fun e => e.1 ^^^ errorAt l.now w (r.length - 1 - e.2)
    let wrong := (r.zip c).countP fun e => e.1 != e.2
    if l.len ≤ 15 ∧ wrong = l.len ∧ (syndromes c).all (· == 0) then some c else none

end Sys2Proof.Machine
end

