-- ==== Sys2Proof/Machine/Client.lean ====
section
/-!
DEFINITION. Client data as the mapper carries it: 66-bit blocks and their 256b/257b transcoding
(IEEE 802.3, R48, R73), the codewords and alignment markers of its PCS, the substitutes of R82, and PTP event messages (R92 to R95).
-/

namespace Sys2Proof.Machine

/-! ### 66-bit blocks -/

def Block66.type (b : Block66) : Nat := b.payload.toNat % 256

/-- The control block of eight /E/ characters (R82). -/
def errorBlock : Block66 :=
  { control := true
    payload := BitVec.ofNat 64 (0x1E + (List.range 8).foldl (fun v i => v + 0x1E * 2 ^ (8 + 7 * i)) 0) }

/-- The block of eight idle characters. -/
def idleBlock : Block66 := { control := true, payload := 0x1E }

/-- The Local Fault ordered set. -/
def localFault : Block66 := { control := true, payload := 0x000000000100004B }

def Block66.isOrdered (b : Block66) : Bool := b.control && b.type == 0x4B
def Block66.isStart (b : Block66) : Bool := b.control && b.type == 0x78
def Block66.isTerminate (b : Block66) : Bool :=
  b.control && [0x87, 0x99, 0xAA, 0xB4, 0xCC, 0xD2, 0xE1, 0xFF].contains b.type

/-- A packet is open after this block. -/
def openAfter (was : Bool) (b : Block66) : Bool :=
  if b.isStart then true
  else if b.isTerminate || b.isOrdered || b = idleBlock then false
  else was

/-! ### Transcoding -/

/-- Four payloads as one 256-bit number, the first in the low bits. -/
def payloads (bs : List Block66) : Nat :=
  ((bs.zip (List.range 4)).map fun e => e.1.payload.toNat * 2 ^ (64 * e.2)).sum

/-- Transcode four blocks: bit 0 says all data; otherwise bits 1 to 4 tell data from control and
the high half of the first control block's type is left out. -/
def transcode (bs : List Block66) : BitVec 257 :=
  let p := payloads bs
  match bs.findIdx? fun b => b.control with
  | none => BitVec.ofNat 257 (1 + p * 2)
  | some c =>
    let flags := ((bs.zip (List.range 4)).map fun e => b2n (!e.1.control) * 2 ^ (e.2 + 1)).sum
    let low := p % 2 ^ (64 * c + 4)
    let high := p / 2 ^ (64 * c + 8)
    BitVec.ofNat 257 (flags + low * 2 ^ 5 + high * 2 ^ (64 * c + 9))

/-- The high half of a block type from its low half. -/
def typeHigh : Nat → Nat
  | 0xE => 1 | 0x8 => 7 | 0xB => 4 | 0x7 => 8 | 0x9 => 9 | 0xA => 0xA | 0x4 => 0xB | 0xC => 0xC
  | 0x2 => 0xD | 0x1 => 0xE | 0xF => 0xF | _ => 0

/-- The four blocks of a 257-bit block. -/
def untranscode (x : BitVec 257) : List Block66 :=
  let v := x.toNat
  let cut := fun p => (List.range 4).map fun i =>
    (BitVec.ofNat 64 (p / 2 ^ (64 * i)) : BitVec 64)
  if x.getLsbD 0 then (cut (v / 2)).map fun p => { control := false, payload := p }
  else
    let ctl := (List.range 4).map fun i => !x.getLsbD (i + 1)
    let c := (ctl.findIdx? id).getD 0
    let body := v / 2 ^ 5
    let low := body % 2 ^ (64 * c + 4)
    let high := body / 2 ^ (64 * c + 4)
    let p := low + typeHigh (low / 2 ^ (64 * c)) * 2 ^ (64 * c + 4) + high * 2 ^ (64 * c + 8)
    (ctl.zip (cut p)).map fun e => { control := e.1, payload := e.2 }

/-- The 257-bit block of four error control blocks (R77, R82). -/
def errorBlock257 : BitVec 257 := transcode [errorBlock, errorBlock, errorBlock, errorBlock]

/-- A 257-bit block in transmission order. -/
def blockBits (x : BitVec 257) : List Bool := (List.range 257).map fun i => x.getLsbD i

/-- The 257-bit block of bits in transmission order. -/
def bitsBlock (l : List Bool) : BitVec 257 :=
  BitVec.ofNat 257 ((l.take 257).reverse.foldl (fun v b => v * 2 + b2n b) 0)

/-! ### PTP event messages (R92) -/

def byteAt (f : List Byte) (i : Nat) : Nat := (f.getD i 0).toNat
def be16 (f : List Byte) (i : Nat) : Nat := beNat ((f.drop i).take 2)

/-- The offset of the EtherType, past up to two VLAN tags. -/
def etherType (f : List Byte) : Nat :=
  let tagged := fun i => be16 f i == 0x8100 || be16 f i == 0x88A8
  if tagged 12 then (if tagged 16 then 20 else 16) else 12

/-- The PTP header's offset and the UDP header's, where there is one. -/
def ptpAt (f : List Byte) : Option (Nat × Option Nat) :=
  let e := etherType f
  let p := e + 2
  if be16 f e = 0x88F7 then some (p, none)
  else if be16 f e = 0x0800 then
    if byteAt f p = 0x45 ∧ byteAt f (p + 9) = 17 ∧ be16 f (p + 6) % 2 ^ 14 = 0 ∧
        be16 f (p + 22) = 319 then some (p + 28, some (p + 20)) else none
  else if be16 f e = 0x86DD then
    if byteAt f p / 16 = 6 ∧ byteAt f (p + 6) = 17 ∧ be16 f (p + 42) = 319 then
      some (p + 48, some (p + 40)) else none
  else none

/-- An event message: types 0 to 3 of version 2. -/
def isEvent (f : List Byte) (p : Nat) : Bool :=
  decide (byteAt f p % 16 ≤ 3) && byteAt f (p + 1) % 16 == 2

/-! ### Changes with incremental checks (R95) -/

/-- Replace bytes from an offset on. -/
def patch (f : List Byte) (i : Nat) (bs : List Byte) : List Byte :=
  f.take i ++ bs ++ f.drop (i + bs.length)

/-- The FCS register over bytes, each least significant bit first, from zero. -/
def fcsRegister (bs : List Byte) : Word :=
  crcBits 0 (bs.flatMap fun b => (List.range 8).map fun i => b.getLsbD i)

/-- The four FCS bytes of a register, highest bit sent first. -/
def fcsBytes (r : Word) : List Byte :=
  natLe 4 ((List.range 32).foldl (fun v i => v + b2n (r.getLsbD (31 - i)) * 2 ^ i) 0)

/-- Update the FCS by the difference of a change. -/
def fixFcs (old new : List Byte) : List Byte :=
  let n := new.length - 4
  let d := fcsBytes (fcsRegister (old.take n) ^^^ fcsRegister (new.take n))
  new.take n ++ List.zipWith (· ^^^ ·) (new.drop n) d

/-- The sum of a range of 16-bit words. -/
def sum16 (f : List Byte) (i n : Nat) : Nat :=
  ((List.range n).map fun k => be16 f (i + 2 * k)).sum

/-- Update a non-zero UDP checksum by the difference of a change of `n` words at `i`. -/
def fixUdp (udp : Option Nat) (i n : Nat) (old new : List Byte) : List Byte :=
  match udp with
  | none => new
  | some u =>
    let c := be16 old (u + 6)
    if c = 0 then new
    else
      let r := (c + sum16 old i n + (65535 * n - sum16 new i n)) % 65535
      patch new (u + 6) (natBe 2 (if r = 0 then 65535 else r))

/-- A time in quarter nanoseconds modulo 2^32 (R93). -/
def quarterNs (t : Nat) : Nat := t / 2 ^ 30 % 2 ^ 32

/-- The message with its ingress time written (R93). -/
def stampIngress (t : Nat) (f : List Byte) (p : Nat) (udp : Option Nat) : List Byte :=
  fixFcs f (fixUdp udp (p + 16) 2 f (patch f (p + 16) (natBe 4 (quarterNs t))))

/-- The message with its residence time added (R94). -/
def correctEgress (t : Nat) (f : List Byte) (p : Nat) (udp : Option Nat) : List Byte :=
  let d := (quarterNs t + 2 ^ 32 - beNat ((f.drop (p + 16)).take 4)) % 2 ^ 32
  let c := (beNat ((f.drop (p + 8)).take 8) + d * 2 ^ 14) % 2 ^ 64
  fixFcs f (fixUdp udp (p + 8) 6 f (patch f (p + 8) (natBe 8 c ++ [0, 0, 0, 0])))

/-! ### The client PCS's scrambler (R73): IEEE 802.3's 1 + x^39 + x^58 (PRESUMED, log 12) -/

/-- Descramble bits from the scrambled bits before, newest in bit 0. -/
def descramble : BitVec 58 → List Bool → List Bool × BitVec 58
  | r, [] => ([], r)
  | r, b :: l =>
    let x := descramble ((r <<< 1) ||| BitVec.ofNat 58 (b2n b)) l
    ((b != (r.getLsbD 38 != r.getLsbD 57)) :: x.1, x.2)

/-- Scramble bits from the scrambled bits before. -/
def scrambleClient : BitVec 58 → List Bool → List Bool × BitVec 58
  | r, [] => ([], r)
  | r, b :: l =>
    let y := b != (r.getLsbD 38 != r.getLsbD 57)
    let x := scrambleClient ((r <<< 1) ||| BitVec.ofNat 58 (b2n y)) l
    (y :: x.1, x.2)

/-- 66-bit blocks as scrambled 257-bit blocks, four to one; the blocks left over, and the
scrambler. -/
def codeBlocks : BitVec 58 → List Block66 → List (BitVec 257) × List Block66 × BitVec 58
  | r, a :: b :: c :: d :: l =>
    let y := scrambleClient r (blockBits (transcode [a, b, c, d]))
    let x := codeBlocks y.2 l
    (bitsBlock y.1 :: x.1, x.2)
  | r, l => ([], l, r)

/-! ### Alignment markers and codewords (R72, R73): as IEEE 802.3 has them (PRESUMED, log 132) -/

/-- Codewords of RS(544,514) that a client type's PCS interleaves symbol by symbol. -/
def codewords : Nat → Nat
  | 0 => 1 | 1 => 2 | 2 => 2 | _ => 4

/-- The 257-bit blocks of a group of alignment markers, and of the period that one begins. -/
def markerBlocks : Nat → Nat
  | 0 => 5 | 1 => 4 | 2 => 8 | _ => 16
def markerPeriod : Nat → Nat
  | 0 => 81920 | 1 => 81920 | 2 => 163840 | 3 => 327680 | _ => 655360

/-- The 257-bit blocks of one set of interleaved codewords. -/
def setBlocks (type : Nat) : Nat := 20 * codewords type

/-- Blocks with the markers put in, from a place in the period on; and the place after them. -/
def mark (type : Nat) (rate : Bool) : Nat → List (BitVec 257) → List (BitVec 257) × Nat
  | p, [] => ([], p)
  | p, b :: l =>
    let first := decide (p = 0)
    let group := if first then (List.range (markerBlocks type)).map (Config.marker type rate) else []
    let r := mark type rate (((if first then markerBlocks type else p) + 1) % markerPeriod type) l
    (group ++ b :: r.1, r.2)

/-- Blocks without the markers, from a place in the period on; and the place after them. -/
def unmark (type : Nat) : Nat → List (BitVec 257) → List (BitVec 257) × Nat
  | p, [] => ([], p)
  | p, b :: l =>
    let r := unmark type ((p + 1) % markerPeriod type) l
    (if p < markerBlocks type then r.1 else b :: r.1, r.2)

/-- Bits as symbols of ten, the first bit lowest. -/
def symbols10 : List Bool → List Nat
  | a :: b :: c :: d :: e :: f :: g :: h :: i :: j :: l =>
    ([a, b, c, d, e, f, g, h, i, j].reverse.foldl (fun v x => v * 2 + b2n x) 0) :: symbols10 l
  | _ => []

def tenBits (v : Nat) : List Bool := (List.range 10).map v.testBit

/-- Every n-th element from index i on. -/
def everyNth (n i : Nat) (l : List α) : List α :=
  ((l.zip (List.range l.length)).filter fun e => e.2 % n == i).map Prod.fst

/-- The n sequences that a sequence interleaves, and back, m elements of each. -/
def deal (n : Nat) (l : List α) : List (List α) := (List.range n).map fun i => everyNth n i l
def weave : Nat → List (List α) → List α
  | 0, _ => []
  | m + 1, ls => (ls.flatMap fun l => l.take 1) ++ weave m (ls.map fun l => l.drop 1)

/-- n 257-bit blocks from their bits. -/
def cutBlocks : Nat → List Bool → List (BitVec 257)
  | 0, _ => []
  | n + 1, l => bitsBlock l :: cutBlocks n (l.drop 257)

/-- The symbols of a set of codewords in the order in which they are sent. -/
def encodeSet (type : Nat) (bs : List (BitVec 257)) : List (BitVec 10) :=
  (weave 544 ((deal (codewords type) (symbols10 (bs.flatMap blockBits))).map rsEncode)).map
    (BitVec.ofNat 10)

/-- As many whole sets as the blocks fill, n at most: their symbols, and the blocks left over. -/
def encodeSets (type : Nat) : Nat → List (BitVec 257) → List (BitVec 10) × List (BitVec 257)
  | 0, bs => ([], bs)
  | n + 1, bs =>
    if bs.length < setBlocks type then ([], bs)
    else
      let r := encodeSets type n (bs.drop (setBlocks type))
      (encodeSet type (bs.take (setBlocks type)) ++ r.1, r.2)

/-- A received set: its 257-bit blocks, which symbols were corrected, and its uncorrectable codewords. -/
structure DecodedSet where
  blocks : List (BitVec 257)
  fixed : List Bool
  lost : Nat

def decodeSet (type : Nat) (symbols : List (BitVec 10)) : DecodedSet :=
  let rx := symbols.map fun x => x.toNat
  let words := (deal (codewords type) rx).map fun w => (rsDecode w, w)
  let out := words.map fun w => w.1.getD w.2
  { blocks := cutBlocks (setBlocks type) ((weave 514 out).flatMap tenBits)
    fixed := (rx.zip (weave 544 out)).map fun e => e.1 != e.2
    lost := words.countP fun w => w.1.isNone }

end Sys2Proof.Machine
end

