-- ==== Sys2Proof/Machine/Budget.lean ====
section
/-!
DEFINITION. What the decoder fabric takes from the line profile: churns in service, the applied
budget (R239), the vat's entries (R244), the applied deadline (R246) and times in ADC samples
(R231, R235), and the level flags of DEC_STATUS (R262).
-/

namespace Sys2Proof.Machine

def churnAt (s : State) (c : Nat) : Churn := tabGet {} s.dec.churn c
def onChurn (c : Nat) (f : Churn → Churn) (s : State) : State :=
  s.onDec fun d => { d with churn := tabMod {} d.churn c f }

/-- A churn is in service (R258 to R260). -/
def Churn.serves (x : Churn) : Bool := x.started && !x.offCmd && !x.offFault && !x.dumping

def churns : List Nat := List.range 32
def churnsInService (s : State) : Nat := (churns.filter fun c => (churnAt s c).serves).length

/-- The automatic BUDGET in 1/16 iteration: E engines at 1.357142857 GHz, N blocks a frame. -/
def autoBudget (p : Profile) (iterMax engines : Nat) : Nat :=
  min (16 * iterMax)
    (16 * 95 * engines * 1357142857 * 4194304 / (100 * 1024 * (p.rate * frameBlocks p) * 1000000000))

/-- BUDGET that applies from the next arriving block. -/
def budgetNow (s : State) : Nat :=
  if s.dec.cfg.budgetAuto then autoBudget s.prof s.dec.cfg.iterMax (20 * churnsInService s)
  else s.dec.cfg.budget

/-- BUDGET_CHANGED follows every change of the applied value. -/
def settleBudget (s : State) : State :=
  let b := budgetNow s
  if b = s.dec.applied then s else raise 217 0 (s.onDec fun d => { d with applied := b })

/-- The words of one vat entry, and V. -/
def vatEntryWords (p : Profile) : Nat := (blockFrameBits p.code + 127) / 128
def vatEntries (p : Profile) : Nat := min 2048 (229376 / vatEntryWords p)

/-- The deadline limit in 10 ns: (V - 16) / R_b. -/
def deadlineLimit (p : Profile) : Nat :=
  (vatEntries p - 16) * 4194304 / (p.rate * frameBlocks p * 10)

/-- The applied deadline follows DEADLINE and the limit. -/
def settleDeadline (s : State) : State :=
  let lim := deadlineLimit s.prof
  let clamp := decide (lim < s.dec.cfg.deadline)
  let was := s.dec.clamped
  let s := s.onDec fun d => { d with appliedDeadline := min d.cfg.deadline lim, clamped := clamp }
  if clamp && !was then raise 225 0 s else s

/-- The fabric follows a new profile or configuration. -/
def settleDecoder (s : State) : State := settleDeadline (settleBudget s)

/-! ### Times in ADC samples -/

/-- The deadline of an arrival: the applied deadline in samples. -/
def deadlineOf (s : State) (arrival : Nat) : Nat :=
  arrival + (nearest ((s.dec.appliedDeadline * s.prof.rate * 45 : Nat) / (16 : Rat))).toNat

/-- 0.770 µs: one iteration and the vat write. -/
def iterationMargin (s : State) : Rat := (s.prof.rate * 3465 : Nat) / (16 : Rat)

/-- n decoder cycles at 1.357142857 GHz. -/
def decoderCycles (s : State) (n : Nat) : Rat := (n * s.prof.rate * 63 : Nat) / (304 : Rat)

/-- An iteration started `t` samples after `now` cannot end in time (R237 row 6, R242). -/
def tooLate (s : State) (now : Nat) (t : Rat) (b : DecBlock) : Bool :=
  decide ((b.deadline : Nat) < (now : Rat) + t + iterationMargin s)

/-! ### Level flags (R262) -/

def accountNegative (d : Dec) : Bool := decide (d.account < 0)
def vatNearFull (s : State) : Bool := decide (vatEntries s.prof - 64 < s.dec.blocks.length)

/-- ACCOUNT_NEGATIVE and VAT_NEAR_FULL follow their bits. -/
def settleFabricLevels (s : State) : State :=
  setLevel 226 (vatNearFull s) (setLevel 211 (accountNegative s.dec) s)

end Sys2Proof.Machine
end

