-- ==== Sys2Proof/Machine/Primitives.lean ====
section
/-!
DEFINITION. The cryptographic functions that the spec names by their standards: SHA-256 and
SHA-384 (FIPS 180-4), HMAC (FIPS 198-1), AES-256 (FIPS 197), key unwrap (RFC 3394), GCM
(SP 800-38D), and P-384 with ECDH and ECDSA (SP 800-56A, FIPS 186-5). PRESUMED (log 11): their
definitions are the standards' and not the spec's text.
-/

namespace Sys2Proof.Machine

/-! ### SHA-2 -/

/-- The 64-bit round constants; SHA-256 takes the upper halves of the first 64. -/
def shaConstants : List Nat :=
  [0x428A2F98D728AE22, 0x7137449123EF65CD, 0xB5C0FBCFEC4D3B2F, 0xE9B5DBA58189DBBC,
   0x3956C25BF348B538, 0x59F111F1B605D019, 0x923F82A4AF194F9B, 0xAB1C5ED5DA6D8118,
   0xD807AA98A3030242, 0x12835B0145706FBE, 0x243185BE4EE4B28C, 0x550C7DC3D5FFB4E2,
   0x72BE5D74F27B896F, 0x80DEB1FE3B1696B1, 0x9BDC06A725C71235, 0xC19BF174CF692694] ++
  [0xE49B69C19EF14AD2, 0xEFBE4786384F25E3, 0x0FC19DC68B8CD5B5, 0x240CA1CC77AC9C65,
   0x2DE92C6F592B0275, 0x4A7484AA6EA6E483, 0x5CB0A9DCBD41FBD4, 0x76F988DA831153B5,
   0x983E5152EE66DFAB, 0xA831C66D2DB43210, 0xB00327C898FB213F, 0xBF597FC7BEEF0EE4,
   0xC6E00BF33DA88FC2, 0xD5A79147930AA725, 0x06CA6351E003826F, 0x142929670A0E6E70] ++
  [0x27B70A8546D22FFC, 0x2E1B21385C26C926, 0x4D2C6DFC5AC42AED, 0x53380D139D95B3DF,
   0x650A73548BAF63DE, 0x766A0ABB3C77B2A8, 0x81C2C92E47EDAEE6, 0x92722C851482353B,
   0xA2BFE8A14CF10364, 0xA81A664BBC423001, 0xC24B8B70D0F89791, 0xC76C51A30654BE30,
   0xD192E819D6EF5218, 0xD69906245565A910, 0xF40E35855771202A, 0x106AA07032BBD1B8] ++
  [0x19A4C116B8D2D0C8, 0x1E376C085141AB53, 0x2748774CDF8EEB99, 0x34B0BCB5E19B48A8,
   0x391C0CB3C5C95A63, 0x4ED8AA4AE3418ACB, 0x5B9CCA4F7763E373, 0x682E6FF3D6B2B8A3,
   0x748F82EE5DEFB2FC, 0x78A5636F43172F60, 0x84C87814A1F0AB72, 0x8CC702081A6439EC,
   0x90BEFFFA23631E28, 0xA4506CEBDE82BDE9, 0xBEF9A3F7B2C67915, 0xC67178F2E372532B] ++
  [0xCA273ECEEA26619C, 0xD186B8C721C0C207, 0xEADA7DD6CDE0EB1E, 0xF57D4F7FEE6ED178,
   0x06F067AA72176FBA, 0x0A637DC5A2C898A6, 0x113F9804BEF90DAE, 0x1B710B35131C471B,
   0x28DB77F523047D84, 0x32CAAB7B40C72493, 0x3C9EBE0A15C9BEBC, 0x431D67C49C100D4C,
   0x4CC5D4BECB3E42B6, 0x597F299CFC657E2A, 0x5FCB6FAB3AD6FAEC, 0x6C44198C4A475817]

/-- The initial values of SHA-256, as upper halves. -/
def sha256Init : List Nat :=
  [0x6A09E667F3BCC908, 0xBB67AE8584CAA73B, 0x3C6EF372FE94F82B, 0xA54FF53A5F1D36F1,
   0x510E527FADE682D1, 0x9B05688C2B3E6C1F, 0x1F83D9ABFB41BD6B, 0x5BE0CD19137E2179]

/-- The initial values of SHA-384. -/
def sha384Init : List Nat :=
  [0xCBBB9D5DC1059ED8, 0x629A292A367CD507, 0x9159015A3070DD17, 0x152FECD8F70E5939,
   0x67332667FFC00B31, 0x8EB44A8768581511, 0xDB0C2E0D64F98FA7, 0x47B5481DBEFA4FA4]

/-- What distinguishes the two: the width of a word, the rounds, and the rotations and shifts of
the four functions. Words are numbers below 2^w. -/
structure ShaKind where
  w : Nat
  rounds : Nat
  big0 : Nat × Nat × Nat
  big1 : Nat × Nat × Nat
  small0 : Nat × Nat × Nat
  small1 : Nat × Nat × Nat

def sha32 : ShaKind :=
  { w := 32, rounds := 64, big0 := (2, 13, 22), big1 := (6, 11, 25), small0 := (7, 18, 3), small1 := (17, 19, 10) }

def sha64 : ShaKind :=
  { w := 64, rounds := 80, big0 := (28, 34, 39), big1 := (14, 18, 41), small0 := (1, 8, 7), small1 := (19, 61, 6) }

/-- The word x, taken twice side by side, whose right shift by n is the rotation in its low bits. -/
def twice (k : ShaKind) (x : Nat) : Nat := x * 2 ^ k.w + x

/-- Three rotations added without carry. -/
def rotSum (k : ShaKind) (r : Nat × Nat × Nat) (x : Nat) : Nat :=
  (twice k x >>> r.1 ^^^ twice k x >>> r.2.1 ^^^ twice k x >>> r.2.2) % 2 ^ k.w

/-- Two rotations and a shift added without carry. -/
def rotShift (k : ShaKind) (r : Nat × Nat × Nat) (x : Nat) : Nat :=
  (twice k x >>> r.1 ^^^ twice k x >>> r.2.1 ^^^ x >>> r.2.2) % 2 ^ k.w

/-- The message schedule, newest word first. -/
def shaSchedule (k : ShaKind) : Nat → List Nat → List Nat
  | 0, l => l
  | n + 1, l =>
    shaSchedule k n ((rotShift k k.small1 (l.getD 1 0) + l.getD 6 0 +
      rotShift k k.small0 (l.getD 14 0) + l.getD 15 0) % 2 ^ k.w :: l)

/-- One round on the eight working words, with the round's constant and message word. -/
def shaRound (k : ShaKind) (v : List Nat) (x : Nat × Nat) : List Nat :=
  match v with
  | [a, b, c, d, e, f, g, h] =>
    let t1 := h + rotSum k k.big1 e + ((e &&& f) ^^^ ((2 ^ k.w - 1 - e) &&& g)) + x.1 + x.2
    let t2 := rotSum k k.big0 a + ((a &&& b) ^^^ (a &&& c) ^^^ (b &&& c))
    [(t1 + t2) % 2 ^ k.w, a, b, c, (d + t1) % 2 ^ k.w, e, f, g]
  | _ => v

/-- The hash value after one block of words. -/
def shaBlock (k : ShaKind) (hash block : List Nat) : List Nat :=
  let ws := (shaSchedule k (k.rounds - 16) block.reverse).reverse
  let ks := shaConstants.map fun c => c >>> (64 - k.w)
  List.zipWith (fun a b => (a + b) % 2 ^ k.w) hash ((ks.zip ws).foldl (shaRound k) hash)

/-- Bytes in groups of n. -/
def groups (n : Nat) : Nat → List Byte → List (List Byte)
  | 0, _ => []
  | m + 1, l => l.take n :: groups n m (l.drop n)

/-- The padded message: a 1 bit, zeros and the length, to whole blocks of 16 words. -/
def shaPad (w : Nat) (m : List Byte) : List Byte :=
  let block := 2 * w
  let lenBytes := w / 4
  let tail := (m.length + 1 + lenBytes) % block
  m ++ [0x80] ++ List.replicate (if tail = 0 then 0 else block - tail) 0 ++ natBe lenBytes (8 * m.length)

/-- The digest before truncation. -/
def shaHash (k : ShaKind) (init : List Nat) (m : List Byte) : List Byte :=
  let p := shaPad k.w m
  let h := (groups (2 * k.w) (p.length / (2 * k.w)) p).foldl
    (fun h b => shaBlock k h ((groups (k.w / 8) 16 b).map beNat)) (init.map fun c => c >>> (64 - k.w))
  h.flatMap (natBe (k.w / 8))

def sha256 (m : List Byte) : List Byte := shaHash sha32 sha256Init m
def sha384 (m : List Byte) : List Byte := (shaHash sha64 sha384Init m).take 48

/-- HMAC-SHA-256: key, message. -/
def hmacSha256 (key m : List Byte) : List Byte :=
  let k := if 64 < key.length then sha256 key else key
  let k := k ++ List.replicate (64 - k.length) 0
  sha256 ((k.map (· ^^^ 0x5C)) ++ sha256 ((k.map (· ^^^ 0x36)) ++ m))

/-! ### AES-256 -/

/-- The S-box of FIPS 197, entry 0 in the most significant byte. -/
def sboxTable : Nat :=
  0x637C777BF26B6FC53001672BFED7AB76CA82C97DFA5947F0ADD4A2AF9CA472C0B7FD9326363FF7CC34A5E5F171D8311504C723C31896059A071280E2EB27B275 * 2 ^ 1536 +
  0x09832C1A1B6E5AA0523BD6B329E32F8453D100ED20FCB15B6ACBBE394A4C58CFD0EFAAFB434D338545F9027F503C9FA851A3408F929D38F5BCB6DA2110FFF3D2 * 2 ^ 1024 +
  0xCD0C13EC5F974417C4A77E3D645D197360814FDC222A908846EEB814DE5E0BDBE0323A0A4906245CC2D3AC629195E479E7C8376D8DD54EA96C56F4EA657AAE08 * 2 ^ 512 +
  0xBA78252E1CA6B4C6E8DD741F4BBD8B8A703EB5664803F60E613557B986C11D9EE1F8981169D98E949B1E87E9CE5528DF8CA1890DBFE6426841992D0FB054BB16

/-- The inverse S-box of FIPS 197. -/
def sboxInvTable : Nat :=
  0x52096AD53036A538BF40A39E81F3D7FB7CE339829B2FFF87348E4344C4DEE9CB547B9432A6C2233DEE4C950B42FAC34E082EA16628D924B2765BA2496D8BD125 * 2 ^ 1536 +
  0x72F8F66486689816D4A45CCC5D65B6926C704850FDEDB9DA5E154657A78D9D8490D8AB008CBCD30AF7E45805B8B34506D02C1E8FCA3F0F02C1AFBD0301138A6B * 2 ^ 1024 +
  0x3A9111414F67DCEA97F2CFCEF0B4E67396AC7422E7AD3585E2F937E81C75DF6E47F11A711D29C5896FB7620EAA18BE1BFC563E4BC6D279209ADBC0FE78CD5AF4 * 2 ^ 512 +
  0x1FDDA8338807C731B11210592780EC5F60517FA919B54A0D2DE57A9F93C99CEFA0E03B4DAE2AF5B0C8EBBB3C83539961172B047EBA77D626E169146355210C7D

/-- n bytes of a number, byte 0 the most significant, each through a table after taking byte
i's place from byte `p i`. -/
def tableBytes (table n : Nat) (p : Nat → Nat) (x : Nat) : Nat :=
  (List.range n).foldl (fun v i =>
    v * 256 + table >>> (8 * (255 - x >>> (8 * (n - 1 - p i)) % 256)) % 256) 0

/-- SubBytes and ShiftRows together, and their inverses. The state is one number, byte 0 the most
significant and bytes 4c to 4c + 3 its column c. -/
def subShift (x : BitVec 128) : BitVec 128 :=
  BitVec.ofNat 128 (tableBytes sboxTable 16 (fun i => 4 * ((i / 4 + i % 4) % 4) + i % 4) x.toNat)
def subShiftInv (x : BitVec 128) : BitVec 128 :=
  BitVec.ofNat 128 (tableBytes sboxInvTable 16 (fun i => 4 * ((i / 4 + 4 - i % 4) % 4) + i % 4) x.toNat)

/-- Every byte times 2 in the field of AES. -/
def xtimes (x : BitVec 128) : BitVec 128 :=
  ((x &&& 0x7F7F7F7F7F7F7F7F7F7F7F7F7F7F7F7F#128) <<< 1) ^^^
    ((x >>> 7 &&& 0x01010101010101010101010101010101#128) * 0x1B#128)

/-- Every column turned up by one byte. -/
def turnColumns (x : BitVec 128) : BitVec 128 :=
  (x <<< 8 &&& 0xFFFFFF00FFFFFF00FFFFFF00FFFFFF00#128) |||
    (x >>> 24 &&& 0x000000FF000000FF000000FF000000FF#128)

/-- MixColumns: 2, 3, 1 and 1 times a byte and the three that follow it in its column. -/
def mixColumns (x : BitVec 128) : BitVec 128 :=
  let y := turnColumns x
  let z := turnColumns y
  xtimes (x ^^^ y) ^^^ y ^^^ z ^^^ turnColumns z

/-- Its inverse: 14, 11, 13 and 9 times, which is MixColumns after 5 times the byte and 4 times the
second that follows it. -/
def mixColumnsInv (x : BitVec 128) : BitVec 128 :=
  mixColumns (x ^^^ xtimes (xtimes (x ^^^ turnColumns (turnColumns x))))

/-- SubWord, and RotWord before it where the flag is set. -/
def subWord (rot : Bool) (w : Nat) : Nat :=
  tableBytes sboxTable 4 (fun i => if rot then (i + 1) % 4 else i) w

/-- The next key-schedule words, newest first: n more, after i words. -/
def aesSchedule : Nat → Nat → List Nat → List Nat
  | 0, _, l => l
  | n + 1, i, l =>
    let t := l.getD 0 0
    let t := if i % 8 = 0 then subWord true t ^^^ 2 ^ (i / 8 - 1 + 24)
      else if i % 8 = 4 then subWord false t else t
    aesSchedule n (i + 1) ((l.getD 7 0 ^^^ t) :: l)

/-- Words in fours, as blocks. -/
def wordFours : List Nat → List (BitVec 128)
  | a :: b :: c :: d :: l => BitVec.ofNat 128 (((a * 2 ^ 32 + b) * 2 ^ 32 + c) * 2 ^ 32 + d) :: wordFours l
  | _ => []

/-- The fifteen round keys of a key of 256 bits. -/
def roundKeys (key : Nat) : List (BitVec 128) :=
  wordFours (aesSchedule 52 8 ((List.range 8).map fun i => key >>> (32 * i) % 2 ^ 32)).reverse

/-- AES-256 of one block, byte 0 most significant in key and block. -/
def aes256 (key : BitVec 256) (block : BitVec 128) : BitVec 128 :=
  let ks := roundKeys key.toNat
  let x := ((ks.drop 1).take 13).foldl (fun x k => mixColumns (subShift x) ^^^ k)
    (block ^^^ ks.getD 0 0)
  subShift x ^^^ ks.getD 14 0

/-- The inverse cipher under round keys. -/
def aesDecrypt (ks : List (BitVec 128)) (block : BitVec 128) : BitVec 128 :=
  let x := ((ks.drop 1).take 13).reverse.foldl (fun x k => mixColumnsInv (subShiftInv x ^^^ k))
    (block ^^^ ks.getD 14 0)
  subShiftInv x ^^^ ks.getD 0 0

/-- One step t of the unwrap on the integrity word and the registers. -/
def unwrapStep (ks : List (BitVec 128)) (n : Nat) (x : Nat × List Nat) (t : Nat) : Nat × List Nat :=
  let i := (t - 1) % n
  let b := (aesDecrypt ks (BitVec.ofNat 128 ((x.1 ^^^ t) * 2 ^ 64 + x.2.getD i 0))).toNat
  (b / 2 ^ 64, x.2.set i (b % 2 ^ 64))

/-- AES key unwrap: key-encryption key, wrapped key; none on an integrity failure. -/
def keyUnwrap (key wrapped : List Byte) : Option (List Byte) :=
  let n := wrapped.length / 8 - 1
  let x := ((List.range (6 * n)).map fun k => 6 * n - k).foldl (unwrapStep (roundKeys (beNat key)) n)
    (beNat (wrapped.take 8), (groups 8 n (wrapped.drop 8)).map beNat)
  if x.1 = 0xA6A6A6A6A6A6A6A6 then some (x.2.flatMap (natBe 8)) else none

/-! ### GCM -/

/-- One step of the GHASH product: the product so far and the shifted factor. -/
def ghashStep (x : BitVec 128 × BitVec 128) (b : Bool) : BitVec 128 × BitVec 128 :=
  (if b then x.1 ^^^ x.2 else x.1,
   (x.2 >>> 1) ^^^ (if x.2.getLsbD 0 then 0xE1#128 <<< 120 else 0))

def ghashMul (x y : BitVec 128) : BitVec 128 :=
  ((bitsMsb 128 x.toNat).foldl ghashStep (0, y)).1

/-- Bits as 128-bit blocks, the last one filled with zeros. -/
def bitBlocks : Nat → List Bool → List (BitVec 128)
  | 0, _ => []
  | n + 1, l =>
    let h := l.take 128
    BitVec.ofNat 128 (msbNat h * 2 ^ (128 - h.length)) :: bitBlocks n (l.drop 128)

def blocksOf (l : List Bool) : List (BitVec 128) := bitBlocks ((l.length + 127) / 128) l

/-- The tag: key, initial counter block, additional data, ciphertext. -/
def gcmTag (key : BitVec 256) (j0 : BitVec 128) (aad cipher : List Bool) : BitVec 128 :=
  let h := aes256 key 0
  let s := (blocksOf aad ++ blocksOf cipher ++
    [BitVec.ofNat 128 (aad.length * 2 ^ 64 + cipher.length)]).foldl (fun y x => ghashMul (y ^^^ x) h) 0
  s ^^^ aes256 key j0

/-- Counter block i: the low 32 bits advance. -/
def counterBlock (j0 : BitVec 128) (i : Nat) : BitVec 128 :=
  BitVec.ofNat 128 (j0.toNat / 2 ^ 32 * 2 ^ 32 + (j0.toNat + i) % 2 ^ 32)

/-- The keystream: key, initial counter block, number of bits. -/
def gcmKeystream (key : BitVec 256) (j0 : BitVec 128) (n : Nat) : List Bool :=
  (((List.range ((n + 127) / 128)).flatMap fun i =>
    bitsMsb 128 (aes256 key (counterBlock j0 (i + 1))).toNat)).take n

/-! ### P-384 -/

def p384P : Nat := 2 ^ 384 - 2 ^ 128 - 2 ^ 96 + 2 ^ 32 - 1
def p384B : Nat :=
  0xB3312FA7E23EE7E4988E056BE3F82D19181D9C6EFE8141120314088F5013875AC656398D8A2ED19D2A85C8EDD3EC2AEF
def p384N : Nat :=
  0xFFFFFFFFFFFFFFFFFFFFFFFFFFFFFFFFFFFFFFFFFFFFFFFFC7634D81F4372DDF581A0DB248B0A77AECEC196ACCC52973
def p384G : Nat × Nat :=
  (0xAA87CA22BE8B05378EB1C71EF320AD746E1D3B628BA79B9859F741E082542A385502F25DBF55296C3A545E3872760AB7,
   0x3617DE4A96262C6F5D9E98BF9292DC29F8F41DBD289A147CE9DA3113B5F0B8C00A60B1CE1D7E819D7A431D7C90EA0E5F)

/-- The inverse modulo a prime: the (m - 2)th power. -/
def invMod (a m : Nat) : Nat :=
  (bitsMsb 384 (m - 2)).foldl (fun v x => let q := v * v % m; if x then q * a % m else q) 1

/-- A point of the curve; none is the point at infinity. -/
abbrev CurvePoint := Option (Nat × Nat)

/-- The sum on the line of a given slope. -/
def onSlope (l : Nat) (a b : Nat × Nat) : Nat × Nat :=
  let x := (l * l + 2 * p384P - a.1 - b.1) % p384P
  (x, (l * (a.1 + p384P - x) + p384P - a.2) % p384P)

def pointAdd (a b : CurvePoint) : CurvePoint :=
  match a, b with
  | none, _ => b
  | _, none => a
  | some a, some b =>
    if a.1 = b.1 then
      if (a.2 + b.2) % p384P = 0 then none
      else some (onSlope ((3 * a.1 * a.1 + p384P - 3) * invMod (2 * a.2) p384P % p384P) a b)
    else some (onSlope ((b.2 + p384P - a.2) * invMod (b.1 + p384P - a.1) p384P % p384P) a b)

def pointMul (k : Nat) (q : CurvePoint) : CurvePoint :=
  (bitsMsb 384 k).foldl (fun v x => let d := pointAdd v v; if x then pointAdd d q else d) none

/-- The coordinates of an uncompressed point of the curve. -/
def pointOf (q : List Byte) : CurvePoint :=
  let x := beNat ((q.drop 1).take 48)
  let y := beNat (q.drop 49)
  if q.length = 97 ∧ q.getD 0 0 = 4 ∧ x < p384P ∧ y < p384P ∧
      y * y % p384P = (x * x * x + (p384P - 3) * x + p384B) % p384P then some (x, y) else none

def p384OnCurve (q : List Byte) : Bool := (pointOf q).isSome

/-- The uncompressed point of a private scalar. -/
def p384Public (d : List Byte) : List Byte :=
  match pointMul (beNat d) (some p384G) with
  | some a => [4] ++ natBe 48 a.1 ++ natBe 48 a.2
  | none => []

/-- The shared secret: the x-coordinate of scalar times point. -/
def ecdh (d q : List Byte) : List Byte :=
  match pointMul (beNat d) (pointOf q) with
  | some a => natBe 48 a.1
  | none => []

/-- ECDSA: public key, digest, signature. -/
def ecdsaVerify (key digest sig : List Byte) : Bool :=
  let r := beNat (sig.take 48)
  let s := beNat (sig.drop 48)
  let w := invMod s p384N
  let v := pointAdd (pointMul (beNat digest * w % p384N) (some p384G))
    (pointMul (r * w % p384N) (pointOf key))
  p384OnCurve key && sig.length == 96 && decide (0 < r) && decide (r < p384N) && decide (0 < s) &&
    decide (s < p384N) &&
    (match v with
     | some a => a.1 % p384N == r
     | none => false)

end Sys2Proof.Machine
end

