-- ==== Sys2Proof/Machine/Jobs.lean ====
section
/-!
DEFINITION. Outstanding commands: how one is found, taken (R395), checked (R393), accepted,
committed (R397), completed and withdrawn (R400), shared by every opcode.
-/

namespace Sys2Proof.Machine

/-! ### The list of outstanding commands -/

def findJob (j : Nat) (s : State) : Option Job := s.cmd.jobs.find? fun x => x.id = j

/-- Ring commands that hold their tag, chain and barrier: those PERST_N has not marked (R394). -/
def Job.live (j : Job) : Bool := !j.mailbox && !j.discarded

/-- The commands fetched before `j`. -/
def earlierIn (jobs : List Job) (j : Job) : List Job := jobs.filter fun x => x.id < j.id
def earlier (j : Job) (s : State) : List Job := earlierIn s.cmd.jobs j

def sameChain (a b : Job) : Bool := a.live && b.live && a.ring == b.ring && a.key == b.key && a.key != 0

/-- Accepted, or its outcome decided. -/
def Job.pastChecks (j : Job) : Bool := j.stage = .running || j.stage = .working || j.stage = .decided

/-- The command may be taken (R389 BARRIER, R395, R399). -/
def takeableIn (jobs : List Job) (j : Job) : Bool :=
  if j.mailbox || j.discarded then true
  else
    let before := (earlierIn jobs j).filter fun x => x.live && x.ring == j.ring
    before.all (fun x => !sameChain x j || x.pastChecks) &&
      ((j.opcode == 0x0102 && j.key == 0) || (!j.barrier || before.isEmpty) &&
        before.all (fun x => !x.barrier))
def takeable (j : Job) (s : State) : Bool := takeableIn s.cmd.jobs j

/-- An officer's command whose checks are still to come (R120). -/
def Job.awaitsOfficerChecks (j : Job) : Bool :=
  (officerOp j.opcode || j.auth) && j.stage == .fetched && j.core.isSome

/-- The officer's commands whose checks are still to come, in the order in which they were taken: those
taken before, then those that may be taken now, in fetch order. -/
def noteTakes (jobs : List Job) (takes : List Nat) : List Nat :=
  let open' := jobs.filter Job.awaitsOfficerChecks
  let old := takes.filter fun k => open'.any fun x => x.id == k
  old ++ (open'.filter fun x => takeableIn jobs x && !old.contains x.id).map fun x => x.id

/-- The command has been accepted (R393). -/
def Job.accepted (j : Job) : Bool :=
  match j.stage with
  | .fetched => false
  | .decided => j.committed || j.status == stOk || j.status == stAlreadyDone
  | _ => true

/-- The commands of `new` that were not accepted in `old` and are now. -/
def newlyAccepted (old new : List Job) : List Job :=
  new.filter fun x => x.accepted && !(old.any fun y => y.id == x.id && y.accepted)

/-- An event of a command: its issuer, its privilege, its opcode and its tag (R472). -/
def commandEvent (code : BitVec 12) (j : Job) : PmcEvent where
  code := code
  master := if j.mailbox then 1 else 0
  priv := j.priv
  addr := j.opcode.setWidth 32
  id := j.tag.setWidth 32

/-- The outstanding commands become `jobs`. -/
def setJobs (jobs : List Job) (s : State) : State :=
  noteEvents ((newlyAccepted s.cmd.jobs jobs).map (commandEvent 0x001)) (s.onCmd fun c =>
    { c with jobs := jobs, takes := noteTakes jobs c.takes })

/-- A key is loaded or erased, or an epoch switched, by a command: event 0x603 of each circuit. -/
def noteKeys (j : Job) (circuits : List Nat) (s : State) : State :=
  noteEvents (circuits.map fun c =>
    { commandEvent 0x603 j with priv := 1, addr := word c }) s

def modJob (j : Nat) (f : Job → Job) (s : State) : State :=
  setJobs (s.cmd.jobs.map fun x => if x.id = j then f x else x) s

def dropJob (j : Nat) (s : State) : State := setJobs (s.cmd.jobs.filter fun x => x.id ≠ j) s

/-- No officer's command that was taken before `j` still awaits its checks (R120). -/
def officerTurn (j : Job) (s : State) : Bool :=
  !j.awaitsOfficerChecks || s.cmd.takes.head?.all fun k => k == j.id

/-! ### Outcomes (R391, R392, R397) -/

/-- Decide a command's outcome: status, DETAIL and result. Without a commit the completion's
timestamp is the time of the decision. -/
def finish (j : Nat) (status : BitVec 8) (detail : Word) (result : List Word) (s : State) : State :=
  modJob j (fun x => if x.stage = .decided then x else
    { x with stage := .decided, status := status, detail := detail, result := result
             stamp := if x.committed then x.stamp else s.tim.counter
             decidedAt := s.evt.period, decidedTime := s.tim.counter
             decidedInvalid := !s.tim.valid }) s

/-- ST_OK with a result. -/
def finishOk (j : Nat) (result : List Word) (s : State) : State := finish j stOk 0 result s

/-- Commit a command at a given time (R397). -/
def commitAt (t : Nat) (j : Nat) (s : State) : State :=
  modJob j (fun x => { x with committed := true, stamp := t, stage := .working }) s

/-- Commit at the local counter's present value. -/
def commit (j : Nat) (s : State) : State := commitAt s.tim.counter j s

/-- Commit and complete ST_OK with a result. -/
def commitDone (j : Nat) (result : List Word) (s : State) : State := finishOk j result (commit j s)

/-- End a command by a firmware fault: the front end completes it (R403, R404, R433). -/
def faultJob (core : Nat) (j : Nat) (s : State) : State :=
  modJob j (fun x => { x with front := true }) (finish j stAbortedFault (word core) [] s)

/-! ### Withdrawal of pending work (R400 row 6, R405, R403 step 3) -/

def dropPmc (j : Nat) (p : Tab Pmc) : Tab Pmc :=
  tabMap {} (fun x => { x with pending :=
    match x.pending with
    | some q => if q.1 = .packet j then none else some q
    | none => none }) p

def dropArmed (j : Nat) (o : Tab ClkOut) : Tab ClkOut :=
  tabMap {} (fun x => { x with armed :=
    match x.armed with
    | some q => if q.job = j then none else some q
    | none => none }) o

/-- The owning block withdraws the uncommitted work of command `j`. -/
def withdraw (j : Nat) (s : State) : State :=
  let s := s.onTim fun t => { t with pendingSets := t.pendingSets.filter fun p => p.job ≠ j }
  let s := s.onDpll fun d => { d with out := dropArmed j d.out }
  let s := s.onPmu fun p => { p with
    pmc := dropPmc j p.pmc
    snapJobs := p.snapJobs.filter fun q => q.1 ≠ j
    bwPending := p.bwPending.filter fun q => q.1 ≠ j }
  let s := s.onCmd fun c => { c with core := tabMap {} (fun x =>
    if x.returnJob = some j then { x with state := .offline, returnJob := none } else x) c.core }
  let s := s.onFrm fun f =>
    if (f.switch.map fun w => w.job) = some j then { f with switch := none } else f
  let s := s.onTx fun t => if (t.update.map fun u => u.1) = some j then { t with update := none } else t
  let s := s.onTx fun t => { t with hostQueue := t.hostQueue.filter fun q => q.job ≠ some j }
  let s := s.onCry fun c => { c with switches := c.switches.filter fun w => w.job ≠ j }
  let s := s.onRx fun r => { r with pend := r.pend.filter fun q => q.1 ≠ j }
  let s := s.onDec fun d => { d with
    cfgPend := d.cfgPend.filter fun q => q.1 ≠ j
    sharesPend := d.sharesPend.filter fun q => q.1 ≠ j
    churn := tabMap {} (fun x => { x with
      draining := x.draining.filter fun q => q ≠ j
      returning := x.returning.filter fun q => q ≠ j }) d.churn }
  let s := s.onMon fun m => if (m.pend.map fun p => p.1) = some j then { m with pend := none } else m
  let s := s.onSkim fun k => { k with syncs := k.syncs.filter fun q => q.1 ≠ some j }
  { s with lane := tabMap {} (fun x => { x with waiting := x.waiting.filter fun q => q ≠ j }) s.lane }

/-- End an uncommitted command with a status and withdraw its work. -/
def cancel (j : Nat) (status : BitVec 8) (detail : Word) (s : State) : State :=
  finish j status detail [] (withdraw j s)

/-! ### Officer authentication (R119, R120) -/

/-- The trailer's SEQ. -/
def Job.trailerSeq (j : Job) : Quad :=
  ((j.params.getD (j.params.length - 9) 0).append (j.params.getD (j.params.length - 10) 0))

/-- The MAC of the trailer verifies under the officer authentication key. -/
def macOk (oak : List Byte) (j : Job) : Bool :=
  let bs := wordBytes (headerWords j ++ j.params)
  decide (10 ≤ j.params.length) &&
    hmacSha256 oak (bs.take (bs.length - 32)) == bs.drop (bs.length - 32)

/-- CRY_AUTH_FAIL counts, and AUTH_FAIL is raised, at each ST_AUTH_FAIL of an officer's command
(R120, R136). -/
def authFailed (s : State) : State := raiseBy true 290 0 (errAdd 0xE0018 1 s)

/-- Steps 1 to 3 of R120: none when the command passes, with its sequence number consumed. -/
def checkAuth (j : Job) (s : State) : Option State :=
  match s.cry.officer with
  | none => none
  | some o =>
    if macOk o.1 j && decide (s.cry.seq < j.trailerSeq) then
      some (s.onCry fun c => { c with seq := j.trailerSeq })
    else none

/-! ### Running an opcode (R393 steps 5 to 8) -/

/-- What an opcode's own checks and effect answer. -/
inductive Verdict where
  /-- Refused without effect. -/
  | refuse (r : Refused)
  /-- Refused, with the effects the chapter states. -/
  | refuseWith (r : Refused) (s : State)
  /-- Committed at acceptance and complete: ST_OK with a result. -/
  | complete (s : State) (result : List Word)
  /-- Complete without a commit: ST_OK with a result. -/
  | answer (s : State) (result : List Word)
  /-- Accepted; the commit is still to come. -/
  | accept (s : State)
  /-- Committed; the work is still to end. -/
  | work (s : State)
  /-- The command's own rule has decided the job. -/
  | decided (s : State)

/-- Refuse a command: its outcome is decided, nothing else changes; an officer's ST_AUTH_FAIL
counts. -/
def refuse (j : Job) (r : Refused) (s : State) : State :=
  let s := finish j.id r.1 r.2 [] s
  if r.1 = stAuthFail ∧ j.priv = 1 then authFailed s else s

/-- A failure of R120 itself carries step 5. -/
def authRefusal : Refused := (stAuthFail, stepDetail 5 0)

/-- Carry out a verdict. -/
def conclude (j : Job) (v : Verdict) (s : State) : State :=
  match v with
  | .refuse r => refuse j r s
  | .refuseWith r s' => refuse j r s'
  | .complete s' res => commitDone j.id res s'
  | .answer s' res => finishOk j.id res s'
  | .accept s' => modJob j.id (fun x => { x with stage := .running }) s'
  | .work s' => commit j.id s'
  | .decided s' => s'

/-- Step 5: none when it fails, otherwise the state with any sequence number consumed. -/
def step5 (j : Job) (s : State) : Option State :=
  if j.auth then checkAuth j s
  else if trailerOp j.opcode then none
  else some s

/-- The core to which the command is bound is in service and may take it now. -/
def ready (op : Nat) (j : Job) (s : State) : Bool :=
  j.stage = .fetched && j.opcode == opOf op && s.cmd.resetJob.isNone && takeable j s &&
    officerTurn j s &&
    (match j.core with
     | some c => coreInService s c
     | none => false)

/-- Steps 5 to 8 of R393 and the effect: `need` parameter words, then the opcode's body. -/
def runOp (op need : Nat) (body : Job → State → Verdict) (j : Nat) (s : State) : State :=
  match findJob j s with
  | none => s
  | some job =>
    if ready op job s then
      match step5 job s with
      | none => refuse job authRefusal s
      | some s1 =>
        if !opModes job.opcode s1.pwr.mode s1.pwr.pRunning then refuse job (refMode s1) s1
        else if job.body.length < need then refuse job (badParam job.body.length) s1
        else conclude job (body job s1) s1
    else s

end Sys2Proof.Machine
end

