-- ==== Sys2Proof/Machine/Memory.lean ====
section
/-!
DEFINITION. The protected memories word by word: geometry of the groups (R443), valid and
poison bits (R445), what a check finds (R444, R447), the log table (R450) and laps (R456).
What poison does in each memory stands in Integrity.lean.
-/

namespace Sys2Proof.Machine

/-- The key of word `a` of group `g` (R472 numbers words in the same way). -/
def memKey (g a : Nat) : Nat := g * 2 ^ 24 + a

/-- Words of a coefficient set, half of group 9 (R443). -/
def coeffWords : Nat := 65536

/-- The half of group 9 that a word belongs to. -/
def coeffHalf (a : Nat) : Bool := decide (coeffWords ≤ a)

/-- A word of group 9 that nothing has written on its own: the coefficient that its set was filled with,
unless the set is empty or the word has been invalidated since. -/
def coeffCell (m : Mem) (a : Nat) : MemCell :=
  match tabGet none m.coeffs (b2n (coeffHalf a)) with
  | some c =>
    if c.gone.any fun r => decide (r.1 ≤ a) && decide (a < r.2) then {}
    else { valid := true, data := (Config.coefficient c.dispersion (a % coeffWords)).setWidth 128 }
  | none => {}

def cellAt (s : State) (g a : Nat) : MemCell :=
  let c := tabGet {} s.mem.cells (memKey g a)
  if g = 9 ∧ c.valid = false then coeffCell s.mem a else c

def setCell (g a : Nat) (c : MemCell) (s : State) : State :=
  s.onMem fun m => { m with cells := tabSet {} m.cells (memKey g a) c }

/-- Every memory is in its canonical form. -/
def Memory.wf (m : Mem) : Bool := tabWf {} m.cells

/-- Words in a group (R443). -/
def groupWords : Nat → Nat
  | 0 => 2621440 | 1 => 229376 | 2 => 131072 | 3 => 131072 | 4 => 131072 | 5 => 131072
  | 6 => 16896 | 7 => 1024 | 8 => 1024 | 9 => 131072 | 10 => 131072 | 11 => 16384 | _ => 0

/-- The addresses of a group run below this: in group 0 the bank stands in [21:17] (R463). -/
def groupSpan (g : Nat) : Nat := if g = 0 then 2 ^ 22 else groupWords g

/-- Words in a bank of group 0 (R443). -/
def bankWords : Nat := 81920

/-- An address of the group names a word. -/
def addrOk (g a : Nat) : Bool :=
  decide (a < groupSpan g) && (g != 0 || decide (a % 2 ^ 17 < bankWords))

/-- The words of the n-th read of a scrubber or a pass in ascending order: in group 0 one of each bank, as
its pace counts them (R456; DEDUCED, log 159). -/
def readAddrs (g n : Nat) : List Nat :=
  if g = 0 then (List.range 32).map fun b => b * 2 ^ 17 + n else [n]

/-- The reads that take every word of a group. -/
def groupReads (g : Nat) : Nat := if g = 0 then bankWords else groupWords g

/-- Data bits of a group's code word (R443). -/
def groupData : Nat → Nat
  | 0 => 128 | 1 => 128 | 6 => 32 | 7 => 32 | 8 => 32 | _ => 64

/-- Check bits of a group's code word (R443). -/
def groupCheck : Nat → Nat
  | 0 => 9 | 1 => 9 | 6 => 7 | 7 => 7 | 8 => 7 | _ => 8

/-- The groups scrubbed only where code P runs (R443). -/
def groupCodeP (g : Nat) : Bool := [0, 1, 7, 8, 9, 10].contains g

/-- The code of R443 under which the group is scrubbed runs. -/
def groupRuns (s : State) (g : Nat) : Bool := s.codeS && (!groupCodeP g || s.codeP)

/-- The group's memory is clocked: the management domain of groups 2 to 6 and 11 runs in BOOT too, where
their scrubbers do not (R27, R443, R451). -/
def groupClocked (s : State) (g : Nat) : Bool :=
  if groupCodeP g then s.codeP else s.pwr.mode != .reset

def memGrp (s : State) (g : Nat) : MemGrp := tabGet {} s.mem.grp g
def onGrp (g : Nat) (f : MemGrp → MemGrp) (s : State) : State :=
  s.onMem fun m => { m with grp := tabMod {} m.grp g f }

/-- The logging regime of a group (R447). -/
def logging (s : State) (g : Nat) : Bool :=
  s.pwr.mode == .boot || s.pwr.mode == .maintenance || (memGrp s g).pass.isSome

/-! ### Writes and invalidation (R445) -/

/-- `n` words of a group are read or written (R479). -/
def touched (g n : Nat) (s : State) : State := carry (37 + g) (n * (groupData g / 8)) s

/-- A full-width write: fresh check bits, V = 1 and P = 0. -/
def writeWord (g a : Nat) (d : BitVec 128) (s : State) : State :=
  setCell g a { valid := true, poison := false, data := d, flips := 0 } (touched g 1 s)

/-- Write consecutive words. -/
def writeWords (g : Nat) : Nat → List (BitVec 128) → State → State
  | _, [], s => s
  | a, d :: ds, s => writeWords g (a + 1) ds (writeWord g a d s)

/-- The narrow writes of a port of groups 2 to 6 that have not drained, oldest first: the first eight are
its merge buffer, and a later one is a stalled master's (R452). -/
def mergeList (g : Nat) (s : State) : List MergeEntry :=
  if g = 6 then s.mem.merge else tabGet [] s.mem.ports g

def onMerge (g : Nat) (f : List MergeEntry → List MergeEntry) (s : State) : State :=
  s.onMem fun m => if g = 6 then { m with merge := f m.merge }
    else { m with ports := tabMod [] m.ports g f }

/-- A narrow write: merged into the entry of its word, or queued (R452). An entry keeps the master of its
first write (DESIGN CHOICE, log 160). -/
def addNarrow (a det : Nat) (d m : BitVec 128) : List MergeEntry → List MergeEntry
  | [] => [{ addr := a, data := d &&& m, mask := m, master := det }]
  | e :: l =>
    if e.addr = a then { e with data := (e.data &&& ~~~m) ||| (d &&& m), mask := e.mask ||| m } :: l
    else e :: addNarrow a det d m l

/-- A narrow write of the key store, which the datapath makes. -/
def narrowWrite (a : Nat) (d m : BitVec 128) (s : State) : State :=
  onMerge 6 (addNarrow a 9 d m) s

/-- The entry of a word among the eight of a merge buffer. -/
def narrowEntry (g a : Nat) (s : State) : Option MergeEntry :=
  ((mergeList g s).take 8).find? fun e => e.addr == a

/-- The word's entry leaves the merge buffer, and a stalled one takes its place. -/
def dropMerge (g a : Nat) (s : State) : State := onMerge g (fun l => l.filter fun e => e.addr != a) s

/-- Writes wait behind the eight entries of a port: their masters stall. -/
def portStalled (g : Nat) (s : State) : Bool := decide (8 < (mergeList g s).length)

/-- A word as the merge buffer's entry changes it. -/
def MergeEntry.apply (g : Nat) (e : MergeEntry) (old : BitVec 128) : BitVec 128 :=
  let m := e.mask &&& BitVec.ofNat 128 (2 ^ groupData g - 1)
  (old &&& ~~~m) ||| (e.data &&& m)

/-- An invalidation takes words out of a coefficient set. -/
def CoeffSet.without (lo hi : Nat) (c : Option CoeffSet) : Option CoeffSet :=
  c.map fun c => { c with gone := (lo, hi) :: c.gone }

/-- Clear V and P of the words `lo` up to `hi` of a group. -/
def invalidateRange (g lo hi : Nat) (s : State) : State :=
  s.onMem fun m => { m with
    cells := tabClear m.cells (memKey g lo) (memKey g hi)
    coeffs := if g = 9 then tabMap none (CoeffSet.without lo hi) m.coeffs else m.coeffs }

/-- An invalidation event of a group (R443). -/
def invalidate (g : Nat) (s : State) : State := invalidateRange g 0 (groupSpan g) s

/-- Clear V and P of a coefficient set. -/
def clearCoeffs (half : Bool) (s : State) : State :=
  let s := if half then invalidateRange 9 coeffWords (2 * coeffWords) s
    else invalidateRange 9 0 coeffWords s
  s.onMem fun m => { m with coeffs := tabSet none m.coeffs (b2n half) none }

/-- A set is written in full for the applied dispersion and switched in (R198, R449). -/
def switchCoeffs (half : Bool) (s : State) : State :=
  let d := s.rx.cdApplied
  ((clearCoeffs half s).onMem fun m => { m with
    coeffSet := half
    coeffs := tabSet none m.coeffs (b2n half) (some { dispersion := d })
    coeffRebuild := if m.coeffRebuild = some half then none else m.coeffRebuild }).onRx fun r =>
      { r with cdDead := [] }

/-- Write every word of a group. -/
def fillGroup (g : Nat) (f : Nat → BitVec 128) (s : State) : State :=
  let words : Tab MemCell :=
    (List.range (groupWords g)).map fun a => (memKey g a, { valid := true, data := f a })
  (touched g (groupWords g) s).onMem fun m => { m with
    cells := (m.cells.filter fun e => e.1 < memKey g 0) ++ words ++
      (m.cells.filter fun e => memKey (g + 1) 0 ≤ e.1) }

/-- Write zero into every word of a group. -/
def zeroGroup (g : Nat) (s : State) : State := fillGroup g (fun _ => 0) s

/-- Invert bits of a stored word (R458): V = 0 first becomes zero data with V = 1. -/
def injectWord (g a : Nat) (mask : BitVec 137) (s : State) : State :=
  let c := cellAt s g a
  if c.valid then setCell g a { c with flips := c.flips ^^^ mask } s
  else setCell g a { valid := true, poison := false, data := 0, flips := mask } s

/-! ### Checks (R444) -/

/-- What a check of a stored word finds. -/
inductive Check where
  | good | correctable | uncorrectable
  deriving DecidableEq, Repr

def popCount (v : BitVec 137) : Nat := (List.range 137).foldl (fun n i => n + b2n (v.getLsbD i)) 0

/-- One flipped bit is corrected and two are detected; what three or more do is open. -/
def checkWord (g a : Nat) (c : MemCell) : Check :=
  match popCount c.flips with
  | 0 => .good
  | 1 => .correctable
  | 2 => .uncorrectable
  | _ =>
    match Config.multiBitOutcome g a c.flips with
    | 0 => .good
    | 1 => .correctable
    | _ => .uncorrectable

/-- The data a good or corrected read returns. An error of three or more bits returns a value
the spec leaves open. -/
def readData (g a : Nat) (c : MemCell) : BitVec 128 :=
  if popCount c.flips ≤ 1 then c.data
  else (Config.freeValue (Config.multiBitOutcome g a c.flips)).setWidth 128

/-! ### Syndromes (R444) -/

/-- Columns of a check matrix over `w` check bits that tell every single-bit error from the others and from
every double one: none is zero or a check bit's own, no two agree, and no two add to a third or to a
check bit's. -/
def columnsOk (w : Nat) (cols : List (BitVec 9)) : Bool :=
  let checks := (List.range w).map fun j => 1#9 <<< j
  let all := cols ++ checks
  decide all.Nodup && all.all fun c =>
    c != 0 && decide (c.toNat < 2 ^ w) && all.all fun d => c == d || !all.contains (c ^^^ d)

/-- The columns of the data bits of a word: the device's where they do what the rule asks of them, which no
proof can see, and else those of odd weight in rising order. -/
def dataColumns (g a : Nat) : List (BitVec 9) :=
  let w := groupCheck g
  let own := (List.range (groupData g)).map (Config.checkColumn g a)
  if columnsOk w own then own
  else (((List.range (2 ^ w)).map fun v => BitVec.ofNat 9 v).filter fun v =>
    let n := popCount (v.setWidth 137)
    n % 2 == 1 && n != 1).take (groupData g)

/-- The stored check bits XOR the recomputed ones, for the flipped bits of a word in which an error was
found. One flipped bit shows its own column and two their sum; for more the spec leaves it open, but for
0, which would mean that no error was found. -/
def syndrome (g a : Nat) (flips : BitVec 137) : BitVec 9 :=
  let cols := dataColumns g a
  let data := (List.range (groupData g)).foldl (fun v i =>
    if flips.getLsbD i then v ^^^ cols.getD i 0 else v) 0#9
  if popCount flips ≤ 2 then data ^^^ (flips.extractLsb' 128 9)
  else BitVec.ofNat 9 (1 + (Config.openSyndrome g a flips).toNat % (2 ^ groupCheck g - 1))

/-- Any word of the group has P = 1 (R462). -/
def poisonPresent (s : State) (g : Nat) : Bool :=
  s.mem.cells.any fun e => e.1 / 2 ^ 24 == g && e.2.poison

/-! ### Counters and the log table (R450, R461) -/

def memgBase (g : Nat) : Nat := 0x51000 + 0x200 * g

/-- The event data of group 4: group, detector, address (R464). -/
def memData (g det a : Nat) : Nat := g + det * 16 + a * 256

/-- A log row for an error found now. -/
def logRow (s : State) (g a det : Nat) (ue write : Bool) : LogRow where
  addr := BitVec.ofNat 24 a
  syndrome := syndrome g a (cellAt s g a).flips
  ue := ue
  write := write
  boot := s.pwr.mode == .boot
  detector := BitVec.ofNat 4 det
  stamp := if s.pwr.mode == .boot then 0 else s.evt.period

/-- LOG_OVERFLOW changes from 0 to 1 (R450). -/
def setOverflow (g det a : Nat) (s : State) : State :=
  if (memGrp s g).logOverflow then s
  else raise 66 (memData g det a) (onGrp g (fun m => { m with logOverflow := true }) s)

/-- Enter a correctable error in the logging regime. -/
def logCe (g a det : Nat) (write : Bool) (s : State) : State :=
  let row := logRow s g a det false write
  if (memGrp s g).log.length < 16 then
    raiseLimited (65 * 2 ^ 16 + g) 65 (memData g det a)
      (onGrp g (fun m => { m with log := m.log ++ [row] }) s)
  else setOverflow g det a s

/-- Replace the oldest correctable entry. -/
def replaceOldestCe (row : LogRow) : List LogRow → Option (List LogRow)
  | [] => none
  | r :: l => if r.ue then (replaceOldestCe row l).map (r :: ·) else some (row :: l)

/-- Enter an uncorrectable error. -/
def logUe (g a det : Nat) (write : Bool) (s : State) : State :=
  let row := logRow s g a det true write
  if (memGrp s g).log.length < 16 then onGrp g (fun m => { m with log := m.log ++ [row] }) s
  else
    match replaceOldestCe row (memGrp s g).log with
    | some l => onGrp g (fun m => { m with log := l }) s
    | none => setOverflow g det a s

/-- A corrected word is written back with fresh check bits (R455). -/
def writeBack (g a : Nat) (s : State) : State :=
  let c := cellAt s g a
  setCell g a { c with data := readData g a c, flips := 0 } s

/-- A memory error as the programmable counters see it. A detector with no master code counts as the
datapath (DESIGN CHOICE, log 152). -/
def noteError (code g a det : Nat) (s : State) : State :=
  noteEvents [{ code := BitVec.ofNat 12 code, master := BitVec.ofNat 4 (if det ≤ 8 then det else 9)
                priv := 3, addr := word (memKey g a), id := 0 }] s

/-- A correctable error found by a reader (R447). -/
def foundCe (g a det : Nat) (s : State) : State :=
  let s := noteError 0x301 g a det s
  if logging s g then
    writeBack g a (logCe g a det false (errAdd (memgBase g + 0x20) 1 s))
  else statAdd (memgBase g + 0x18) 1 s

/-- Steps 1 to 3 of R448: poison, count and log, raise MEM_UE. -/
def poisonWord (g a det : Nat) (write : Bool) (s : State) : State :=
  let s := logUe g a det write s
  let s := noteError 0x302 g a det (setCell g a { cellAt s g a with poison := true } s)
  raise 64 (memData g det a) (errAdd (memgBase g + 0x28) 1 s)

/-! ### What a reader sees (R445 to R448) -/

/-- A checked read as a datapath reader sees it: the word, or the poison flag. A correctable
error is handled by regime; an uncorrectable one poisons the word. The memory's own
consequence is the reader's. -/
def seeWord (g a det : Nat) (s : State) : Option (BitVec 128) × State :=
  let c := cellAt s g a
  let s := touched g 1 s
  if !c.valid then (some 0, s)
  else if c.poison then (none, s)
  else match checkWord g a c with
    | .good => (some (readData g a c), s)
    | .correctable => (some (readData g a c), foundCe g a det s)
    | .uncorrectable => (none, poisonWord g a det false s)

/-- Checked reads of `n` consecutive words: none if any is poisoned. -/
def seeWords (g det : Nat) : Nat → Nat → State → Option (List (BitVec 128)) × State
  | _, 0, s => (some [], s)
  | a, n + 1, s =>
    let r := seeWord g a det s
    let rs := seeWords g det (a + 1) n r.2
    (match r.1, rs.1 with
     | some d, some ds => some (d :: ds)
     | _, _ => none, rs.2)

/-- A checked read through a port with a merge buffer: a word in the buffer reads as merged (R452). -/
def readPort (g a det : Nat) (s : State) : Option (BitVec 128) × State :=
  let r := seeWord g a det s
  (match narrowEntry g a s with
   | some e => r.1.map (e.apply g)
   | none => r.1, r.2)

/-! ### Laps (R454, R456) -/

/-- The TIMESTAMP periods that the lap in progress has run. -/
def lapPeriods (s : State) (g : Nat) : Nat :=
  let m := memGrp s g
  m.lapRun + match m.lapStart with
    | some p => (s.evt.period - p).toNat
    | none => 0

/-- The time the lap in progress has run, in us. -/
def lapUs (s : State) (g : Nat) : Nat := lapPeriods s g / 250

/-- The engine pauses: its lap time stops. -/
def pauseLap (g : Nat) (s : State) : State :=
  let now := s.evt.period
  onGrp g (fun m => match m.lapStart with
    | some p => { m with lapStart := none, lapRun := m.lapRun + (now - p).toNat }
    | none => m) s

/-- The engine runs again. -/
def resumeLap (g : Nat) (s : State) : State :=
  let now := s.evt.period
  onGrp g (fun m => if m.lapStart.isNone then { m with lapStart := some now } else m) s

/-- The lap ends at the last word: its time is recorded and the next lap starts. -/
def endLap (g : Nat) (s : State) : State :=
  let t := BitVec.ofNat 24 (lapUs s g)
  let now := s.evt.period
  let first := counter s (memgBase g + 0x38) = 0
  statAdd (memgBase g + 0x38) 1 (onGrp g (fun m =>
    { m with
      lapLast := t
      lapMin := if m.clearLaps || first || t < m.lapMin then t else m.lapMin
      lapMax := if m.clearLaps || m.lapMax < t then t else m.lapMax
      clearLaps := false, lapLong := false
      scrubAddr := 0, lapStart := some now, lapRun := 0 }) s)

end Sys2Proof.Machine
end

