-- ==== Sys2Proof/Machine/Flags.lean ====
section
/-!
DEFINITION. The status flags that follow the state: event-log fill (R440), stalled rings
(R384, R410), unread samples (R484), and the level sources that follow them (R411, R442, R486).
-/

namespace Sys2Proof.Machine

/-! ### Event log (R432, R440) -/

def unread (e : Evt) : Nat := (e.logWrite - e.logRead).toNat
def logFull (e : Evt) : Bool := unread e == 4095
def aboveWatermark (e : Evt) : Bool := decide (e.watermark.toNat ≤ unread e)

/-- EVLOG_WATERMARK and EVLOG_FULL follow their status bits. -/
def settleLog (s : State) : State :=
  setLevel 49 (logFull s.evt) (setLevel 48 (aboveWatermark s.evt) s)

/-! ### Completion rings (R382, R383, R384) -/

def sqAt (s : State) (r : Nat) : Sq := tabGet {} s.cmd.sq r
def cqAt (s : State) (r : Nat) : Cq := tabGet {} s.cmd.cq r
def onSq (r : Nat) (f : Sq → Sq) (s : State) : State :=
  s.onCmd fun c => { c with sq := tabMod {} c.sq r f }
def onCq (r : Nat) (f : Cq → Cq) (s : State) : State :=
  s.onCmd fun c => { c with cq := tabMod {} c.cq r f }

/-- The number of slots a SIZE code gives. -/
def ringSlots (size : BitVec 4) : Nat := 2 ^ (6 + size.toNat)

/-- Slots in use: head to tail, modulo the ring. -/
def ringUsed (size : BitVec 4) (tail head : BitVec 14) : Nat :=
  (tail.toNat + ringSlots size - head.toNat) % ringSlots size

/-- Slots a completion may still take: at most size - 1 are in use. -/
def cqRoom (q : Cq) : Nat := ringSlots q.size - 1 - ringUsed q.size q.tail q.head

/-- The completion ring r waits for room (R384). -/
def cqStalled (s : State) (r : Nat) : Bool :=
  s.cmd.jobs.any fun j => j.stalled && j.live && j.ring == r

/-- CQ_STALL follows CMD_STATUS.CQ_STALLED, its entries carrying the ring whose completion stalls or
stalls no longer (R411). -/
def settleStall (r : Nat) (s : State) : State :=
  setLevelData 37 ((List.range 4).any (cqStalled s)) r s

/-! ### Samples (R477, R484) -/

def unreadSamples (p : Pmu) : Nat := (p.sampleWrite - p.sampleRead).toNat
def sampleHalf (p : Pmu) : Bool := decide (128 ≤ unreadSamples p)

/-- SAMPLE_HALF follows PMU_STATUS.SAMPLE_HALF. -/
def settleSamples (s : State) : State := setLevel 83 (sampleHalf s.pmu) s

end Sys2Proof.Machine
end

