-- ==== Sys2Proof/Machine/Slaca.lean ====
section
/-!
DEFINITION. Slaca packets: rings, fetch and the front-end checks (R381 to R394), completions
(R384, R391, R395, R401), the SPI mailbox (R387, R388), OP_NOP, OP_DEVICE_INFO and OP_ABORT
(R399 to R401, R407), and the ring registers (R409).
-/

namespace Sys2Proof.Machine

/-! ### Binding to cores (R402) -/

/-- Outstanding commands bound to a core; those PERST_N has marked are outstanding no more (R394). -/
def coreLoad (s : State) (c : Nat) : Nat :=
  (s.cmd.jobs.filter fun j => j.core == some c && !j.released && !j.discarded).length

/-- The core in service with the fewest outstanding commands, the lowest on a tie. -/
def leastLoaded (s : State) : Option Nat :=
  (List.range 4).foldl (fun best c =>
    if !coreInService s c then best
    else match best with
      | none => some c
      | some b => if coreLoad s c < coreLoad s b then some c else best) none

/-- The core that the command's chain is bound to while it has a command outstanding. -/
def chainCore (j : Job) (s : State) : Option Nat :=
  (s.cmd.jobs.find? fun x => x.id != j.id && sameChain x j && x.core.isSome && !x.released).bind
    fun x => x.core

/-- Bind a command that has passed the front end; with no core in service it completes
ST_ABORTED_FAULT at once (R404). -/
def bindCore (j : Nat) (s : State) : State :=
  match findJob j s with
  | none => s
  | some job =>
    match (chainCore job s).orElse fun _ => leastLoaded s with
    | some c => modJob j (fun x => { x with core := some c, stage := .fetched }) s
    | none => faultJob 0 j s

/-! ### The front end (R393 steps 1 to 4, R394) -/

/-- Steps 1 to 3 of R393 on the header words and the command. -/
def frontRefusal (w0 w1 : Word) (j : Job) : Option Refused :=
  firstRefusal [
    (!headerFieldsOk w0 w1 || (j.pointer && j.mailbox), (stBadParam, stepDetail 1 0xFFFF)),
    (j.pointer && (pointerFault j.params).isSome,
      (stBadParam, stepDetail 1 ((pointerFault j.params).getD 0))),
    (!inCatalogue j.opcode, (stBadOpcode, 0)),
    (j.priv == 2 || (officerOp j.opcode && j.priv != 1) ||
      (j.priv == 1 && !officerOp j.opcode && j.opcode != 0x0102), (stDenied, stepDetail 3 0)),
    (j.pointer && (officerOp j.opcode || j.opcode == 0x0102), (stBadParam, stepDetail 3 0xFFFF)),
    (j.auth && !(trailerOp j.opcode || (j.opcode == 0x0102 && j.priv == 1)),
      (stBadParam, stepDetail 3 0xFFFF)),
    (j.pointer && decide (pointerLimit j.opcode < (j.param 2).toNat),
      (stBadParam, stepDetail 3 2))]

/-- A refusal by the front end. -/
def frontFinish (j : Nat) (r : Refused) (s : State) : State :=
  modJob j (fun x => { x with front := true }) (finish j r.1 r.2 [] s)

/-- Some core is in service. -/
def anyCore (s : State) : Bool := (List.range 4).any (coreInService s)

/-- Another ring command holds the tag (R394). -/
def tagHeld (j : Job) (s : State) : Bool :=
  !j.mailbox && (s.cmd.jobs.any fun x => x.live && x.tag == j.tag)

/-- Take a packet's words as a new outstanding command and make the front-end checks. -/
def admitPacket (ring : Nat) (mailbox : Bool) (ws : List Word) (s : State) : State :=
  let job := jobOfWords s.cmd.nextId ring mailbox ws
  let dup := tagHeld job s
  let s := statAdd 0x10010 1 ((setJobs (s.cmd.jobs ++ [job]) s).onCmd fun c =>
    { c with nextId := c.nextId + 1 })
  if dup then
    raiseBy (officerOp job.opcode) 35 ring (errAdd 0x10030 1 (frontFinish job.id (stBusy, 0x80000000) s))
  else if !anyCore s then faultJob 0 job.id s
  else
    match frontRefusal (ws.getD 0 0) (ws.getD 1 0) job with
    | some r => frontFinish job.id r s
    | none =>
      if job.pointer then modJob job.id (fun x => { x with stage := .pointer }) s
      else bindCore job.id s

/-! ### Fetch (R385, R386) -/

/-- The device may fetch from ring r (R385, R405, R419, R551). -/
def fetching (s : State) (r : Nat) : Bool :=
  decide (r < 4) && (sqAt s r).enable && !(sqAt s r).fetchError && !s.evt.d3hot &&
    s.evt.busMaster && s.codeS && s.cmd.resetJob.isNone && !s.evt.perst

/-- The ring that the fetch serves next: round-robin, from the one after the last (R385). -/
def nextRing (s : State) : Option Nat :=
  ((List.range 4).map fun i => (s.cmd.lastRing + 1 + i) % 4).find? fun r =>
    fetching s r && (sqAt s r).head != (sqAt s r).tail

/-- PACKET_FETCH: a whole packet is taken from ring r in its turn, or a failed read stops the ring. -/
def execPacketFetch (r : Nat) (read : PacketRead) (s : State) :
    Host.Outcome State Fault Refusal :=
  .next <|
    let q := sqAt s r
    if nextRing s == some r then
      match read with
      | .error => raise 36 r (onSq r (fun q => { q with fetchError := true })
          (s.onCmd fun c => { c with lastRing := r }))
      | .words ws =>
        let n := packetSlots (ws.getD 1 0)
        if n ≤ ringUsed q.size q.tail q.head then
          admitPacket r false ws (onSq r (fun q => { q with
            head := BitVec.ofNat 14 ((q.head.toNat + n) % ringSlots q.size) })
            (carry 34 (4 * ws.length) (s.onCmd fun c => { c with lastRing := r })))
        else s
    else s

/-- PARAM_POINTER_READ_DONE: step 4 of R393. -/
def execParamPointerReadDone (j : Nat) (read : PointerRead) (s : State) :
    Host.Outcome State Fault Refusal :=
  .next <|
    match findJob j s with
    | none => s
    | some job =>
      if job.stage = .pointer then
        match read with
        | .words ws =>
          if ws.length = (job.param 2).toNat then
            bindCore j (modJob j (fun x => { x with params := ws }) (carry 34 (4 * ws.length) s))
          else s
        | .poison => frontFinish j (stPoison, stepDetail 4 0) s
        | .failed => frontFinish j (stBadParam, stepDetail 4 0xFFFE) s
      else s

/-! ### Completions (R384, R391, R395, R401) -/

/-- The completion's words: the first slot, then the result, filled to whole slots. -/
def completionWords (j : Job) (phase : Bool) : List Word :=
  let res := j.result.take 256
  [word (j.tag.toNat + j.status.toNat * 2 ^ 16 + b2n phase * 2 ^ 31),
   word (j.opcode.toNat + res.length * 2 ^ 16 + b2n j.committed * 2 ^ 25 +
     (if j.mailbox then 0 else j.ring) * 2 ^ 26 + b2n j.mailbox * 2 ^ 28)] ++
  tripleWords j.stamp ++
  [j.detail, j.cookie.extractLsb' 0 32, j.cookie.extractLsb' 32 32] ++
  res ++ List.replicate ((8 - res.length % 8) % 8) 0

/-- Slots a completion takes: 1 + ceil(RESULT_LEN / 8). -/
def completionSlots (j : Job) : Nat := 1 + (min j.result.length 256 + 7) / 8

/-- OP_RESET completes last, after the output and the units have wound down (R405); `gone` says which
commands stand in no other's way. -/
def resetMayCompleteBy (gone : Job → Bool) (j : Job) (s : State) : Bool :=
  s.cmd.resetJob != some j.id ||
    (s.cmd.jobs.all (fun x => x.id == j.id || x.discarded || gone x) &&
      (s.pwr.windDown.isNone || s.pwr.windDown == some .done))

def resetMayComplete (j : Job) (s : State) : Bool := resetMayCompleteBy (fun _ => false) j s

/-- The commands with key 0 that one core fault ended; their completions go out in fetch order (R403). -/
def sameFault (a b : Job) : Bool :=
  a.live && b.live && a.key == 0 && b.key == 0 && a.core.isSome && a.core == b.core &&
    a.front && b.front && a.status == stAbortedFault && b.status == stAbortedFault &&
    a.stage == .decided && b.stage == .decided && a.decidedAt == b.decidedAt

/-- The completion of `x` must be written before that of `j`, which was fetched later (R395, R403). A
completion that a full or disabled ring holds back lets the others of its fault pass (DEDUCED, log 158). -/
def goesBefore (s : State) (x j : Job) : Bool :=
  sameChain x j || (j.barrier && x.live && x.ring == j.ring) ||
    (sameFault x j && !x.stalled && (cqAt s x.ring).enable)

/-- Nothing that R395, R401, R403 or R405 orders before this completion stands in its way. -/
def completionInOrderBy (gone : Job → Bool) (j : Job) (s : State) : Bool :=
  (earlier j s).all (fun x => gone x || !goesBefore s x j) &&
    ((j.after.bind fun k => findJob k s).all gone) &&
    resetMayCompleteBy gone j s

/-- Every completion that goes before this one has been written. -/
def completionInOrder (j : Job) (s : State) : Bool := completionInOrderBy (fun _ => false) j s

/-- Every completion that goes before this one has been written or itself waits for the host (R419,
R551). -/
def completionReady (j : Job) (s : State) : Bool := completionInOrderBy (fun x => x.waits) j s

/-- The device may write to host memory (R419, R551). -/
def hostWritable (s : State) : Bool := !s.evt.d3hot && s.evt.busMaster && !s.evt.perst

/-- The event-log entry of a completed officer command, stamped at its decision (R433). -/
def officerEntry (j : Job) (s : State) : LogEntry where
  stamp := j.decidedAt
  secs := word (timeSecs j.decidedTime)
  ns := word (timeNs j.decidedTime)
  source := BitVec.ofNat 12 (if j.front then 1028 else 1024 + j.core.getD 0)
  officer := true
  timeInvalid := j.decidedInvalid
  code := j.opcode
  data := datum (j.tag.toNat + j.status.toNat * 2 ^ 16 + j.ring * 2 ^ 24 +
    b2n j.mailbox * 2 ^ 26 +
    (if j.auth && decide (10 ≤ j.params.length) then j.trailerSeq.toNat % 2 ^ 32 else 0) * 2 ^ 32)
  reached := s.evt.period

/-- Log a completed officer command. -/
def logOfficer (j : Job) (s : State) : State :=
  if officerOp j.opcode && s.codeS then
    s.onEvt fun e => afterPme s.ctx (enqueue s.ctx (officerEntry j s) e)
  else s

/-- Count a completion by its status (R408, R472) and raise CMD_REFUSED (R411). -/
def countCompletion (j : Job) (s : State) : State :=
  let s := noteEvents [commandEvent 0x002 j] (statAdd 0x10018 1 s)
  if 0x10 ≤ j.status.toNat ∧ j.status.toNat ≤ 0x18 then
    raiseLimitedBy (officerOp j.opcode) 38 38 (if j.mailbox then 0 else j.ring)
      (errAdd 0x10020 1 (noteEvents [commandEvent 0x003 j] s))
  else if j.status = stAbortedFault then errAdd 0x10028 1 s
  else s

/-- The completion of OP_RESET is out, and RESET follows (R405). -/
def resetAnswered (j : Nat) (s : State) : State :=
  let now := s.evt.period
  if s.cmd.resetJob = some j then s.onCmd fun c => { c with resetWritten := true, resetAt := now } else s

/-- Write a completion into its ring: its slots, CQ_TAIL, and the ring's source (R384). -/
def writeCompletion (job : Job) (s : State) : State :=
  let q := cqAt s job.ring
  let n := completionSlots job
  let slots := ringSlots q.size
  let t := q.tail.toNat + n
  let s := (carry 35 (32 * n) s).onCmd fun c => { c with written :=
    { ring := job.ring, slot := q.tail.toNat, words := completionWords job q.phase } :: c.written }
  let s := onCq job.ring (fun q => { q with
    tail := BitVec.ofNat 14 (t % slots), phase := q.phase != decide (slots ≤ t) }) s
  let s := countCompletion job s
  let s := logOfficer job (dropJob job.id s)
  let s := resetAnswered job.id s
  settleStall job.ring
    (if job.noInt then s else raiseBy (officerOp job.opcode) (16 + job.ring) job.ring s)

/-- A ready completion waits for D0 and Bus Master Enable and counts as a request (R419). -/
def completionWaits (job : Job) (s : State) : State :=
  let s := modJob job.id (fun x => { x with waits := true }) s
  if job.noInt then s
  else s.onEvt fun e => afterPme s.ctx (touch s.ctx.cores 1
    (fun e => { e with waitingDone := e.waitingDone ||| (1#4 <<< job.ring) }) e)

/-- The command writes key contexts, and narrow writes of the key store wait behind its eight entries: its
writer stalls until one has drained (R452; that its completion waits is DEDUCED, log 160). -/
def writerStalled (job : Job) (s : State) : Bool :=
  [0x0410, 0x0411, 0x0420].contains job.opcode.toNat && portStalled 6 s

/-- The outcome of `job` is decided and its ring takes completions. -/
def completable (job : Job) (s : State) : Bool :=
  job.stage == .decided && job.live && (cqAt s job.ring).enable && !writerStalled job s

/-- Write the completion of command j where its order and the room of its ring allow; without room it
stalls (R384). -/
def placeCompletion (j : Nat) (s : State) : State :=
  match findJob j s with
  | none => s
  | some job =>
    if completable job s && completionInOrder job s then
      if completionSlots job ≤ cqRoom (cqAt s job.ring) then writeCompletion job s
      else settleStall job.ring (modJob j (fun x => { x with stalled := true }) s)
    else s

/-- COMPLETION_WRITE: the completion of command j is written where order, room and the
function's state allow; otherwise it waits. -/
def tryComplete (j : Nat) (s : State) : State :=
  if hostWritable s then placeCompletion j s
  else
    match findJob j s with
    | none => s
    | some job => if completable job s && completionReady job s then completionWaits job s else s

def execCompletionWrite (j : Nat) (s : State) : Host.Outcome State Fault Refusal :=
  .next (tryComplete j s)

/-- Run `f` while no MSIX-routed group can be delivered: what falls due is delivered afterwards (R419,
R551). -/
def withheld (f : State → State) (s : State) : State :=
  let b := s.evt.busMaster
  (f (s.onEvt fun e => { e with busMaster := false })).onEvt fun e => { e with busMaster := b }

/-- The commands whose completions wait for the host, in fetch order. -/
def waitingIds (s : State) : List Nat := (s.cmd.jobs.filter fun j => j.waits).map fun j => j.id

/-- Every waiting completion is written, those that others go before after them (R30, R419, R551). -/
def writeWaiting (s : State) : State :=
  let pass := fun s => (waitingIds s).foldl (fun s j => placeCompletion j s) s
  let s := (waitingIds s).foldl (fun s _ => pass s) s
  (s.onCmd fun c => { c with jobs := c.jobs.map fun j => { j with waits := false } }).onEvt fun e =>
    relax 1 { e with waitingDone := 0 }

/-- RING_COMPLETION_DISCARD: the outcome of a command outstanding at PERST_N (R494). -/
def execRingCompletionDiscard (j : Nat) (s : State) : Host.Outcome State Fault Refusal :=
  .next <|
    match findJob j s with
    | none => s
    | some job =>
      if job.stage = .decided && job.discarded && resetMayComplete job s then
        let s := logOfficer job (dropJob j (errAdd 0x28 1 s))
        let s := resetAnswered j s
        if s.cmd.discardRaised then s
        else raise 7 0 (s.onCmd fun c => { c with discardRaised := true })
      else s

/-! ### Ring registers (R409) -/

/-- The registers of the CMD block are writable in every mode but RESET. -/
def notReset (s : State) : Bool := s.pwr.mode != .reset

/-- With BOOT_SEL 0b11 the device stays in BOOT until RST_N, and only JTAG reaches it (R495). -/
def jtagOnly (s : State) : Bool := s.pwr.mode == .boot && s.pwr.bootSel == 3

/-- The device answers on its host ports: PCIe, the mailbox and the I2C target (R493, R495). -/
def portsOpen (s : State) : Bool := notReset s && !jtagOnly s

/-- The mailbox answers (R387, R493, R495). -/
def mailboxResponds (s : State) : Bool := portsOpen s

/-- SQ_DOORBELL: a write of SQ_TAIL; index bits above the ring's size are ignored (R408). -/
def writeSqTail (r : Nat) (w : Word) (s : State) : State :=
  if portsOpen s && decide (r < 4) then
    onSq r (fun q => { q with tail := BitVec.ofNat 14 (fld w 13 0 % ringSlots q.size) }) s
  else s

def execSqDoorbell (r : Nat) (w : Word) (s : State) : Host.Outcome State Fault Refusal :=
  .next (writeSqTail r w s)

/-- A completion stalls no longer once its ring has room for it. -/
def unstall (r : Nat) (s : State) : State :=
  let room := cqRoom (cqAt s r)
  settleStall r (s.onCmd fun c => { c with jobs := c.jobs.map fun j =>
    if j.ring = r ∧ j.live ∧ completionSlots j ≤ room then { j with stalled := false } else j })

/-- CQ_HEAD_WRITE: the host frees completion slots. -/
def writeCqHead (r : Nat) (w : Word) (s : State) : State :=
  if portsOpen s && decide (r < 4) then
    unstall r (onCq r (fun q => { q with head := BitVec.ofNat 14 (fld w 13 0 % ringSlots q.size) }) s)
  else s

def execCqHeadWrite (r : Nat) (w : Word) (s : State) : Host.Outcome State Fault Refusal :=
  .next (writeCqHead r w s)

/-- SQ_ENABLE_WRITE: a write of SQ_CTRL (R409). -/
def writeSqCtrl (r : Nat) (w : Word) (s : State) : State :=
  if portsOpen s && decide (r < 4) then
    onSq r (fun q =>
      let size := w.extractLsb' 0 4
      let sizeOk := !q.enable && decide (1 ≤ size.toNat) && decide (size.toNat ≤ 8)
      let start := bit w 4 && !q.enable
      { q with
        size := if sizeOk then size else q.size
        fetchError := q.fetchError && !bit w 5
        enable := bit w 4
        head := if start then 0 else q.head
        tail := if start then 0 else q.tail }) s
  else s

def execSqEnableWrite (r : Nat) (w : Word) (s : State) : Host.Outcome State Fault Refusal :=
  .next (writeSqCtrl r w s)

/-- SQ_FETCH_ERROR_CLEAR: the W1C write that lets fetch resume at SQ_HEAD (R386). -/
def execSqFetchErrorClear (r : Nat) (s : State) : Host.Outcome State Fault Refusal :=
  .next <|
    if portsOpen s && decide (r < 4) then onSq r (fun q => { q with fetchError := false }) s else s

/-- The bound submission ring is enabled or has a command outstanding (R409). -/
def ringInUse (r : Nat) (s : State) : Bool :=
  (sqAt s r).enable || s.cmd.jobs.any fun j => j.live && j.ring == r

/-- CQ_ENABLE_WRITE: a write of CQ_CTRL (R409). -/
def writeCqCtrl (r : Nat) (w : Word) (s : State) : State :=
  if portsOpen s && decide (r < 4) && !((cqAt s r).enable && !bit w 4 && ringInUse r s) then
    onCq r (fun q =>
      let size := w.extractLsb' 0 4
      let start := bit w 4 && !q.enable
      { q with
        size := if !q.enable && decide (size.toNat ≤ 8) then size else q.size
        enable := bit w 4
        head := if start then 0 else q.head
        tail := if start then 0 else q.tail
        phase := if start then true else q.phase }) s
  else s

def execCqEnableWrite (r : Nat) (w : Word) (s : State) : Host.Outcome State Fault Refusal :=
  .next (writeCqCtrl r w s)

/-! ### The SPI mailbox (R387, R388) -/

/-- The mailbox status byte: BUSY, DONE, OVERRUN, READY. -/
def mboxStatus (s : State) : Byte :=
  BitVec.ofNat 8 (b2n s.cmd.mbBusy + 2 * b2n s.cmd.mbDone + 4 * b2n s.cmd.mbOverrun +
    8 * b2n s.codeS)

/-- Store bytes into a byte table from an address upward. -/
def storeBytes (t : Tab Byte) : Nat → List Byte → Tab Byte
  | _, [] => t
  | a, b :: bs => storeBytes (tabSet 0 t a b) (a + 1) bs

/-- Bytes into the request buffer, 0x0000 to 0x0FFF; others fall outside it. -/
def storeRequest (addr : Nat) (bytes : List Byte) (s : State) : State :=
  s.onCmd fun c => { c with
    mbRequest := storeBytes c.mbRequest addr (bytes.take (0x1000 - addr)) }

/-- A byte of the mailbox space. -/
def mboxByte (s : State) (a : Nat) : Byte :=
  if a < 0x1000 then tabGet 0 s.cmd.mbRequest a
  else if a < 0x1420 then tabGet 0 s.cmd.mbResponse (a - 0x1000)
  else 0

/-- What MBX_MISO drives in a transfer, byte by byte; nothing while it is high-impedance. -/
def drivesMiso (bytes : List Byte) (s : State) : State := s.onBus fun b => { b with spiData := bytes }

/-- MBX_READ: n bytes from an address upward. -/
def execMbxRead (addr : BitVec 16) (n : Nat) (s : State) : Host.Outcome State Fault Refusal :=
  .next <| drivesMiso
    (if mailboxResponds s then (List.range n).map fun i => mboxByte s (addr.toNat + i) else []) s

/-- MBX_STATUS: the status byte. -/
def execMbxStatus (s : State) : Host.Outcome State Fault Refusal :=
  .next <| drivesMiso (if mailboxResponds s then [mboxStatus s] else []) s

/-- MBX_BAD_INSTRUCTION: the device ignores the transfer, and MBX_MISO stays high-impedance (R387). -/
def execMbxBadInstruction (_b : Byte) (s : State) : Host.Outcome State Fault Refusal :=
  .next (drivesMiso [] s)

/-- The request buffer as little-endian words. -/
def requestWords (s : State) : List Word :=
  (List.range 1024).map fun i =>
    word (leNat ((List.range 4).map fun b => tabGet 0 s.cmd.mbRequest (4 * i + b)))

/-- A post outside BOOT (R388). -/
def postCommand (s : State) : State :=
  if s.cmd.resetJob.isSome then s
  else if s.cmd.mbBusy then raise 39 0 (s.onCmd fun c => { c with mbOverrun := true })
  else admitPacket 0 true (requestWords s)
    (s.onCmd fun c => { c with mbBusy := true, mbDone := false, mbOverrun := false })

/-- Replace the response buffer from its start. -/
def setResponse (bs : List Byte) (s : State) : State :=
  s.onCmd fun c => { c with mbResponse := storeBytes c.mbResponse 0 bs }

/-- MBOX_RESPONSE_WRITE: the mailbox command ends (R388). NO_INT does not hold MBOX_DONE back (DEDUCED,
log 157). -/
def execMboxResponseWrite (s : State) : Host.Outcome State Fault Refusal :=
  .next <|
    match s.cmd.jobs.find? fun x => x.mailbox with
    | none => s
    | some job =>
      if job.stage = .decided && (job.after.all fun k => (findJob k s).isNone) &&
          resetMayComplete job s then
        let s := setResponse (wordBytes (completionWords job false)) s
        let s := s.onCmd fun c => { c with mbBusy := false, mbDone := true }
        let s := logOfficer job (dropJob job.id (countCompletion job s))
        let s := resetAnswered job.id s
        raiseBy (officerOp job.opcode) 20 0 s
      else s

/-! ### OP_NOP, OP_DEVICE_INFO, OP_ABORT (R399 to R401, R407) -/

def execOpNop (j : Nat) (s : State) : Host.Outcome State Fault Refusal :=
  .next (runOp 0x0100 0 (fun _ s => .complete s []) j s)

/-- The three result words of OP_DEVICE_INFO. -/
def deviceInfo (s : State) : List Word :=
  [word (0x2460 + Config.siliconRevision.toNat * 2 ^ 16),
   (s.pwr.image.map fun i => i.version).getD 0,
   word ((coreMask s).toNat + s.pwr.mode.code * 2 ^ 8)]

def execOpDeviceInfo (j : Nat) (s : State) : Host.Outcome State Fault Refusal :=
  .next (runOp 0x0101 0 (fun _ s => .complete s (deviceInfo s)) j s)

/-- The command an abort names: the mailbox command, or the ring command with the tag. -/
def abortTarget (w : Word) (s : State) : Option Job :=
  if bit w 16 then s.cmd.jobs.find? fun x => x.mailbox
  else s.cmd.jobs.find? fun x => x.live && x.tag.toNat == fld w 11 0

/-- The outcome table of R400. -/
def abortBody (j : Job) (s : State) : Verdict :=
  let w := j.param 0
  if bit w 16 && j.mailbox then .refuse (badParam 0)
  else
    match abortTarget w s with
    | none => .refuse refNotFound
    | some t =>
      if t.opcode = 0x0102 ∨ t.opcode = 0x0104 then .refuse (badParam 0)
      else if officerOp t.opcode && !(j.priv == 1 && j.auth) then .refuse refDenied
      else
        let s := modJob j.id (fun x => { x with after := some t.id }) s
        if t.stage = .decided ∨ t.committed then
          .decided (finish j.id stAlreadyDone (word t.tag.toNat) [] s)
        else if t.stage = .fetched ∨ t.stage = .pointer then
          .complete (finish t.id stAborted 0 [] s) []
        else .complete (cancel t.id stAborted 0 s) []

def execOpAbort (j : Nat) (s : State) : Host.Outcome State Fault Refusal :=
  .next (runOp 0x0102 1 abortBody j s)

end Sys2Proof.Machine
end

