-- ==== Sys2Proof/Machine/Interrupts.lean ====
section
/-!
DEFINITION. The interrupt controller's accesses and timers (R413 to R428, R435 to R438), the
PCIe function's states and messages (R418, R419, R442, R494, R551), and the event-log merge
(R429 to R434, R441).
-/

namespace Sys2Proof.Machine

/-! ### Hold-off (R415) -/

/-- The running timer of group n has counted its units of 250 ns; in BOOT no TIMESTAMP runs that could
tell (R415, R430). -/
def holdoffOver (s : State) (n : Nat) : Bool :=
  (grpAt s.evt n).timer.any fun t =>
    !s.codeS || decide (125 * t.1.toNat ≤ 2 * (s.evt.period - t.2).toNat)

/-- HOLDOFF_EXPIRY: the timer of group n expires; the group is delivered while it requests. -/
def execHoldoffExpiry (n : Nat) (s : State) : Host.Outcome State Fault Refusal :=
  .next <|
    if notReset s && holdoffOver s n then
      deliverNow n (s.onEvt (setGrp n fun g => { g with timer := none }))
    else s

/-! ### Claim and complete (R420 to R424) -/

/-- The offset of ICU_SPURIOUS of group n. -/
def cntSpurious (n : Nat) : Nat := 0x2102C + 0x40 * n

/-- Claim the lowest requesting source: S set, P of an event source and C cleared (R420). -/
def claimSource (n i : Nat) (e : Evt) : Evt :=
  let e := setSrc i (fun r => { r with p := levelSource e.gpioMode i && r.p, s := true, c := 0 }) e
  relax n (setGrp n (fun g => { g with fresh := false }) e)

/-- A claim that finds nothing: spurious when it is the first since the last delivery (R424). -/
def claimNone (n : Nat) (e : Evt) : Evt :=
  if (grpAt e n).fresh then
    let v := (cntAt e (cntSpurious n)).toNat
    setGrp n (fun g => { g with fresh := false })
      (setCnt (cntSpurious n) (BitVec.ofNat 64 (min 65535 (v + 1))) e)
  else e

/-- What a read of ICU_CLAIM of group n returns (R437). -/
def claimWord (e : Evt) (n : Nat) : Word :=
  match firstRequest e n with
  | some i => word (i + (srcAt e i).c.toNat * 2 ^ 16)
  | none => 0x3FF

/-- A read of ICU_CLAIM of group n. -/
def claimRead (n : Nat) (s : State) : State :=
  s.onEvt fun e =>
    match firstRequest e n with
    | some i => claimSource n i e
    | none => claimNone n e

/-- Hand a read's value to the reader. -/
def returnWord (w : Word) (s : State) : State :=
  s.onBus fun b => { b with readData := [w], poisoned := false }

def icuGroupOpen (n : Nat) (s : State) : Bool := portsOpen s && groupExists n

def execIcuClaimRead (n : Nat) (s : State) : Host.Outcome State Fault Refusal :=
  .next <|
    if icuGroupOpen n s then claimRead n (returnWord (claimWord s.evt n) s) else returnWord 0 s

/-- Change the sources of group n, with the delivery that may follow (R415). -/
def touchGroup (n : Nat) (f : Evt → Evt) (s : State) : State :=
  s.onEvt fun e => afterPme s.ctx (touch s.ctx.cores n f e)

/-- ICU_COMPLETE_WRITE: S of the named source is cleared (R421). -/
def completeWrite (n : Nat) (w : Word) (s : State) : State :=
  let i := fld w 9 0
  if icuGroupOpen n s && i / 16 == n && (srcAt s.evt i).s then
    touchGroup n (setSrc i fun r => { r with s := false }) s
  else s

def execIcuCompleteWrite (n : Nat) (w : Word) (s : State) : Host.Outcome State Fault Refusal :=
  .next (completeWrite n w s)

/-- ICU_SPURIOUS as read: the shadow while PMU_VIEW selects it (R469). -/
def spuriousWord (s : State) (n : Nat) : Word :=
  word (if s.pmu.view.getLsbD 2 then tabGet 0 s.pmu.shadow (cntSpurious n)
    else counter s (cntSpurious n)).toNat

/-- ICU_SPURIOUS_READ returns the count and clears it (R435). -/
def spuriousRead (n : Nat) (s : State) : State :=
  clearCounter (cntSpurious n) (returnWord (spuriousWord s n) s)

def execIcuSpuriousRead (n : Nat) (s : State) : Host.Outcome State Fault Refusal :=
  .next <| if icuGroupOpen n s then spuriousRead n s else returnWord 0 s

/-! ### Enable and pending bits (R425, R426, R435) -/

/-- Change each defined source of group n by its bit of the written word. -/
def eachSource (n : Nat) (ok : Nat → Bool) (f : Bool → Src → Src) (w : Word) (e : Evt) : Evt :=
  (List.range 16).foldl (fun e i =>
    if ok (16 * n + i) then setSrc (16 * n + i) (f (bit w i)) e else e) e

/-- A source whose P software may write: an event source, and a GPIO source that is on. -/
def pendable (gpio : Word) (i : Nat) : Bool :=
  sourceDefined i && !levelSource gpio i &&
    !(decide (384 ≤ i) && fld gpio (2 * (i - 384) + 1) (2 * (i - 384)) == 0)

def writeEnables (n : Nat) (f : Bool → Src → Src) (w : Word) (s : State) : State :=
  if icuGroupOpen n s then touchGroup n (eachSource n sourceDefined f w) s else s

def writePendings (n : Nat) (f : Bool → Src → Src) (w : Word) (s : State) : State :=
  if icuGroupOpen n s then touchGroup n (eachSource n (pendable s.evt.gpioMode) f w) s else s

def plainE (b : Bool) (r : Src) : Src := { r with e := b }
def setE (b : Bool) (r : Src) : Src := { r with e := r.e || b }
def clrE (b : Bool) (r : Src) : Src := { r with e := r.e && !b }
def plainP (b : Bool) (r : Src) : Src := { r with p := b }
def setP (b : Bool) (r : Src) : Src := { r with p := r.p || b }
def clrP (b : Bool) (r : Src) : Src := { r with p := r.p && !b }

def execIcuEnableWrite (n : Nat) (w : Word) (s : State) : Host.Outcome State Fault Refusal :=
  .next (writeEnables n plainE w s)
def execIcuEnableSet (n : Nat) (w : Word) (s : State) : Host.Outcome State Fault Refusal :=
  .next (writeEnables n setE w s)
def execIcuEnableClr (n : Nat) (w : Word) (s : State) : Host.Outcome State Fault Refusal :=
  .next (writeEnables n clrE w s)
def execIcuPendingWrite (n : Nat) (w : Word) (s : State) : Host.Outcome State Fault Refusal :=
  .next (writePendings n plainP w s)
def execIcuPendingSet (n : Nat) (w : Word) (s : State) : Host.Outcome State Fault Refusal :=
  .next (writePendings n setP w s)
def execIcuPendingClr (n : Nat) (w : Word) (s : State) : Host.Outcome State Fault Refusal :=
  .next (writePendings n clrP w s)

/-- ICU_CFG_WRITE: ROUTE 6 and 7 leave ROUTE unchanged; HOLDOFF counts from the next load. -/
def writeIcuCfg (n : Nat) (w : Word) (s : State) : State :=
  if icuGroupOpen n s then
    s.onEvt (setGrp n fun g =>
      let route := if fld w 18 16 < 6 then w.extractLsb' 16 3 else g.route
      { g with route := route, holdoff := w.extractLsb' 0 16
               asserting := g.asserting && route == 1 })
  else s

def execIcuCfgWrite (n : Nat) (w : Word) (s : State) : Host.Outcome State Fault Refusal :=
  .next (writeIcuCfg n w s)

/-- ICU_LOGMASK; the bits of reserved sources stand (R412), and group 3 is never logged (R429). -/
def writeLogmask (n : Nat) (w : Word) (s : State) : State :=
  if icuGroupOpen n s then
    let defined := BitVec.ofNat 16 (definedInGroup n)
    s.onEvt (setGrp n fun g => { g with
      logmask := (w.extractLsb' 0 16 &&& defined) ||| (g.logmask &&& ~~~defined) })
  else s

/-! ### GPIO sources (R438) -/

def gpioModeOf (w : Word) (i : Nat) : Nat := fld w (2 * i + 1) (2 * i)

/-- A change of mode discards P; mode 3 takes the present condition without count or entry. -/
def writeGpioMode (w : Word) (s : State) : State :=
  if portsOpen s then
    touchGroup 24 (fun e =>
      (List.range 16).foldl (fun e i =>
        if gpioModeOf w i = gpioModeOf s.evt.gpioMode i then e
        else setSrc (384 + i) (fun r =>
          { r with p := gpioModeOf w i == 3 && !e.gpioPin.getLsbD i }) e)
        { e with gpioMode := w }) s
  else s

def execIcuGpioModeWrite (w : Word) (s : State) : Host.Outcome State Fault Refusal :=
  .next (writeGpioMode w s)

/-- GPIO_EDGE: pin i changes to a level. -/
def execGpioEdge (i : Nat) (high : Bool) (s : State) : Host.Outcome State Fault Refusal :=
  .next <|
    if i < 16 ∧ s.evt.gpioPin.getLsbD i ≠ high then
      let s := s.onEvt fun e => { e with gpioPin := e.gpioPin ^^^ (1#16 <<< i) }
      match gpioModeOf s.evt.gpioMode i with
      | 1 => if high then raise (384 + i) 0 s else s
      | 2 => if high then s else raise (384 + i) 0 s
      | 3 => setLevel (384 + i) (!high) s
      | _ => s
    else s

/-! ### PCIe function states (R418, R419, R551) -/

/-- D3HOT_ENTRY: the function enters D3hot, with PME_En as the host has set it. -/
def execD3hotEntry (pmeEnable : Bool) (s : State) : Host.Outcome State Fault Refusal :=
  .next <|
    if portsOpen s && !s.evt.d3hot && !s.evt.perst then
      raise 370 0 (s.onEvt fun e => { e with d3hot := true, pmeEnable := pmeEnable })
    else s

/-- The device may send again: what `first` does and the waiting completions come first, then every
requesting MSIX group is delivered. -/
def resumeHost (first : State → State) (s : State) : State :=
  if hostWritable s then deliverMsix (withheld (fun s => writeWaiting (first s)) s) else first s

/-- D0_RETURN: the host may clear PME_Status with the same write. -/
def execD0Return (clearPme : Bool) (s : State) : Host.Outcome State Fault Refusal :=
  .next <|
    if portsOpen s && s.evt.d3hot then
      resumeHost (raise 371 0)
        (s.onEvt fun e => { e with d3hot := false, pmeStatus := e.pmeStatus && !clearPme })
    else s

def execBusMasterEnableSet (s : State) : Host.Outcome State Fault Refusal :=
  .next <|
    if portsOpen s && !s.evt.busMaster && !s.evt.perst then
      resumeHost id (s.onEvt fun e => { e with busMaster := true })
    else s

def execBusMasterEnableClear (s : State) : Host.Outcome State Fault Refusal :=
  .next <| if portsOpen s then s.onEvt fun e => { e with busMaster := false } else s

/-- MSIX_ENABLE_SET: each MSIX group that requests is delivered (R418). -/
def execMsixEnableSet (s : State) : Host.Outcome State Fault Refusal :=
  .next <|
    if portsOpen s && !s.evt.msixEnable && !s.evt.perst then
      deliverMsix (s.onEvt fun e => { e with msixEnable := true })
    else s

/-- Send the message of vector v if it is pending and nothing holds it back (R418). -/
def sendPending (v : Nat) (e : Evt) : Evt :=
  if e.pba.getLsbD v && !e.functionMask && !e.vectorMask.getLsbD v && e.msixEnable &&
      !e.d3hot && e.busMaster then
    { e with pba := e.pba &&& ~~~(1#32 <<< v), sent := .msix v :: e.sent }
  else e

/-- MSIX_MASK_CLEAR: a vector's mask, or the function mask, clears. -/
def execMsixMaskClear (vector : Option Nat) (s : State) : Host.Outcome State Fault Refusal :=
  .next <|
    if portsOpen s then
      match vector with
      | some v =>
        s.onEvt fun e => sendPending v { e with vectorMask := e.vectorMask &&& ~~~(1#32 <<< v) }
      | none =>
        s.onEvt fun e =>
          (List.range 32).foldl (fun e v => sendPending v e) { e with functionMask := false }
    else s

def execPcieLinkUp (s : State) : Host.Outcome State Fault Refusal :=
  .next <|
    if notReset s && !s.evt.linkUp then
      raise 368 0 (s.onEvt fun e => { e with linkUp := true, perst := false })
    else s

def execPcieLinkDown (s : State) : Host.Outcome State Fault Refusal :=
  .next <|
    if notReset s && s.evt.linkUp then
      raise 369 0 (s.onEvt fun e => { e with linkUp := false })
    else s

def execPcieError (uncorrectable : Bool) (s : State) : Host.Outcome State Fault Refusal :=
  .next (raiseLimited 373 373 (b2n uncorrectable) s)

def execI2cError (s : State) : Host.Outcome State Fault Refusal :=
  .next (raiseLimited 374 374 0 s)

/-- QSPI_ERROR: a boot-flash access outside BOOT fails (R442). -/
def execQspiError (s : State) : Host.Outcome State Fault Refusal :=
  .next <| if s.pwr.mode == .boot then s else raiseLimited 375 375 0 s

/-- The endpoint's configuration space and MSI-X table at their reset values (R494). -/
def endpointReset (e : Evt) : Evt :=
  relax 1 { e with d3hot := false, busMaster := false, msixEnable := false, functionMask := false
                   vectorMask := 0xFFFFFFFF, pba := 0, pmeEnable := false, pmeStatus := false
                   linkUp := false, perst := true, waitingDone := 0 }

/-- PERST_ASSERT: the endpoint and the ring registers reset; outstanding ring commands run on
and their completions will be discarded (R494). -/
def execPerstAssert (s : State) : Host.Outcome State Fault Refusal :=
  .next <|
    if notReset s && !s.evt.perst then
      let stalled := ((List.range 4).find? (cqStalled s)).getD 0
      let s := s.onEvt endpointReset
      let s := s.onCmd fun c => { c with sq := [], cq := [], discardRaised := false, lastRing := 3 }
      let s := setJobs (s.cmd.jobs.map fun j =>
        if j.mailbox then j else { j with discarded := true, waits := false, stalled := false }) s
      settleStall stalled (raise 369 0 s)
    else s

/-! ### The event-log merge (R431, R432) -/

def logKey (h : LogEntry) : Nat := h.stamp.toNat * 4096 + h.source.toNat

/-- The held entry with the lowest (TIMESTAMP, SOURCE), the earliest on a tie. -/
def lowestHeld : List LogEntry → Option LogEntry
  | [] => none
  | h :: l =>
    match lowestHeld l with
    | none => some h
    | some m => if logKey m < logKey h then some m else some h

/-- Remove the first occurrence of an entry. -/
def dropHeld (h : LogEntry) : List LogEntry → List LogEntry
  | [] => []
  | x :: l => if x = h then l else x :: dropHeld h l

/-- The entry reached the merge after its settle window (R31), or stands below the last entry
written (R431). -/
def isLate (e : Evt) (h : LogEntry) : Bool :=
  decide (h.stamp.toNat + 500 < h.reached.toNat) ||
  match e.lastWritten with
  | none => false
  | some (t, src) => decide (logKey h < t.toNat * 4096 + src.toNat)

/-- The 32 bytes of an entry as four 64-bit words (R430). -/
def entryWords (h : LogEntry) (late : Bool) (seq : Word) : List (BitVec 128) :=
  let flags := h.source.toNat + b2n late * 2 ^ 12 + b2n h.officer * 2 ^ 13 +
    b2n h.timeInvalid * 2 ^ 14
  [BitVec.ofNat 128 h.stamp.toNat,
   BitVec.ofNat 128 (h.secs.toNat + h.ns.toNat * 2 ^ 32),
   BitVec.ofNat 128 (flags + h.code.toNat * 2 ^ 16 + h.data.toNat % 2 ^ 32 * 2 ^ 32),
   BitVec.ofNat 128 (h.data.toNat / 2 ^ 32 + seq.toNat * 2 ^ 32)]

/-- Write an entry to the ring, overwriting the oldest unread entry when it is full. -/
def writeEntry (h : LogEntry) (late : Bool) (s : State) : State :=
  let full := logFull s.evt
  let s := writeWords 11 (4 * s.evt.logWrite.toNat) (entryWords h late s.evt.seqNext) s
  let s := s.onEvt fun e => { e with
    logWrite := e.logWrite + 1
    seqNext := e.seqNext + 1
    logRead := if full then e.logRead + 1 else e.logRead
    lastSeq := e.seqNext
    lastWritten := if late then e.lastWritten else some (h.stamp, h.source) }
  let s := statAdd 0x30018 1 s
  let s := if full then errAdd 0x30030 1 s else s
  settleLog (if late then raiseLimited 51 51 0 (statAdd 0x30020 1 s) else s)

/-- The marker that counts discarded entries (R432). -/
def marker (s : State) : LogEntry where
  stamp := s.evt.period - 500
  secs := word (timeSecs s.tim.counter)
  ns := word (timeNs s.tim.counter)
  source := 4095
  officer := false
  timeInvalid := !s.tim.valid
  code := 3
  data := datum s.evt.discarded.toNat
  reached := s.evt.period

/-- The merge's next action on entry h: a marker first where one is due and there is room. -/
def mergeEntry (h : LogEntry) (s : State) : State :=
  let late := isLate s.evt h
  let room := !logFull s.evt || s.evt.overwrite
  if late || decide (h.stamp.toNat + 500 ≤ s.evt.period.toNat) then
    if room then writeEntry h late (s.onEvt fun e => { e with held := dropHeld h e.held })
    else s.onEvt fun e =>
      afterPme s.ctx (discardEntry s.ctx { e with held := dropHeld h e.held })
  else s

/-- Discards await their marker and the ring has room for it (R432). -/
def markerDue (s : State) : Bool :=
  s.evt.discarded != 0 && (!logFull s.evt || s.evt.overwrite) && decide (500 ≤ s.evt.period.toNat)

/-- The marker stands in order before every held entry (R432). -/
def markerFirst (s : State) : Bool :=
  (lowestHeld s.evt.held).all fun h => decide (logKey (marker s) < logKey h)

/-- EVLOG_MERGE_WRITE: the merge writes a due marker in its order, or the lowest held entry whose settle
window has passed, or discards it when the ring is full. -/
def execEvlogMergeWrite (s : State) : Host.Outcome State Fault Refusal :=
  .next <|
    if s.codeS then
      if markerDue s && markerFirst s then
        writeEntry (marker s) false (s.onEvt fun e => { e with discarded := 0 })
      else
        match lowestHeld s.evt.held with
        | some h => mergeEntry h s
        | none => s
    else s

/-- EVLOG_READ_WRITE: an index within the unread range, EVLOG_WRITE included (R434). -/
def writeEvlogRead (w : Word) (s : State) : State :=
  let i : BitVec 12 := w.extractLsb' 0 12
  if portsOpen s && decide ((i - s.evt.logRead).toNat ≤ unread s.evt) then
    settleLog (s.onEvt fun e => { e with logRead := i })
  else s

def execEvlogReadWrite (w : Word) (s : State) : Host.Outcome State Fault Refusal :=
  .next (writeEvlogRead w s)

/-- EVLOG_CTRL_WRITE: WATERMARK 0 leaves the field unchanged (R441). -/
def writeEvlogCtrl (w : Word) (s : State) : State :=
  if portsOpen s then
    settleLog (s.onEvt fun e => { e with
      watermark := if fld w 27 16 = 0 then e.watermark else w.extractLsb' 16 12
      overwrite := bit w 0 })
  else s

def execEvlogCtrlWrite (w : Word) (s : State) : Host.Outcome State Fault Refusal :=
  .next (writeEvlogCtrl w s)

end Sys2Proof.Machine
end

