-- ==== Sys2Proof/Machine/Dpll.lean ====
section
/-!
DEFINITION. References, selection, holdover and clock outputs of the DPLL (R294 to R321).
-/

namespace Sys2Proof.Machine

/-! ### The time counter's rate (R323, R334) -/

def role (s : State) : Nat := fld s.tim.config 31 30
def follower (s : State) : Bool := role s == 2

/-- The correction of the increment, 4 ns × c, rounded to 2^-32 ns (R334). -/
def corrUnits (c : Rat) : Int := nearest (4 * c * 4294967296)

/-- The increment of one tick: BASE + 4 ns × c, c being 0 outside FOLLOWER (R323). -/
def increment (s : State) : Int :=
  s.tim.base + (if follower s then corrUnits s.tim.corr else 0)

/-! ### Candidates (R294 to R297) -/

def candAt (s : State) (i : Nat) : Cand := tabGet {} s.dpll.cand i
def onCand (i : Nat) (f : Cand → Cand) (s : State) : State :=
  s.onDpll fun d => { d with cand := tabMod {} d.cand i f }

/-- Periods of 4 ns since a period. -/
def elapsed (s : State) (since : Quad) : Nat := (s.evt.period - since).toNat

/-- The frequency limit that applies in a state, in 0.001 ppm. -/
def freqLimit (c : Cand) : Int :=
  match c.state with
  | .qualified | .suspect => c.reject.toNat * 100
  | _ => c.accept.toNat * 100

/-- The last reading lies within the limit that applies. -/
def freqInside (c : Cand) : Bool := decide (-freqLimit c ≤ c.offset) && decide (c.offset ≤ freqLimit c)

/-- FREQ_OK of a candidate as it stands: it has been read, and lies within the limit of its present state
(R320). -/
def Cand.judged (c : Cand) : Cand := { c with freqOk := c.read && freqInside c }

/-- A candidate changes state. -/
def toRefState (i : Nat) (st : RefState) (s : State) : State :=
  let now := s.evt.period
  onCand i (fun c => { c with state := st, since := now, agreeSince := none }.judged) s

/-- A candidate enters FAILED; REF_FAILED when it leaves one of the later states (R321). -/
def failCand (i : Nat) (s : State) : State :=
  let was := (candAt s i).state
  let s := toRefState i .failed s
  if was = .qualifying ∨ was = .qualified ∨ was = .suspect then raise 113 i s else s

/-- An activity fault, acted on at once (R296, R297). -/
def activityFault (i : Nat) (s : State) : State :=
  if (candAt s i).state = .disabled then s
  else failCand i (onCand i (fun c => { c with activityOk := false, gaps := [] }) s)

/-- A candidate of R294's last column becomes valid or stops being so. -/
def setCandValid (i : Nat) (b : Bool) (s : State) : State :=
  if (candAt s i).valid = b then s
  else
    let s := onCand i (fun c => { c with valid := b }) s
    if b then s else activityFault i s

/-- On entry into STANDBY from BOOT every candidate but the REFINs starts in FAILED (R316). -/
def startCandidates (s : State) : State :=
  ((List.range 18).map (8 + ·)).foldl (fun s i => onCand i (fun c => { c with state := .failed }) s) s

/-- A candidate moves by its monitors: whether its offset lies within the limit that applies (R297). -/
def moveCand (i : Nat) (inside : Bool) (s : State) : State :=
  let s := onCand i Cand.judged s
  let c := candAt s i
  match c.state with
  | .failed => if c.activityOk && inside then toRefState i .qualifying s else s
  | .qualifying | .qualified | .suspect => if inside then s else failCand i s
  | .disabled => s

/-- A new frequency reading in 0.001 ppm, which REF_STATUS holds saturated (R320). -/
def takeReading (i : Nat) (offset : Int) (s : State) : State :=
  let off := clampInt (-8388607) 8388607 offset
  let s := onCand i (fun c => { c with offset := off, read := true }) s
  moveCand i (freqInside (candAt s i)) s

/-- 1 s in 25 ps, and PULSE_WINDOW in 25 ps. -/
def secondSteps : Nat := 40000000000
def pulseWindow (c : Cand) : Nat := c.window.toNat * 400000

/-- The reading of a PULSE candidate: its last 16 intervals against 1 Hz. -/
def pulseOffset (c : Cand) : Int :=
  nearest ((16 * secondSteps : Nat) / (c.gaps.sum : Rat) * 1000000000 - 1000000000)

/-- The PULSE candidate has its 16 good pulses. -/
def pulsesReady (c : Cand) : Bool := !c.pulse || c.gaps.length == 16

/-- A pulse in order: the activity fault, if any, is over, and the frequency is read from the sixteenth
good interval on (R296, R297). -/
def goodPulse (i : Nat) (gaps : List Nat) (s : State) : State :=
  let s := onCand i (fun c => { c with activityOk := true, gaps := gaps }) s
  let c := candAt s i
  if pulsesReady c then takeReading i (pulseOffset c) s else moveCand i true s

/-- A pulse of a PULSE candidate at a root time in 25 ps: before the window of 1 s after the one before
it is a fault, a second pulse within the window among them; after the window the pulse that did not come
is one, and this is the first of a new run (R296). -/
def takePulse (i time : Nat) (s : State) : State :=
  let c := candAt s i
  let s := onCand i (fun c => { c with pulseAt := some time }) s
  let s := if s.dpll.state == .switching && s.dpll.target == some i then
      s.onDpll fun d => { d with settlePulses := d.settlePulses + 1 } else s
  match c.pulseAt with
  | none => goodPulse i [] s
  | some p =>
    if time - p + pulseWindow c < secondSteps then activityFault i s
    else if time - p ≤ secondSteps + pulseWindow c then
      goodPulse i (((time - p) :: c.gaps).take 16) s
    else goodPulse i [] (activityFault i s)

/-- REF_ACTIVITY_FAULT: no edge within the activity limit; of a PULSE candidate, no pulse by the end
of the window. -/
def execRefActivityFault (i : Nat) (s : State) : Host.Outcome State Fault Refusal :=
  .next <|
    let c := candAt s i
    let due := !c.pulse || match c.pulseAt with
      | some p => decide (p + secondSteps + pulseWindow c < s.evt.period.toNat * 160)
      | none => true
    if s.codeS && decide (i < 26) && due then activityFault i s else s

/-- REF_QUALIFIED: QUAL_TIME has passed in QUALIFYING; a PULSE candidate also needs its 16 pulses. -/
def execRefQualified (i : Nat) (s : State) : Host.Outcome State Fault Refusal :=
  .next <|
    let c := candAt s i
    if s.codeS && decide (i < 26) && c.state == .qualifying && pulsesReady c &&
        decide (c.qualTime.toNat * secondPeriods ≤ elapsed s c.since) then
      raise 112 i (toRefState i .qualified s)
    else s

/-! ### Rank and the best candidate (R299) -/

/-- The rank of a candidate: 1 to 15, or 16 where the priority table excludes it. -/
def rank (s : State) (i : Nat) : Nat :=
  if 24 ≤ i ∨ (candAt s i).priority = 0 then 16 else (candAt s i).priority.toNat

def qualified (s : State) (i : Nat) : Bool := (candAt s i).state == .qualified

/-- Two candidates of equal rank in the table. -/
def equalRank (s : State) (i j : Nat) : Bool := i != j && rank s i == rank s j && rank s i != 16

/-- The offsets of two candidates differ by more than DISAGREE_LIMIT (R305). -/
def differ (s : State) (a b : Int) : Bool :=
  decide (s.dpll.disagreeLimit.toNat * 100 < (a - b).natAbs)

def offsetsDisagree (s : State) (i j : Nat) : Bool :=
  differ s (candAt s i).offset (candAt s j).offset

def candidates : List Nat := List.range 26

/-- A QUALIFIED candidate of a disagreeing pair while no estimate judges it (R307). -/
def blocked (s : State) (i : Nat) : Bool :=
  decide (s.dpll.history < 60) && qualified s i &&
    candidates.any fun j => equalRank s i j && qualified s j && offsetsDisagree s i j

/-- A candidate may be newly selected. -/
def eligible (s : State) (i : Nat) : Bool :=
  qualified s i && (s.dpll.current == some i || !blocked s i)

/-- The best candidate of the priority table (R299). -/
def best (s : State) : Option Nat :=
  candidates.foldl (fun b i =>
    if !eligible s i || rank s i == 16 then b
    else match b with
      | none => some i
      | some k =>
        if rank s i < rank s k ∨ (rank s i = rank s k ∧ s.dpll.current = some i) then some i
        else b) none

/-- MANUAL is in force and its candidate is QUALIFIED (R298, R301). -/
def manualHolds (s : State) : Bool :=
  s.dpll.mode == .manual && eligible s s.dpll.manual.toNat

/-- The candidate that the selection mode would use. -/
def wanted (s : State) : Option Nat :=
  match s.dpll.mode with
  | .auto => best s
  | .manual => if manualHolds s then some s.dpll.manual.toNat else best s
  | _ => none

/-! ### Disagreement (R305 to R307) -/

/-- The estimate's offset in 0.001 ppm. -/
def estimateOffset (s : State) : Rat := s.dpll.estimate / 1000000

/-- How far a candidate lies from the estimate, in 0.001 ppm. -/
def farFromEstimate (s : State) (i : Nat) : Rat :=
  absRat (((candAt s i).offset : Rat) - estimateOffset s)

def judged (s : State) (i : Nat) : Bool :=
  (candAt s i).state == .qualified || (candAt s i).state == .suspect

/-- Some pair makes candidate i SUSPECT: it is the farther, or both are equally far. -/
def suspected (s : State) (i : Nat) : Bool :=
  decide (60 ≤ s.dpll.history) && judged s i &&
    candidates.any fun j => equalRank s i j && judged s j && offsetsDisagree s i j &&
      decide (farFromEstimate s j ≤ farFromEstimate s i + 1)

/-- A SUSPECT candidate agrees with its QUALIFIED peers, or with the estimate if it has none. -/
def agrees (s : State) (i : Nat) : Bool :=
  let peers := candidates.filter fun j => equalRank s i j && qualified s j
  if peers.isEmpty then
    decide (farFromEstimate s i ≤ (s.dpll.disagreeLimit.toNat * 100 : Nat))
  else peers.all fun j => !offsetsDisagree s i j

/-- The comparison of one candidate at an evaluation, against the state before it. -/
def judge (s0 : State) (i : Nat) (s : State) : State :=
  match (candAt s0 i).state with
  | .qualified =>
    if suspected s0 i then raise 114 i (toRefState i .suspect s) else s
  | .suspect =>
    if !suspected s0 i && agrees s0 i then
      let from' := (candAt s0 i).agreeSince.getD s0.evt.period
      if 10 * secondPeriods ≤ elapsed s0 from' then raise 112 i (toRefState i .qualified s)
      else onCand i (fun c => { c with agreeSince := some from' }) s
    else onCand i (fun c => { c with agreeSince := none }) s
  | _ => s

/-- DISAGREE and its onset, with the lowest candidate of a pair (R307). -/
def judgeDisagree (s : State) : State :=
  let first := candidates.find? (blocked s)
  let was := s.dpll.disagree
  let s := s.onDpll fun d => { d with disagree := first.isSome }
  match first, was with
  | some i, false => raise 115 i s
  | _, _ => s

/-! ### States (R302, R308, R316) -/

/-- HOLDOVER and FREERUN follow DPLL_STATUS.STATE (R321). -/
def settleDpll (s : State) : State :=
  setLevel 120 (s.dpll.state == .freerun) (setLevel 119 (s.dpll.state == .holdover) s)

/-- Enter HOLDOVER, or FREERUN without a valid estimate; each entry counts (R308). -/
def enterHoldover (s : State) : State :=
  let st := if 60 ≤ s.dpll.history then DpllState.holdover else .freerun
  let into := s.dpll.state != .holdover && s.dpll.state != .freerun
  let s := s.onDpll fun d => { d with
    state := if d.state = .holdover ∨ d.state = .freerun then d.state else st
    current := none, target := none }
  if into then errAdd 0x70038 1 s else s

/-- SETTLE begins, in full, toward a target. -/
def settleOn (t : Nat) (s : State) : State :=
  let now := s.evt.period
  s.onDpll fun d => { d with
    state := .switching, target := some t, decideY := d.y, settleAt := now, settlePulses := 0 }

/-- DECIDE: a switch starts (R302). -/
def startSwitch (t : Nat) (s : State) : State := raise 116 t (settleOn t s)

/-- A redirection is raised and counted (R303). -/
def redirection (t : Nat) (s : State) : State := raise 117 t (statAdd 0x70030 1 s)

/-- The target of a switch in SETTLE becomes `t`; a change is a redirection (R303). -/
def redirect (t : Nat) (s : State) : State :=
  let was := s.dpll.target
  let s := settleOn t s
  if was = some t then s else redirection t s

/-- DECIDE again under a new mode (R303 row 1). -/
def decideAgain (s : State) : State :=
  match wanted s with
  | some t => redirect t s
  | none => enterHoldover s

/-- DECIDE again as target `t` is lost (R303 row 2): another target, or the switch is abandoned. -/
def targetLost (t : Nat) (s : State) : State :=
  match wanted s with
  | some b => redirection b (settleOn b s)
  | none => enterHoldover (redirection t s)

/-- A candidate ranks strictly higher than another. -/
def ranksAbove (s : State) (i k : Nat) : Bool := decide (rank s i < rank s k)

/-- An evaluation during SETTLE (R303). -/
def settleStep (t : Nat) (s : State) : State :=
  if s.dpll.commanded then decideAgain s
  else if !qualified s t || blocked s t then targetLost t s
  else
    match wanted s with
    | some b => if b ≠ t ∧ (manualHolds s || ranksAbove s b t) then redirect b s else s
    | none => s

/-- The better candidate's WTR has run (R300). -/
def wtrPassed (s : State) (i : Nat) : Bool :=
  decide (s.dpll.wtr.toNat * secondPeriods ≤ elapsed s (candAt s i).since)

/-- An evaluation outside SETTLE (R300, R301). -/
def selectStep (s : State) : State :=
  match s.dpll.current with
  | none =>
    match wanted s with
    | some b => startSwitch b s
    | none => enterHoldover s
  | some k =>
    match wanted s with
    | none => if qualified s k then s else enterHoldover s
    | some b =>
      if b = k then s
      else if !qualified s k || manualHolds s ||
          (s.dpll.revertive && ranksAbove s b k && wtrPassed s b) then startSwitch b s
      else s

/-- A better candidate's WTR is running (R319). -/
def wtrRuns (s : State) : Bool :=
  match s.dpll.current with
  | some k =>
    s.dpll.revertive && candidates.any fun i => eligible s i && ranksAbove s i k && !wtrPassed s i
  | none => false

/-- FALLBACK and the sources of R301. -/
def manualStep (s : State) : State :=
  let f := s.dpll.mode == .manual && !qualified s s.dpll.manual.toNat
  let was := s.dpll.fallback
  let s := s.onDpll fun d => { d with fallback := f }
  if f && !was then raise 122 s.dpll.manual.toNat s
  else if was && !f && s.dpll.mode == .manual then raise 123 s.dpll.manual.toNat s
  else s

/-- The selection logic of one evaluation. -/
def selection (s : State) : State :=
  match s.dpll.mode with
  | .nco =>
    s.onDpll fun d => { d with state := .nco, current := none, target := none }
  | .forcedHoldover => enterHoldover s
  | _ =>
    match s.dpll.state, s.dpll.target with
    | .switching, some t => settleStep t s
    | _, _ => selectStep s

/-! ### The loop (R304, R310, R311) -/

/-- Bandwidth in Hz and damping code that apply to an input, and its lock limit in ps (R311). -/
def loopSettings (s : State) (i : Nat) : Rat × Nat × Nat :=
  let d := s.dpll
  if i = 24 then (10 * d.lineBw.toNat, d.lineDamp.toNat, 100)
  else if i = 25 then ((d.timeBw.toNat : Rat) / 10, d.timeDamp.toNat, 1000)
  else if (candAt s i).pulse then ((d.pulseBw.toNat : Rat) / 1000, d.pulseDamp.toNat, 100000)
  else ((d.freqBw.toNat : Rat) / 10, d.freqDamp.toNat, 1000)

/-- The damping factor and k of a damping code. -/
def loopDamping : Nat → Rat × Rat
  | 0 => (707 / 1000, 2058 / 1000)
  | 1 => (1, 2482 / 1000)
  | 2 => (5 / 2, 5200 / 1000)
  | _ => (5, 10100 / 1000)

/-- Kp in 1/s and Ki in 1/s². -/
def loopGains (bw : Rat) (damp : Nat) : Rat × Rat :=
  let w := 2 * piRat * bw / (loopDamping damp).2
  (2 * (loopDamping damp).1 * w, w * w)

/-! ### The output offset (R302, R304, R308, R309, R316) -/

/-- Where the state draws the output offset. -/
def wantedY (loopY : Int) (d : Dpll) : Int :=
  match d.state with
  | .freerun => 0
  | .acquire | .locked => loopY
  | .switching => if 60 ≤ d.history then openRound d.estimate else d.decideY
  | .holdover => openRound d.estimate
  | .nco => d.nco

/-- One millisecond of movement at the SLEW limit, in 0.001 ppt. -/
def slewStep (d : Dpll) : Int := d.slew.toNat * 10000

/-- The phase that the detector measures: a switch's target against the output as it stands (R302), else
the current input less the offset absorbed at COMMIT (R304). -/
def phaseOf (raw : Int) (d : Dpll) : Int :=
  if d.state = .switching ∨ d.current.isNone then raw else raw - d.built

/-- The input that the phase detector measures. -/
def measured (d : Dpll) : Option Nat := if d.state = .switching then d.target else d.current

/-- A new reading of the phase detector. -/
def readPhase (raw : Int) (s : State) : State :=
  s.onDpll fun d => { d with raw := raw, phase := phaseOf raw d }

/-- A millisecond of the loop on the current input: its integral term moves by the phase, which outside the
lock limit starts the lock time again (R310, R311). -/
def takePhase (s : State) : State :=
  let now := s.evt.period
  match s.dpll.current with
  | some k =>
    let set := loopSettings s k
    s.onDpll fun d =>
      if d.state = .acquire ∨ d.state = .locked then { d with
        loop := d.loop + (loopGains set.1 set.2.1).2 * d.phase
        lockFrom := if d.phase.natAbs ≤ set.2.2 then d.lockFrom else now }
      else d
  | none => s

/-- What the loop on the current input asks for. -/
def loopWants (s : State) : Int :=
  match s.dpll.current with
  | some k =>
    let set := loopSettings s k
    nearest ((loopGains set.1 set.2.1).1 * s.dpll.phase * 1000 + s.dpll.loop)
  | none => s.dpll.y

/-- The output moves toward what the state asks for, no faster than SLEW. -/
def moveOutput (s : State) : State :=
  let now := s.evt.period
  let want := wantedY (loopWants s) s.dpll
  let y := clampInt (s.dpll.y - slewStep s.dpll) (s.dpll.y + slewStep s.dpll) want
  let limited := y ≠ want
  let onset := limited ∧ !s.dpll.slewLimited
  let s := s.onDpll fun d => { d with
    y := y, slewLimited := decide limited
    trail := ((now, y, d.state == .locked) :: d.trail).take 11000 }
  if onset then raiseLimited 126 126 0 s else s

/-! ### The outputs (R312 to R314) -/

def outAt (s : State) (o : Nat) : ClkOut := tabGet {} s.dpll.out o
def onOut (o : Nat) (f : ClkOut → ClkOut) (s : State) : State :=
  s.onDpll fun d => { d with out := tabMod {} d.out o f }

/-- The frequency of an enabled CLKOUT in Hz against XTAL_IN: set against the DPLL output, with one high
period in F_DIV in FRAME mode (R312). -/
def clkoutHz (s : State) (o : Nat) : Rat :=
  let set := (outAt s o).set
  let f := (set.freq.toNat : Rat) * (1 + (s.dpll.y : Rat) / 10 ^ 15)
  if !set.enable then 0 else if set.frame then f / (set.fdiv.toNat : Nat) else f

/-- Root time in 25 ps at a TIMESTAMP period. -/
def rootNow (s : State) : Nat := s.evt.period.toNat * 160

/-- A relock holds output `o` low (R312). -/
def relocking (s : State) (o : Nat) : Bool := (outAt s o).relock.any fun e => decide (rootNow s < e)

/-- The period of an output in 25 ps of root time: of its clock, of its FRAME pulses, or of ALIGNED mode's
one pulse per second of the DPLL output (R312, R313); 0 of an output that gives none. -/
def outPeriod (s : State) (o : Nat) : Rat :=
  let hz := if o < 4 then clkoutHz s o
    else if (outAt s o).set.enable && !(outAt s o).timed then 1 + (s.dpll.y : Rat) / 10 ^ 15 else 0
  if hz = 0 then 0 else (secondSteps : Rat) / hz

/-- The edges of an output up to a root time have passed. -/
def passEdges (time period : Rat) (x : ClkOut) : ClkOut :=
  match x.next with
  | some e =>
    if period ≤ 0 ∨ time < e then x
    else
      let n := ((time - e) / period).floor
      { x with last := some (e + n * period), next := some (e + (n + 1) * period) }
  | none => x

/-- The outputs run on to the present period. -/
def runOutputs (s : State) : State :=
  let now : Rat := (rootNow s : Nat)
  (List.range 8).foldl (fun s o => onOut o (passEdges now (outPeriod s o)) s) s

/-- An ALIGNED PPSOUT is high: its width has not run since its last pulse began (R313). -/
def ppsHigh (s : State) (o : Nat) : Bool :=
  let x := outAt s o
  decide (0 < outPeriod s o) && x.last.any fun e =>
    decide (((rootNow s : Nat) : Rat) < e + (x.set.width.toNat * 40000 : Nat))

/-- Where the first edge at `at'` modulo the period falls that does not shorten the cycle in progress, which
would end at `next` (R314). -/
def alignedEdge (at' period next : Rat) : Rat :=
  if period ≤ 0 then at' else at' + ((next - at') / period).ceil * period

/-! ### The evaluation -/

/-- What TIMECLK, whose rate is that of the counter's increment, gains on the output from the evaluation
before to this one, in ps (R295; by the rates at this evaluation, DEDUCED, log 174). -/
def timeGain (s : State) : Rat :=
  let ps : Rat := (4000 * (s.dpll.evalAt.map fun p => elapsed s p).getD 0 : Nat)
  ((increment s : Rat) / (4 * 2 ^ 32 : Nat) - 1 - (s.dpll.y : Rat) / 10 ^ 15) * ps

/-- The phase detector at an evaluation: TIMECLK's phase follows its rate and the output's (R295), any other
input's is the reading that an edge has given, which stands until the next edge. -/
def detectPhase (phase : Int) (fresh : Bool) (s : State) : State :=
  if measured s.dpll = some 25 then readPhase (nearest s.dpll.timePhase) s
  else if fresh then readPhase phase s else s

/-- DPLL_EVALUATION: the selection logic's 1 ms evaluation, with the phase detector's reading. -/
def execDpllEvaluation (phase : Int) (fresh : Bool) (s : State) : Host.Outcome State Fault Refusal :=
  .next <|
    if s.codeS && s.dpll.evalAt.all (fun p => usSince 1000 p s) then
      let now := s.evt.period
      let gain := timeGain s
      let s := (runOutputs s).onDpll fun d => { d with evalAt := some now, timePhase := d.timePhase + gain }
      let s1 := judgeDisagree (candidates.foldl (fun t i => judge s i t) s)
      let s2 := selection (manualStep s1)
      let w := wtrRuns s2
      settleDpll (moveOutput (takePhase (detectPhase phase fresh (s2.onDpll fun d =>
        { d with commanded := false, wtrRunning := w }))))
    else s

/-- SETTLE_TIME has passed: 100 ms, 10 ms for LINECLK, three pulses of a PULSE target. -/
def settled (s : State) (t : Nat) : Bool :=
  if (candAt s t).pulse then decide (3 ≤ s.dpll.settlePulses)
  else decide ((if t = 24 then 2500000 else 25000000) ≤ elapsed s s.dpll.settleAt)

/-- SWITCH_COMMITTED: the loop closes on the target. The phase measured during SETTLE is absorbed,
except on a PULSE target, and the loop starts from the output offset as it is (R302, R304). -/
def execSwitchCommitted (s : State) : Host.Outcome State Fault Refusal :=
  .next <|
    match s.dpll.state, s.dpll.target with
    | .switching, some t =>
      if settled s t then
        let now := s.evt.period
        let built := if (candAt s t).pulse then 0 else s.dpll.raw
        let s := s.onDpll fun d => { d with
          state := .acquire, current := some t, target := none
          built := built, phase := d.raw - built, loop := (d.y : Rat), lockFrom := now }
        settleDpll (raise 118 t (statAdd 0x70028 1 s))
      else s
    | _, _ => s

/-- The phase error has stayed within the lock limit for 2/BW (R311). -/
def lockDue (s : State) : Bool :=
  match s.dpll.current with
  | some k => decide (2 * (secondPeriods : Nat) ≤ (elapsed s s.dpll.lockFrom : Nat) * (loopSettings s k).1)
  | none => false

/-- DPLL_LOCKED. -/
def execDpllLocked (s : State) : Host.Outcome State Fault Refusal :=
  .next <|
    if s.dpll.state = .acquire ∧ lockDue s then
      settleDpll (s.onDpll fun d => { d with state := .locked })
    else s

/-- The phase error exceeds four times the lock limit. -/
def lockGone (s : State) : Bool :=
  match s.dpll.current with
  | some k => decide (4 * (loopSettings s k).2.2 < s.dpll.phase.natAbs)
  | none => false

/-- LOCK_LOST: back to ACQUIRE, counting nothing (R311). -/
def execLockLost (s : State) : Host.Outcome State Fault Refusal :=
  .next <|
    if s.dpll.state = .locked ∧ lockGone s then
      let now := s.evt.period
      settleDpll (raise 121 ((s.dpll.current.getD 31)) (s.onDpll fun d =>
        { d with state := .acquire, lockFrom := now }))
    else s

/-- One more value into the holdover average (R308). -/
def average (v : Int) (d : Dpll) : Dpll :=
  let n := d.history + 1
  let weight := if n ≤ d.holdTau.toNat then n else d.holdTau.toNat
  { d with history := n, estimate := d.estimate + ((v : Rat) - d.estimate) / (weight : Nat) }

/-- y as it stood HOLD_GUARD earlier, and whether the DPLL was LOCKED then. -/
def guarded (s : State) : Option (Int × Bool) :=
  (s.dpll.trail.find? fun e =>
    decide (s.dpll.holdGuard.toNat * secondPeriods ≤ elapsed s e.1)).map fun e => e.2

/-- HOLDOVER_SAMPLE: once a second, y of HOLD_GUARD earlier, if the DPLL was LOCKED then. -/
def execHoldoverSample (guard : Nat) (s : State) : Host.Outcome State Fault Refusal :=
  .next <|
    if s.dpll.state = .locked && guard == s.dpll.holdGuard.toNat &&
        s.dpll.sampledAt.all (fun p => usSince 1000000 p s) then
      let now := s.evt.period
      let s := s.onDpll fun d => { d with sampledAt := some now }
      match guarded s with
      | some (v, true) => s.onDpll (average v)
      | _ => s
    else s

/-! ### The numeric oscillator (R309) -/

/-- A write of DPLL_NCO_LO waits for the high word. -/
def writeNcoLo (w : Word) (s : State) : State :=
  if s.codeS then s.onDpll fun d => { d with ncoLo := w, ncoWritten := w } else s

/-- DPLL_NCO_HI_WRITE applies the pair, clamped to 500 ppm either way. -/
def writeNcoHi (w : Word) (s : State) : State :=
  if s.codeS then
    s.onDpll fun d =>
      let v := clampInt (-500000000000) 500000000000
        (signed 40 (fld w 7 0 * 2 ^ 32 + d.ncoWritten.toNat))
      let u := wrapInt 40 v
      { d with nco := v, ncoLo := word u, ncoHi := BitVec.ofNat 8 (u / 2 ^ 32) }
  else s

def execDpllNcoHiWrite (w : Word) (s : State) : Host.Outcome State Fault Refusal :=
  .next (writeNcoHi w s)

/-! ### Commands (R317) -/

/-- An input of the DPLL that a command must not take away. -/
def inUse (s : State) (i : Nat) : Bool := s.dpll.current == some i || s.dpll.target == some i

/-- The REFIN that captures are bound to (R341). -/
def captureBound (s : State) (i : Nat) : Bool :=
  bit s.tim.config 25 && fld s.tim.config 23 21 == i

def refConfigBody (j : Job) (s : State) : Verdict :=
  let w0 := j.param 0
  let i := fld w0 4 0
  let refin := decide (i < 8)
  let c := candAt s i
  let pulse := bit w0 8
  let off := bit w0 9
  let f := (j.param 1).toNat
  let acc := fld (j.param 2) 15 0
  let rej := fld (j.param 2) 31 16
  let change := c.state != .disabled && refin && (c.pulse != pulse || c.nominal != j.param 1)
  match firstRefusal [
    (decide (25 < i) || (!refin && (pulse || off)), badParam 0),
    (!off && refin && (if pulse then f != 1 else decide (f < 1000) || decide (800000000 < f)),
      badParam 1),
    (!off && (decide (acc < 1) || decide (5000 < acc) || decide (5000 < rej) || decide (rej ≤ acc)),
      badParam 2),
    (!off && (decide (600 < fld (j.param 3) 15 0) || decide (fld (j.param 3) 31 16 < 1) ||
      decide (10000 < fld (j.param 3) 31 16)), badParam 3),
    (inUse s i && (off || change), refBusy),
    (refin && captureBound s i && (off || c.pulse != pulse), refBusy)] with
  | some r => .refuse r
  | none =>
    if off then
      .complete (onCand i (fun c => { c with state := .disabled, valid := false, activityOk := false
                                             freqOk := false, read := false, pulseAt := none, gaps := [] }) s) []
    else
      let n : Cand := { c with
        pulse := refin && pulse
        nominal := if refin then j.param 1 else c.nominal
        priority := if 24 ≤ i then c.priority else w0.extractLsb' 12 4
        accept := BitVec.ofNat 16 acc, reject := BitVec.ofNat 16 rej
        qualTime := (j.param 3).extractLsb' 0 16, window := (j.param 3).extractLsb' 16 16
        valid := refin || c.valid }
      if { n with priority := c.priority } = c then .complete (onCand i (fun _ => n) s) []
      else .complete (failCand i
        (onCand i (fun _ => { n with
          activityOk := false, pulseAt := none, gaps := [], read := c.read && !change }) s)) []

def execOpDpllRefConfig (j : Nat) (s : State) : Host.Outcome State Fault Refusal :=
  .next (runOp 0x0601 4 refConfigBody j s)

def selModeOf : Nat → SelMode
  | 0 => .auto | 1 => .manual | 2 => .nco | _ => .forcedHoldover

def selectBody (j : Job) (s : State) : Verdict :=
  let w0 := j.param 0
  let mode := selModeOf (fld w0 1 0)
  let i := fld w0 12 8
  match firstRefusal [
    (mode == .manual && (decide (25 < i) || (decide (i < 8) && (candAt s i).state == .disabled)),
      badParam 0),
    (decide (3600 < (j.param 1).toNat), badParam 1)] with
  | some r => .refuse r
  | none =>
    .complete (s.onDpll fun d => { d with
      mode := mode, revertive := bit w0 2, manual := w0.extractLsb' 8 5, wtr := j.param 1
      commanded := true }) []

def execOpDpllSelect (j : Nat) (s : State) : Host.Outcome State Fault Refusal :=
  .next (runOp 0x0602 2 selectBody j s)

/-- A value lies outside a range. -/
def outside (lo hi v : Nat) : Bool := decide (v < lo) || decide (hi < v)

def loopBody (j : Job) (s : State) : Verdict :=
  let w := j.param
  match firstRefusal [
    (outside 1 100 (fld (w 0) 6 0), badParam 0),
    (outside 1 1000 (fld (w 1) 9 0), badParam 1),
    (outside 1 1000 (fld (w 2) 9 0), badParam 2),
    (outside 1 400 (fld (w 3) 8 0), badParam 3),
    (outside 1 1000 (fld (w 4) 15 0) || outside 1 10000 (fld (w 4) 31 16), badParam 4),
    (outside 60 10000 (fld (w 5) 15 0) || decide (10 < fld (w 5) 19 16), badParam 5)] with
  | some r => .refuse r
  | none =>
    .complete (s.onDpll fun d => { d with
      pulseBw := (w 0).extractLsb' 0 7, pulseDamp := (w 0).extractLsb' 16 2
      freqBw := (w 1).extractLsb' 0 10, freqDamp := (w 1).extractLsb' 16 2
      timeBw := (w 2).extractLsb' 0 10, timeDamp := (w 2).extractLsb' 16 2
      lineBw := (w 3).extractLsb' 0 9, lineDamp := (w 3).extractLsb' 16 2
      disagreeLimit := (w 4).extractLsb' 0 16, slew := (w 4).extractLsb' 16 16
      holdTau := (w 5).extractLsb' 0 16, holdGuard := (w 5).extractLsb' 16 4 }) []

def execOpDpllLoop (j : Nat) (s : State) : Host.Outcome State Fault Refusal :=
  .next (runOp 0x0603 6 loopBody j s)

/-- The last command that names a PPSOUT sets its mode (R313): ALIGNED ends any TIMED pulse. -/
def toAligned (o : Nat) (s : State) : State :=
  if 4 ≤ o then
    s.onTim fun t => { t with pulse := tabMod {} t.pulse (o - 4) fun p => { p with mode := .off } }
  else s

/-- How long a relock takes: at most 50 us, a free value (R312). -/
def relockSteps (v : BitVec 512) : Nat := v.toNat % 2000001

/-- Where an output that starts or relocks begins: a relock ends with a rising edge, and the phase of an
output that starts without one is open, within its period (a free value, R313, R314). -/
def startEdge (now : Nat) (relock : Bool) (period : Rat) (v : BitVec 512) : Rat :=
  if relock then ((now + relockSteps v : Nat) : Rat)
  else ((now + v.toNat % ((max 1 period).floor.toNat) : Nat) : Rat)

/-- An output takes its settings; a change of frequency, F_DIV or mode relocks it (R312). An output that
runs on keeps its phase. -/
def putOut (o : Nat) (set : OutSet) (s : State) : State :=
  let now := rootNow s
  let v := drawFree s
  let x := outAt s o
  let same := x.set.freq == set.freq && x.set.fdiv == set.fdiv && x.set.frame == set.frame
  let s := onOut o (fun x => { x with set := set, timed := false }) (runOutputs v.2)
  let keeps := same && x.set.enable && x.next.isSome
  onOut o (fun x => { x with
    relock := if same then x.relock else some (now + relockSteps v.1)
    next := if !set.enable then none else if keeps then x.next
      else some (startEdge now (!same) (outPeriod s o) v.1)
    last := if keeps then x.last else none }) s

def outputBody (j : Job) (s : State) : Verdict :=
  let w0 := j.param 0
  let o := fld w0 2 0
  let w1 := (j.param 1).toNat
  let k := fld w0 15 11
  let c := candAt s k
  let align := bit w0 10
  let off := signed 37 ((j.param 3).toNat + fld (j.param 4) 4 0 * 2 ^ 32)
  let set : OutSet := {
    enable := bit w0 8, frame := decide (o < 4) && bit w0 9
    freq := if o < 4 then j.param 1 else 0
    fdiv := if o < 4 then j.param 2 else 0
    width := if o < 4 then 100 else j.param 1 }
  match firstRefusal [
    (align && (decide (7 < k) || !c.pulse), badParam 0),
    (if o < 4 then outside 1000 800000000 w1 else outside 1 500000 w1, badParam 1),
    (decide (o < 4) && bit w0 9 && outside 2 16777216 (j.param 2).toNat, badParam 2),
    (align && decide (40000000000 < off.natAbs), badParam 3),
    (align && (outAt s o).armed.isSome, refBusy)] with
  | some r => .refuse r
  | none =>
    if !align then
      .complete (toAligned o (putOut o set s)) []
    else if c.state = .failed ∨ c.state = .disabled then
      .decided (raise 125 o (finish j.id stTimeout 0 [] s))
    else
      .accept (onOut o (fun x => { x with armed := some { job := j.id, cand := k, offset := off
                                                          set := set, since := s.evt.period } }) s)

def execOpDpllOutput (j : Nat) (s : State) : Host.Outcome State Fault Refusal :=
  .next (runOp 0x0604 5 outputBody j s)

/-- ALIGN_FAIL: no aligning pulse within 2 s (R315). -/
def execAlignFail (o : Nat) (s : State) : Host.Outcome State Fault Refusal :=
  .next <|
    match (outAt s o).armed with
    | some a =>
      if 2 * secondPeriods ≤ elapsed s a.since then
        raise 125 o (finish a.job stTimeout 0 [] (onOut o (fun x => { x with armed := none }) s))
      else s
    | none => s

/-- The output moves its phase: the cycle in progress is lengthened until an edge falls at `at'` or a whole
number of periods from it (R314). -/
def moveEdge (o : Nat) (at' : Rat) (s : State) : State :=
  onOut o (fun x => { x with next := x.next.map (alignedEdge at' (outPeriod s o)) }) (runOutputs s)

/-- ALIGN_DONE: at the aligning pulse, at a root time in 25 ps, the output moves its phase and the
command commits. A PPSOUT that an OP_TIME_PULSE has named since stays in TIMED mode (R313; DEDUCED, log
175). -/
def alignOutput (i time o : Nat) (s : State) : State :=
  match (outAt s o).armed with
  | some a =>
    if a.cand = i then
      let edge := (time : Int) + a.offset
      let s := moveEdge o edge (putOut o a.set s)
      let s := onOut o (fun x => { x with
        armed := none, aligned := some (a.cand, edge), timed := a.timed }) s
      raise 124 o (commitDone a.job [] (if a.timed then s else toAligned o s))
    else s
  | none => s

end Sys2Proof.Machine
end

