-- ==== Sys2Proof/Machine/Time.lean ====
section
/-!
DEFINITION. The time counter (R322 to R325), the interval measurements and the servo (R328 to
R338), setting and stepping (R339 to R341), timed pulses (R344 to R346) and their commands.
-/

namespace Sys2Proof.Machine

/-! ### Fields of TIME_CONFIG, TIME_LIMITS and TIME_PLANES (R351) -/

def damping (s : State) : Nat := fld s.tim.config 29 28
def captureEnabled (s : State) : Bool := bit s.tim.config 25
def captureRefin (s : State) : Nat := fld s.tim.config 23 21
/-- LOCK_LIMIT in ns. -/
def lockLimit (s : State) : Rat := (fld s.tim.config 9 0 : Nat) / 10
/-- CORR_LIMIT as a ratio. -/
def corrLimit (s : State) : Rat := (fld s.tim.limits 28 20 : Nat) / 1000000
/-- JUMP_THRESHOLD in ns. -/
def jumpThreshold (s : State) : Rat := (fld s.tim.limits 19 0 : Nat)
/-- ASYM in ns. -/
def asymNs (s : State) : Rat := (signed 32 s.tim.asym.toNat : Rat) / 1000

/-- INTERVAL in frames (R332). -/
def intervalFrames (s : State) : Nat := 8 ^ (fld s.tim.config 27 26 + 1)

/-- The frame period in ns: 1,048,576 symbol periods (R2). -/
def framePeriodNs (s : State) : Rat := (4194304 : Rat) / (s.prof.rate : Nat)

/-- The interval length in seconds (R334). -/
def intervalSeconds (s : State) : Rat := (intervalFrames s : Nat) * framePeriodNs s / 1000000000

/-! ### Gains (R310, R334, R336) -/

/-- The damping factor of a damping code (R310). -/
def zeta : Nat → Rat
  | 0 => 707 / 1000 | 1 => 1 | 2 => 5 / 2 | _ => 5

/-- k of the damping factor (R310). -/
def kZeta : Nat → Rat
  | 0 => 2058 / 1000 | 1 => 2482 / 1000 | 2 => 52 / 10 | _ => 101 / 10

/-- SERVO_BW in Hz as configured. -/
def servoBw (s : State) : Rat := (fld s.tim.config 19 10 : Nat) / 100

/-- The bandwidth limit 1 / (20 × Ts) of R336. -/
def bwLimit (s : State) : Rat := 1 / (20 * intervalSeconds s)

def appliedBw (s : State) : Rat := if bwLimit s < servoBw s then bwLimit s else servoBw s

def omega (s : State) : Rat := 2 * piRat * appliedBw s / kZeta (damping s)
def gainP (s : State) : Rat := 2 * zeta (damping s) * omega s
def gainI (s : State) : Rat := omega s * omega s

/-- Re-evaluate the bandwidth limit (R336). -/
def evalBw (s : State) : State :=
  let now := decide (bwLimit s < servoBw s)
  let was := s.tim.bwClamped
  let s := s.onTim fun t => { t with bwClamped := now }
  if now && !was then raise 108 0 s else s

/-- c held within CORR_LIMIT. -/
def clampRat (lim c : Rat) : Rat := if lim < c then lim else if c < -lim then -lim else c

/-- In HOLD c is -Ki × I (R333, R334). -/
def holdCorr (s : State) : State :=
  if s.tim.servo = .hold then
    s.onTim fun t => { t with corr := clampRat (corrLimit s) (-(gainI s) * t.integral) }
  else s

/-- The profile or a setting of the servo has changed (R334, R336). -/
def settleServo (s : State) : State := holdCorr (evalBw s)

/-! ### Servo states (R333) -/

/-- TIMECLK is valid while the servo is LOCKED (R294). -/
def settleTimeclk (s : State) : State := setCandValid 25 (s.tim.servo == .locked) s

/-- Enter a servo state; leaving LOCKED raises SERVO_UNLOCK with its cause. -/
def toServo (st : Servo) (cause : Nat) (s : State) : State :=
  let was := s.tim.servo
  let s := s.onTim fun t => { t with
    servo := st
    goodRun := if st = .tracking then 0 else t.goodRun }
  let s := if was = .locked ∧ st ≠ .locked then raise 100 cause s else s
  let s := if st = .locked ∧ was ≠ .locked then raise 99 0 s else s
  settleTimeclk (if st = .hold ∧ was ≠ .hold then raise 101 0 s else s)

/-- TIME_STATUS.REFUSING and its level source. -/
def setRefusing (b : Bool) (s : State) : State :=
  setLevel 107 b (s.onTim fun t => { t with refusing := b })

/-- Refusals, advice and the run of R333 start again: an accepted offset, a step or a set. -/
def clearRefusals (s : State) : State :=
  setRefusing false (s.onTim fun t => { t with refusedRun := [], adviceValid := false })

/-- The measurements so far lie before a set, a step or a change of D_RX. -/
def stale (us : List Meas) : List Meas := us.map fun u => { u with fresh := false }

/-- A change of D_RX: the interval yields no offset, the runs restart, and a LOCKED servo falls
to TRACKING with cause 4 (R329, R332, R333, R338, R343). -/
def drxChanged (s : State) : State :=
  let s := s.onTim fun t => { t with
    spoiled := true, refusedRun := [], goodRun := 0, sent := [], usable := stale t.usable }
  if s.tim.servo = .locked then toServo .tracking 4 s else s

/-! ### The end of an interval (R332 to R338) -/

def mean (l : List Rat) : Rat := l.foldl (· + ·) 0 / (l.length : Nat)

/-- A time in ns as signed picoseconds, saturating; and without saturation, which R349 gives TIME_OFFSET
alone. -/
def psSigned (ns : Rat) : Word := BitVec.ofInt 32 (clampInt (-2147483648) 2147483647 (openRound (ns * 1000)))
def psWord (ns : Rat) : Word := BitVec.ofInt 32 (openRound (ns * 1000))

/-- The usable frames of the interval that ends: the first INTERVAL received frames. -/
def intervalMeas (s : State) : List Meas :=
  s.tim.usable.filter fun u => decide (u.index < intervalFrames s)

/-- Report the interval's means (R332) and start the next interval. -/
def reportInterval (s : State) : State :=
  let us := intervalMeas s
  let n := intervalFrames s
  s.onTim fun t => { t with
    offset := if us.isEmpty then t.offset else psSigned (mean (us.map fun u => u.offset))
    pathDelay := if us.isEmpty then t.pathDelay else psWord (mean (us.map fun u => u.delay))
    measuring := !us.isEmpty
    frames := t.frames - n
    usable := (t.usable.filter fun u => decide (n ≤ u.index)).map fun u =>
      { u with index := u.index - n }
    spoiled := false }

/-- The slope of the straight line of least squares through points (x, y); 0 of fewer than two. -/
def slopeOf (l : List (Rat × Rat)) : Rat :=
  let n : Rat := (l.length : Nat)
  let x := l.foldl (fun a p => a + p.1) 0
  let y := l.foldl (fun a p => a + p.2) 0
  let xy := l.foldl (fun a p => a + p.1 * p.2) 0
  let xx := l.foldl (fun a p => a + p.1 * p.1) 0
  (n * xy - x * y) / (n * xx - x * x)

/-- The slope of the frame offsets over an interval: ns per ns, that is s per s (R335). -/
def offsetSlope (s : State) (us : List Meas) : Rat :=
  slopeOf (us.map fun u => ((u.index : Rat) * framePeriodNs s, u.offset))

/-- All eight refused offsets lie within 50 ns of their mean (R338). -/
def refusalsAgree (l : List Rat) : Bool :=
  l.length == 8 && l.all fun x => decide (absRat (x - mean l) ≤ 50)

/-- The advice of R338 after a refused offset. -/
def advise (s : State) : State :=
  let agree := refusalsAgree s.tim.refusedRun
  let was := s.tim.adviceValid
  let adv := -(openRound (s.tim.refusedRun.headD 0 * 4294967296))
  let s := s.onTim fun t => { t with
    adviceValid := agree, advice := if agree then adv else t.advice }
  if agree && !was then raise 98 0 s else s

/-- A refused interval offset in ns (R337). -/
def refuseOffset (th : Rat) (s : State) : State :=
  let first := !s.tim.refusing
  let s := setRefusing true (errAdd 0x60060 1 s)
  let s := if first then raiseLimited 97 97 0 s else s
  let s := if s.tim.servo = .locked then toServo .tracking 2 s else s
  advise (s.onTim fun t => { t with goodRun := 0, refusedRun := (th :: t.refusedRun).take 8 })

/-- The PI update of R334 for an accepted offset in ns. -/
def piUpdate (th : Rat) (s : State) : State :=
  let sec := th / 1000000000
  let i := s.tim.integral + sec * intervalSeconds s
  let c := -(gainP s * sec + gainI s * i)
  let lim := corrLimit s
  if lim < absRat c then
    raiseLimited 102 102 0 (s.onTim fun t => { t with corr := clampRat lim c })
  else s.onTim fun t => { t with corr := c, integral := i }

/-- The lock decision on an accepted offset (R333). -/
def lockStep (th : Rat) (s : State) : State :=
  if s.tim.servo = .locked then
    if 4 * lockLimit s < absRat th then toServo .tracking 1 s
    else s.onTim fun t => { t with goodRun := if absRat th ≤ lockLimit s then t.goodRun + 1 else 0 }
  else
    let s := s.onTim fun t => { t with
      goodRun := if absRat th ≤ lockLimit s then t.goodRun + 1 else 0 }
    if 16 ≤ s.tim.goodRun then toServo .locked 0 s else s

/-- An accepted interval offset in ns. -/
def acceptOffset (th : Rat) (s : State) : State :=
  let s := clearRefusals (statAdd 0x60058 1 s)
  let s := if s.tim.servo = .wait then
      s.onTim fun t => { t with integral := -(t.corr) / gainI s } else s
  let s := if s.tim.servo = .wait ∨ s.tim.servo = .hold then toServo .tracking 0 s else s
  lockStep th (piUpdate th (s.onTim fun t => { t with emptyRun := 0 }))

/-- An interval without an accepted offset: HOLD after 64 of them (R333, R334). -/
def emptyInterval (s : State) : State :=
  let s := s.onTim fun t => { t with emptyRun := t.emptyRun + 1 }
  if (s.tim.servo = .tracking ∨ s.tim.servo = .locked) ∧ 64 ≤ s.tim.emptyRun then
    holdCorr (toServo .hold 5 s)
  else s

/-- Pre-acquisition, at the end of each interval of WAIT (R335). A set, a step or a change of D_RX within the
interval moves the offsets, so the slope is that of the offsets after the last one (DEDUCED, log 176). -/
def preAcquire (us : List Meas) (s : State) : State :=
  if s.tim.servo = .wait then
    s.onTim fun t => { t with
      corr := clampRat (corrLimit s) (t.corr - offsetSlope s (us.filter fun u => u.fresh) / 2) }
  else s

/-- The servo's work at an interval's end. -/
def servoStep (us : List Meas) (spoiled : Bool) (s : State) : State :=
  let yields := !spoiled && !us.isEmpty
  let s := preAcquire us s
  if yields then
    let th := mean (us.map fun u => u.offset)
    if !s.tim.valid || decide (jumpThreshold s < absRat th) then emptyInterval (refuseOffset th s)
    else acceptOffset th s
  else emptyInterval s

/-- SERVO_INTERVAL_END: after INTERVAL received frames. -/
def execServoIntervalEnd (n : Nat) (s : State) : Host.Outcome State Fault Refusal :=
  .next <|
    if s.codeS && n == intervalFrames s && decide (n ≤ s.tim.frames) then
      let us := (intervalMeas s).filter fun u => u.far
      let spoiled := s.tim.spoiled
      let s := reportInterval s
      if follower s then servoStep us spoiled s else s
    else s

/-! ### Pulses (R344 to R346) -/

def pulseAt (s : State) (k : Nat) : Pulse := tabGet {} s.tim.pulse k
def onPulse (k : Nat) (f : Pulse → Pulse) (s : State) : State :=
  s.onTim fun t => { t with pulse := tabMod {} t.pulse k f }

/-- A time rounded to 25 ps steps. -/
def steps25 (t : Nat) : Nat := (t * 40 + 2 ^ 31) / 2 ^ 32

/-- The counter has reached or passed an instant in 25 ps steps. -/
def reached (counter next : Nat) : Bool := decide (next * 2 ^ 32 ≤ counter * 40)

/-- The first instant of a PERIODIC series at or after the counter. -/
def firstInstant (p : Pulse) (counter : Nat) : Nat :=
  let now := (counter * 40 + 2 ^ 32 - 1) / 2 ^ 32
  let step := p.period * 40
  if now ≤ p.start ∨ step = 0 then p.start
  else p.start + (now - p.start + step - 1) / step * step

/-- A step or set moves the counter under pulse k (R346). -/
def pulseStepped (old new k : Nat) (s : State) : State :=
  let p := pulseAt s k
  match p.mode with
  | .off => s
  | .once =>
    if reached new p.next && !reached old p.next && !p.fired then
      onPulse k (fun p => { p with late := some s.evt.period }) s
    else s
  | .periodic =>
    let n := firstInstant p new
    let skipped := if p.period = 0 then 0 else (n - p.next) / (p.period * 40)
    let s := onPulse k (fun p => { p with next := n }) s
    if old < new ∧ p.next < n then raise 105 k (errAdd 0x60078 skipped s) else s

/-- Ticks of a width: the whole 4 ns ticks that cover it. -/
def widthTicks (width : Nat) : Nat := (width + 3) / 4

/-- Where in the last tick, in its 160 steps of 25 ps, the counter passed an instant: by interpolation
between the counter before and after it (R345). -/
def edgeSub (before after next : Nat) : Nat :=
  let at' : Rat := (next * 2 ^ 32 : Nat) / (40 : Rat)
  (clampInt 0 160 (nearest ((at' - before) * 160 / ((after : Rat) - before)))).toNat

/-- The root time of the rising edge, in 25 ps steps: a late pulse rises at the tick itself. -/
def edgeTime (s : State) (p : Pulse) : Nat :=
  if p.late.isSome then s.evt.period.toNat * 160
  else (s.evt.period.toNat - 1) * 160 + edgeSub s.tim.before s.tim.counter p.next

/-- PPSOUT k is due: a late pulse at the tick after it became late, any other once the counter has
reached its instant (R345, R346). -/
def pulseDue (s : State) (p : Pulse) : Bool :=
  match p.late with
  | some at' => decide (1 ≤ elapsed s at')
  | none => reached s.tim.counter p.next && !p.fired

/-- PULSE_INSTANT: the rising edge of PPSOUT k (R345, R346). -/
def execPulseInstant (k : Nat) (s : State) : Host.Outcome State Fault Refusal :=
  .next <|
    let p := pulseAt s k
    if s.codeS && p.mode != .off && pulseDue s p then
      let edge := edgeTime s p
      let s := onPulse k (fun p => { p with
        high := some (widthTicks p.width), late := none, edge := some edge
        fired := decide (p.mode = .once)
        next := if p.mode = .once then p.next else p.next + p.period * 40 }) s
      if p.late.isSome then raise 104 k s else s
    else s

/-- PULSE_WIDTH_END: the width has elapsed in ticks and PPSOUT k falls; a ONCE output's pulse is over, and it
disarms and raises PULSE_DONE (R345). -/
def execPulseWidthEnd (k : Nat) (s : State) : Host.Outcome State Fault Refusal :=
  .next <|
    let p := pulseAt s k
    if p.high = some 0 then
      let s := onPulse k (fun p => { p with
        high := none, fired := false, mode := if p.fired then .off else p.mode }) s
      if p.fired then raise 103 k s else s
    else s

/-! ### Setting and stepping (R339, R340) -/

/-- The commit of a set or step: the counter takes its value, whatever the tick added. -/
def commitSet (value : Int) (p : PendingSet) (s : State) : State :=
  let old := s.tim.counter
  let new := (value % (timeModulus : Int)).toNat
  let s := s.onTim fun t => { t with
    counter := new, valid := true, spoiled := true, goodRun := 0, sent := [], usable := stale t.usable
    courses := ({ since := s.evt.period, value := new, inc := increment s } :: t.courses).take 64 }
  let s := raise 96 p.kind (statAdd 0x60070 1 (clearRefusals s))
  let s := if s.tim.servo = .locked then toServo .tracking 3 s else s
  let s := (List.range 4).foldl (fun s k => pulseStepped old new k s) s
  finishOk p.job (if p.kind = 0 then [] else signedTripleWords p.value) (commitAt new p.job s)

/-- Every set or step that waits for a tick commits at it, oldest first. -/
def commitTickSets (s : State) : State :=
  let ps := s.tim.pendingSets.filter fun p => !p.atPulse
  let s := s.onTim fun t => { t with pendingSets := t.pendingSets.filter fun p => p.atPulse }
  ps.foldl (fun s p =>
    commitSet (if p.kind = 0 then p.value else s.tim.counter + p.value) p s) s

/-- BASE within 500 ppm of 4 ns, in 2^-32 ns (R323). -/
def clampBase (v : Nat) : Nat :=
  if v < 17171279250 then 17171279250 else if 17188459118 < v then 17188459118 else v

/-- A pending BASE applies at the tick. -/
def applyBase (t : Tim) : Tim :=
  if t.basePending then
    let v := clampBase (t.baseHi.toNat * 2 ^ 32 + t.baseLo.toNat)
    { t with base := v, basePending := false, baseLo := word v, baseHi := BitVec.ofNat 8 (v / 2 ^ 32) }
  else t

/-- The counter runs on from a tick with an increment: a new course where the increment changes. -/
def Tim.runOn (now : Quad) (inc : Int) (t : Tim) : Tim :=
  if t.courses.head?.any fun c => c.inc == inc then t
  else { t with courses := ({ since := now, value := t.counter, inc := inc } :: t.courses).take 64 }

/-- The counter at a root time in 25 ps, on the course it was on then (R327); before the courses kept, on
the oldest. -/
def counterAt (s : State) (time : Int) : Nat :=
  let cs := s.tim.courses
  match (cs.find? fun c => decide ((c.since.toNat * 160 : Nat) ≤ time)).or cs.getLast? with
  | some c =>
    ((c.value + nearest ((c.inc : Rat) * (time - (c.since.toNat * 160 : Nat) : Int) / 160)) %
      (timeModulus : Int)).toNat
  | none => s.tim.counter

/-- TIME_TICK: the counter adds the increment, waiting sets and steps commit, TIMESTAMP counts,
and running pulse widths count down. -/
def execTimeTick (s : State) : Host.Outcome State Fault Refusal :=
  .next <|
    if s.codeS then
      let s := s.onTim applyBase
      let inc := increment s
      let now := s.evt.period
      let s := s.onTim fun t => { t.runOn now inc with
        before := t.counter, counter := ((t.counter + inc) % (timeModulus : Int)).toNat
        pulse := tabMap {} (fun x => { x with high := x.high.map fun n => n - 1 }) t.pulse }
      commitTickSets (s.onEvt fun e => { e with period := e.period + 1 })
    else s

def writeBaseLo (w : Word) (s : State) : State :=
  if s.codeS then s.onTim fun t => { t with baseLo := w } else s

/-- TIME_BASE_HI_WRITE: the pair applies at the next tick. -/
def writeBaseHi (w : Word) (s : State) : State :=
  if s.codeS then s.onTim fun t => { t with baseHi := w.extractLsb' 0 8, basePending := true } else s

def execTimeBaseHiWrite (w : Word) (s : State) : Host.Outcome State Fault Refusal :=
  .next (writeBaseHi w s)

/-! ### Reference pulses (R314, R341) -/

/-- A position within a tick, in 25 ps steps, as a time. -/
def subTick (sub : Nat) : Nat := sub * 2 ^ 32 / 40

/-- A pulse-aligned set commits at the pulse: the counter reads the value at that instant. -/
def commitPulseSets (sub : Nat) (s : State) : State :=
  let ps := s.tim.pendingSets.filter fun p => p.atPulse
  let s := s.onTim fun t => { t with pendingSets := t.pendingSets.filter fun p => !p.atPulse }
  ps.foldl (fun s p => commitSet (p.value - subTick sub) p s) s

/-- REFIN_PULSE: a pulse on PULSE REFIN i, `sub` steps of 25 ps after the last tick. -/
def execRefinPulse (i sub : Nat) (s : State) : Host.Outcome State Fault Refusal :=
  .next <|
    let c := candAt s i
    if s.codeS && decide (i < 8) && c.pulse && c.state != .disabled then
      let time := s.evt.period.toNat * 160 + sub
      let s := takePulse i time s
      let s := if captureEnabled s && captureRefin s == i then
          let s := commitPulseSets sub s
          raise 106 0 (s.onTim fun t => { t with
            cap := (t.counter + subTick sub) % timeModulus, captured := true })
        else s
      (List.range 8).foldl (fun s o => alignOutput i time o s) s
    else s

/-- TIME_SET_PULSE_TIMEOUT: no pulse within 2 s; nothing changes (R341). -/
def execTimeSetPulseTimeout (s : State) : Host.Outcome State Fault Refusal :=
  .next <|
    match s.tim.pendingSets.find? fun p =>
        p.atPulse && decide (2 * secondPeriods ≤ elapsed s p.since) with
    | some p =>
      finish p.job stTimeout 0 []
        (s.onTim fun t => { t with pendingSets := t.pendingSets.filter fun q => q.job ≠ p.job })
    | none => s

/-! ### Commands (R348) -/

/-- A role change applies at once (R331, R333, R338). -/
def changeRole (old : Nat) (s : State) : State :=
  if role s = old then s
  else
    let s := s.onTim fun t => { t with
      corr := 0, integral := 0, refusedRun := [], adviceValid := false, goodRun := 0, emptyRun := 0 }
    if follower s then toServo .wait 0 s else toServo .off 6 s

def timeConfigBody (j : Job) (s : State) : Verdict :=
  let w := j.param
  let lock := fld (w 0) 9 0
  let jump := fld (w 1) 19 0
  let refin := fld (w 0) 23 21
  let c := candAt s refin
  let bad1 := outside 1 500 (fld (w 1) 28 20) || outside 8 1000000 jump
  match firstRefusal [
    (fld (w 0) 31 30 == 3 || outside 1 1000 (fld (w 0) 19 10) || outside 5 1000 lock, badParam 0),
    (bit (w 0) 25 && !(c.pulse && c.state != .disabled), badParam 0),
    (!bad1 && decide (5 * jump ≤ 2 * lock), badParam 0),
    (bad1, badParam 1),
    (decide (50000 < fld (w 2) 31 16) || decide (50000 < fld (w 2) 15 0), badParam 2),
    (decide (1000000 < (signed 32 (w 3).toNat).natAbs), badParam 3)] with
  | some r => .refuse r
  | none =>
    let old := role s
    let s := s.onTim fun t => { t with
      config := w 0 &&& 0xFEEFFFFF, limits := w 1 &&& 0x1FFFFFFF, planes := w 2, asym := w 3 }
    .complete (settleServo (changeRole old s)) []

def execOpTimeConfig (j : Nat) (s : State) : Host.Outcome State Fault Refusal :=
  .next (runOp 0x0501 4 timeConfigBody j s)

/-- The nanoseconds of a triple parameter are out of range. -/
def badNs (v : Nat) : Bool := decide (1000000000 ≤ tripleNs v)

def timeSetBody (j : Job) (s : State) : Verdict :=
  let at' := bit (j.param 0) 0
  let v := triple96 (j.param 1) (j.param 2) (j.param 3)
  match firstRefusal [(at' && !captureEnabled s, badParam 0), (badNs v, badParam 2)] with
  | some r => .refuse r
  | none =>
    .accept (s.onTim fun t => { t with pendingSets := t.pendingSets ++
      [{ job := j.id, kind := 0, value := tripleTime v, atPulse := at', since := s.evt.period }] })

def execOpTimeSet (j : Nat) (s : State) : Host.Outcome State Fault Refusal :=
  .next (runOp 0x0502 4 timeSetBody j s)

def timeStepBody (j : Job) (s : State) : Verdict :=
  let adv := bit (j.param 0) 0
  let v := triple96 (j.param 1) (j.param 2) (j.param 3)
  match firstRefusal [(!adv && badNs v, badParam 2), (adv && !s.tim.adviceValid, refNotFound)] with
  | some r => .refuse r
  | none =>
    .accept (s.onTim fun t => { t with pendingSets := t.pendingSets ++
      [{ job := j.id, kind := if adv then 2 else 1
         value := if adv then t.advice else tripleSigned v, atPulse := false
         since := s.evt.period }] })

def execOpTimeStep (j : Nat) (s : State) : Host.Outcome State Fault Refusal :=
  .next (runOp 0x0503 4 timeStepBody j s)

def pulseModeOf : Nat → PulseMode
  | 1 => .once | 2 => .periodic | _ => .off

def timePulseBody (j : Job) (s : State) : Verdict :=
  let w := j.param
  let k := fld (w 0) 1 0
  let m := pulseModeOf (fld (w 0) 5 4)
  let v := triple96 (w 1) (w 2) (w 3)
  let period := (w 4).toNat + fld (w 5) 7 0 * 2 ^ 32
  let width := (w 6).toNat
  let on := m != .off
  match firstRefusal [
    (fld (w 0) 5 4 == 3 || (on && !s.tim.valid), badParam 0),
    (badNs v, badParam 2),
    (outside 1000 1000000000000 period, badParam 4),
    (outside 8 500000000 width || decide (period < width + 8), badParam 6)] with
  | some r => .refuse r
  | none =>
    let start := steps25 (tripleTime v)
    let s := onOut (4 + k) (fun o => { o with
      timed := true, armed := o.armed.map fun a => { a with timed := true } }) s
    let p : Pulse := { mode := m, start := start, period := period, width := width, next := start
                       late := if m == .once && reached s.tim.counter start then some s.evt.period
                         else none }
    let p := if m = .periodic then { p with next := firstInstant p s.tim.counter } else p
    .complete (onPulse k (fun q => { p with
      high := if on then q.high else none, edge := q.edge }) s) []

def execOpTimePulse (j : Nat) (s : State) : Host.Outcome State Fault Refusal :=
  .next (runOp 0x0504 7 timePulseBody j s)

/-! ### Frequency readings (R294, R295, R296) -/

/-- The nominal frequency of a lane's recovered clock, LINECLK and TIMECLK in Hz (R294). -/
def nominalHz (s : State) (i : Nat) : Rat :=
  if i < 8 then ((candAt s i).nominal.toNat : Nat)
  else if i < 24 then (if (tabGet {} s.lane (i - 8) : Lane).rate then 830078125 else 830078125 / 2)
  else if i = 24 then (s.prof.rate * 281250000 : Nat) / (2304 : Rat)
  else 250000000

/-- What the device itself knows of a candidate's frequency: LINECLK is the steered ADC rate, whose
synthesiser runs from the DPLL output (R206), and TIMECLK the time counter's rate, which the servo
steers (R295). -/
def ownHz (s : State) (i : Nat) : Rat :=
  if i = 24 then nominalHz s i * (1 + (s.dpll.y : Rat) / 10 ^ 15) * (1 + s.rx.path.steer)
  else nominalHz s i * ((increment s : Rat) / (4 * 2 ^ 32 : Nat))

/-- The frequency measured over the last 100 ms: of LINECLK and TIMECLK the mean of their rates at the
updates of that time (DEDUCED, log 177), of others what is measured. -/
def measuredHz (s : State) (i : Nat) (hz : Rat) : Rat :=
  if 24 ≤ i then mean (candAt s i).rates else hz

/-- One more rate of LINECLK or TIMECLK. -/
def takeRate (i : Nat) (s : State) : State :=
  if 24 ≤ i then onCand i (fun c => { c with rates := (ownHz s i :: c.rates).take 100 }) s else s

/-- A frequency offset in 0.001 ppm; 0 of a candidate without a nominal frequency. -/
def offsetOf (nominal hz : Rat) : Int :=
  if nominal = 0 then 0 else nearest ((hz - nominal) / nominal * 1000000000)

/-- REF_FREQ_UPDATE: a reading of a candidate, every 1 ms, whose edges end an activity fault; the fault itself
is REF_ACTIVITY_FAULT's. A PULSE candidate reads at its pulses. -/
def execRefFreqUpdate (i : Nat) (reading : FreqReading) (s : State) :
    Host.Outcome State Fault Refusal :=
  .next <|
    let c := candAt s i
    if s.codeS && decide (i < 26) && c.state != .disabled && !c.pulse &&
        c.readAt.all (fun p => usSince 1000 p s) then
      let now := s.evt.period
      let s := takeRate i (onCand i (fun c => { c with readAt := some now }) s)
      let s := if c.state = .failed then onCand i (fun c => { c with activityOk := c.valid && reading.edges }) s
        else s
      takeReading i (offsetOf (nominalHz s i) (measuredHz s i reading.hz)) s
    else s

end Sys2Proof.Machine
end

