-- ==== Sys2Proof/Machine/Frame.lean ====
section
/-!
DEFINITION. Frame maps: their words, validity and CRC (R53 to R56), the transmit sequencer's
reading of them (R57, R65), the map switch (R63), and OP_LINE_PROFILE, OP_MAP_LOAD and
OP_MAP_SWITCH.
-/

namespace Sys2Proof.Machine

/-! ### Map words (R53, R54) -/

/-- Sixty-four pattern codes as eight words. -/
def patternWords (pat : List Nat) : List Word :=
  (List.range 8).map fun w => word ((List.range 8).foldl
    (fun v i => v + pat.getD (8 * w + i) 0 * 16 ^ i) 0)

/-- The header of a map for a profile and a row count: words 0 to 17. -/
def mapHeader (p : Profile) (rows : Nat) : List Word :=
  [word (0x01000000 + p.code * 2 ^ 16 + rows), word (1024 * 2 ^ 16 + 64)] ++
    patternWords p.patX ++ patternWords p.patY

def ohRow : Word := 0x10000000
def endRow : Word := 0
def idleRow (slot : Nat) : Word := word (0x40000000 + slot * 2 ^ 10)

def rowKind (w : Word) : Nat := fld w 31 28
def rowSlot (w : Word) : Nat := fld w 18 10
def rowCircuit (w : Word) : Nat := fld w 9 0

def isTag (w : Word) : Bool := rowKind w == 2
def isSlot (w : Word) : Bool := rowKind w == 3
def isIdle (w : Word) : Bool := rowKind w == 4

/-- The rows that OP_LINE_PROFILE writes (R61). -/
def plainRows (slots : Nat) : List Word := [ohRow] ++ (List.range slots).map idleRow ++ [endRow]

/-- All 1,024 words of a map (R62). -/
def mapWords (p : Profile) (rows : List Word) : List Word :=
  let w := mapHeader p rows.length ++ rows
  w ++ List.replicate (1024 - w.length) 0

/-- MAP_CRC over words 0 to 17 + ROW_COUNT (R56). -/
def mapCrc (words : List Word) : Word :=
  let n := 18 + fld (words.getD 0 0) 9 0
  ~~~ crcBits 0xFFFFFFFF ((words.take n).flatMap fun w => bitsMsb 32 w.toNat)

/-! ### Validity (R55) -/

/-- The SLOT rows of a circuit. -/
def slotRows (rows : List Word) (c : Nat) : List Word :=
  rows.filter fun w => isSlot w && rowCircuit w == c

/-- Condition 8 for one row. -/
def rowZerosOk (w : Word) : Bool :=
  fld w 27 19 == 0 &&
    match rowKind w with
    | 0 | 1 => rowSlot w == 0 && rowCircuit w == 0
    | 2 => rowSlot w == 0
    | 3 => true
    | 4 => rowCircuit w == 0
    | _ => false

/-- Conditions 1 to 5 and 8 of R55 on the rows, for A active slots. -/
def rowsValid (a : Nat) (rows : List Word) : Bool :=
  let inner := (rows.drop 1).dropLast
  let placed := rows.filter fun w => isSlot w || isIdle w
  let tags := (rows.filter isTag).map rowCircuit
  decide (2 ≤ rows.length) && decide (rows.length ≤ 1006) &&
    (rows.head?.map rowKind) == some 1 && (rows.getLast?.map rowKind) == some 0 &&
    inner.all (fun w => rowKind w != 0 && rowKind w != 1) &&
    placed.length == a && (List.range a).all (fun i => placed.any fun w => rowSlot w == i) &&
    tags.all (fun c => [20, 40, 80, 160, 320].contains (slotRows rows c).length &&
      (tags.filter (· == c)).length == 1) &&
    rows.all (fun w => !isSlot w || tags.contains (rowCircuit w)) &&
    rows.all rowZerosOk

/-- Conditions 6 and 8 on the header words. -/
def headerValid (words : List Word) : Bool :=
  let w0 := words.getD 0 0
  fld w0 31 24 == 1 && fld w0 23 20 == 0 && fld w0 15 10 == 0 && decide (fld w0 19 16 ≤ 7) &&
    words.getD 1 0 == word (1024 * 2 ^ 16 + 64) &&
    ((words.drop 2).take 16).all fun w =>
      (List.range 8).all fun i => decide (fld w (4 * i + 3) (4 * i) ≤ 4)

/-- The rows of a map, OH to END. -/
def mapRows (words : List Word) : List Word := (words.drop 18).take (fld (words.getD 0 0) 9 0)

/-- The profile that a map's header describes, at the line profile's rate and slots. A code rate of 0x8 to 0xF
and a pattern code of 0x5 to 0xF, which only a miscorrected header can hold, count as rate 0x7 and as 64QAM
(DESIGN CHOICE, log 170). -/
def headerProfile (p : Profile) (words : List Word) : Profile :=
  let pat := fun first => (List.range 64).map fun i =>
    fld (words.getD (first + i / 8) 0) (4 * (i % 8) + 3) (4 * (i % 8))
  { p with code := fld (words.getD 0 0) 19 16, patX := pat 2, patY := pat 10 }

/-- A map is valid (R55). -/
def mapValid (p : Profile) (words : List Word) : Bool :=
  let rows := mapRows words
  headerValid words && rowsValid p.slots rows &&
    decide (0 ≤ frameFill (headerProfile p words) (rows.filter isTag).length)

/-! ### Stored maps -/

/-- The memory group of a map (R443). -/
def mapGroup (b : Bool) : Nat := if b then 8 else 7

/-- A map's words as they stand, without a check. -/
def storedMap (s : State) (b : Bool) : List Word :=
  (List.range 1024).map fun a =>
    let c := cellAt s (mapGroup b) a
    if c.valid then c.data.setWidth 32 else 0

/-- The rows of the map as it stands. -/
def storedRows (s : State) (b : Bool) : List Word := mapRows (storedMap s b)

/-- A map names a circuit by a TAG row. -/
def carries (rows : List Word) (c : Nat) : Bool := rows.any fun w => isTag w && rowCircuit w == c

def setMapCrc (b : Bool) (crc : Word) (s : State) : State :=
  s.onFrm fun f => if b then { f with crcB := crc } else { f with crcA := crc }

def mapCrcOf (s : State) (b : Bool) : Word := if b then s.frm.crcB else s.frm.crcA

/-- Write all 1,024 words of a map full width; its CRC follows (R56, R62). -/
def writeMap (b : Bool) (words : List Word) (s : State) : State :=
  setMapCrc b (mapCrc words) (writeWords (mapGroup b) 0 (words.map fun w => w.setWidth 128) s)

/-- Both maps with the profile's header and plain rows (R61, R507). -/
def writePlainMaps (p : Profile) (s : State) : State :=
  let words := mapWords p (plainRows p.slots)
  writeMap true words (writeMap false words s)

/-- The words a sequencer reads, header to END row, checked: none when one is poisoned (R57). -/
def sequencerRead (b : Bool) (s : State) : Option (List Word) × State :=
  let g := mapGroup b
  let n := fld ((cellAt s g 0).data.setWidth 32) 9 0
  let r := seeWords g 9 0 (18 + n) s
  (r.1.map fun ws => ws.map fun w => w.setWidth 32, r.2)

/-! ### Delays (R326, R327) -/

/-- Picoseconds as a time in 2^-32 ns. -/
def psTime (ps : Nat) : Nat := ps * 2 ^ 32 / 1000

/-- A latency of T6, T7 or V1 to V4, given in ps at 270 GBd, at the profile's rate (R552). -/
def linePs (s : State) (ps : Nat) : Rat := (ps : Rat) * 1080 / s.prof.rate

/-- The latencies of V1 and V2 at 270 GBd in ps (R24, R196). -/
def v1Ps : Nat := 20000
def v2Ps : Nat → Nat
  | 0 => 150000 | 1 => 180000 | 2 => 240000 | 3 => 360000 | _ => 600000

/-- D_TX in ps: one frame period and the latencies of T5, T6 and T7 (R21, R326, R552). -/
def dTxPs (s : State) : Nat :=
  (openRound (framePeriodNs s * 1000 + 30000 + linePs s 70000)).toNat

/-- The latency of V1 to V4 in ps (R24, R552). -/
def lineRxPs (s : State) : Rat := linePs s (v1Ps + v2Ps s.rx.cfg.nCode + 120000 + 20000)

/-- RXDSP_CD_LATENCY in 16 ADC samples, the same count at every rate (R195, R552). -/
def cdLatency (n : Nat) : Word := word (openRound ((v2Ps n : Rat) * 1215 / 64000)).toNat

/-! ### OP_LINE_PROFILE (R61, R407) -/

/-- The pattern that eight parameter words give. -/
def patternOf (j : Job) (first : Nat) : List Nat :=
  (List.range 64).map fun i => fld (j.param (first + i / 8)) (4 * (i % 8) + 3) (4 * (i % 8))

/-- The explicit profile of the parameters. -/
def explicitProfile (j : Job) : Profile where
  rate := fld (j.param 0) 10 0
  slots := fld (j.param 1) 8 0
  code := fld (j.param 1) 19 16
  patX := patternOf j 2
  patY := patternOf j 10

/-- The first pattern word that holds an invalid code. -/
def badPatternWord (j : Job) : Option Nat :=
  ((List.range 16).map (· + 2)).find? fun w =>
    (List.range 8).any fun i => decide (4 < fld (j.param w) (4 * i + 3) (4 * i))

/-- The explicit parameters' faults, in word order. -/
def explicitFault (j : Job) : Option Refused :=
  firstRefusal [
    (decide (j.body.length < 18), badParam j.body.length),
    (outside 240 1080 (fld (j.param 0) 10 0), badParam 0),
    (fld (j.param 1) 8 0 % 20 != 0 || outside 80 480 (fld (j.param 1) 8 0) ||
      decide (7 < fld (j.param 1) 19 16), badParam 1),
    ((badPatternWord j).isSome, badParam ((badPatternWord j).getD 2))]

/-- The DAC synthesiser loses lock: the gain is 0 from here on, and the output QUIET (R168). -/
def dacUnlock (s : State) : State :=
  raise 164 0 (s.onTx fun t => { t with
    synthLocked := false, out := .quiet, phi := 0, request := false, upReady := false
    now := { t.now with cut := some (t.now.cut.getD s.evt.period) } })

/-- The ADC synthesiser loses lock as a symbol-rate change relocks it (R168). -/
def adcRelock (s : State) : State :=
  raise 186 0 (s.onRx fun r => { r with adcLocked := false })

def lineProfileBody (j : Job) (s : State) : Verdict :=
  let preset := fld (j.param 0) 14 12
  let p := if preset = 0 then explicitProfile j else presetProfile preset
  let fault := if preset = 0 then explicitFault j else none
  match fault with
  | some r => .refuse r
  | none =>
    match firstRefusal [
      (preset == 7, badParam 0),
      (decide (frameFill p (p.slots / 20) < 0), badParam (if preset = 0 then 1 else 0)),
      (s.frm.switch.isSome, refBusy)] with
    | some r => .refuse r
    | none =>
      let old := s.prof
      let s := writePlainMaps p ((s.onProf fun _ => p).onRx fun r => { r with header := none })
      let s := if old.rate = p.rate then s else adcRelock (dacUnlock s)
      let s := settleServo (settleDecoder s)
      .complete (if old = p then s else drxChanged s) []

def execOpLineProfile (j : Nat) (s : State) : Host.Outcome State Fault Refusal :=
  .next (runOp 0x0201 1 lineProfileBody j s)

/-! ### OP_MAP_LOAD (R62) -/

/-- The map named by the last received MAP_SEL, if one has been received; a prediction names
none. -/
def rxMap (s : State) : Option Bool := s.frm.rxNamed

/-- A map that the transmitter, or the last received MAP_SEL, uses. -/
def mapInUse (s : State) (b : Bool) : Bool := s.frm.txMap == b || rxMap s == some b

def switchTarget (s : State) : Option Bool := s.frm.switch.map fun w => w.target

/-- The row breaks a condition of R55 by itself or against the rows before it, or names a circuit whose rows
break one. -/
def rowOffends (a : Nat) (rows : List Word) (i : Nat) : Bool :=
  let w := rows.getD i 0
  let before := rows.take i
  let circuitOk := [20, 40, 80, 160, 320].contains (slotRows rows (rowCircuit w)).length &&
    rows.any fun r => isTag r && rowCircuit r == rowCircuit w
  (i == 0) != (rowKind w == 1) || (decide (2 ≤ rows.length) && (i + 1 == rows.length) != (rowKind w == 0)) ||
    decide (4 < rowKind w) || !rowZerosOk w ||
    ((isSlot w || isIdle w) && (decide (a ≤ rowSlot w) ||
      before.any fun r => (isSlot r || isIdle r) && rowSlot r == rowSlot w)) ||
    (isTag w && before.any fun r => isTag r && rowCircuit r == rowCircuit w) ||
    ((isTag w || isSlot w) && !circuitOk)

/-- The first offending parameter word of an OP_MAP_LOAD that carries these rows: the first row that breaks
R55, else the first word missing or beyond 1,006 rows, and for a slot without a row or a fill below 0 the
last row (R392; DEDUCED, log 164). -/
def mapLoadFault (p : Profile) (rows : List Word) : Option Nat :=
  if !outside 2 1006 rows.length && mapValid p (mapWords p rows) then none
  else match (List.range (min rows.length 1006)).find? (rowOffends p.slots rows) with
    | some i => some (i + 1)
    | none => some (if rows.length < 2 then rows.length + 1 else if 1006 < rows.length then 1007
        else rows.length)

def mapLoadBody (j : Job) (s : State) : Verdict :=
  let b := bit (j.param 0) 0
  let rows := j.body.drop 1
  let words := mapWords s.prof rows
  match firstRefusal [
    ((mapLoadFault s.prof rows).isSome, badParam ((mapLoadFault s.prof rows).getD 1)),
    (mapInUse s b && !poisonPresent s (mapGroup b), refBusy),
    (switchTarget s == some b, refBusy)] with
  | some r => .refuse r
  | none => .complete (writeMap b words s) []

def execOpMapLoad (j : Nat) (s : State) : Host.Outcome State Fault Refusal :=
  .next (runOp 0x0310 1 mapLoadBody j s)

/-! ### OP_MAP_SWITCH (R63) -/

/-- Words 0 to 17 agree in every bit but ROW_COUNT. -/
def sameHeader (a b : List Word) : Bool :=
  (a.getD 0 0) >>> 10 == (b.getD 0 0) >>> 10 && (a.drop 1).take 17 == (b.drop 1).take 17

def mapSwitchBody (j : Job) (s : State) : Verdict :=
  let t := bit (j.param 0) 0
  let r := seeWords (mapGroup t) (2 + j.core.getD 0) 0
    (18 + fld ((cellAt s (mapGroup t) 0).data.setWidth 32) 9 0) s
  let s' := r.2
  if r.1.isNone then .refuseWith refPoison s'
  else
    match firstRefusal [
      (!sameHeader (storedMap s t) (storedMap s s.frm.txMap), badParam 0),
      (!mapValid s.prof (storedMap s t), badParam 0),
      (s.frm.switch.isSome, refBusy)] with
    | some r => .refuseWith r s'
    | none =>
      if t == s.frm.txMap then .complete s' []
      else .accept (s'.onFrm fun f => { f with switch := some { job := j.id, target := t } })

def execOpMapSwitch (j : Nat) (s : State) : Host.Outcome State Fault Refusal :=
  .next (runOp 0x0311 1 mapSwitchBody j s)

/-- The transmitter stops sending frames: a pending switch ends ST_ABORTED, the frames that the
assembler holds are gone, and sending resumes on a superframe (R38, R63). -/
def stopFrames (s : State) : State :=
  let s := match s.frm.switch with
    | some w => cancel w.job stAborted 0 s
    | none => s
  s.onFrm fun f => { f with
    switch := none, stopped := true, asm := none, ready := none, sending := false, txWhey := false
    txSel := f.txMap, txNext := f.txMap }

end Sys2Proof.Machine
end

