-- ==== Sys2Proof/Machine/Crypto.lean ====
section
/-!
DEFINITION. Circuit encryption and the key store: contexts and slots (R110 to R112), epochs
(R113 to R118), the GCM inputs (R102 to R106), enrolment and keys (R122 to R127), tag runs
(R128, R129), zeroisation (R130 to R132) and key-store faults (R133, R134).
-/

namespace Sys2Proof.Machine

/-! ### Contexts in the key store (R110, R133) -/

def ctxAt (s : State) (c : Nat) : Ctx := tabGet {} s.cry.ctx c

def SlotState.code : SlotState → Nat
  | .empty => 0 | .loaded => 1 | .old => 2 | .retained => 3

def Ctx.slot (x : Ctx) (b : Bool) : SlotState := if b then x.slot1 else x.slot0
def Ctx.withSlot (b : Bool) (st : SlotState) (x : Ctx) : Ctx :=
  if b then { x with slot1 := st } else { x with slot0 := st }

/-- The slot holds a key. -/
def Ctx.holds (x : Ctx) (b : Bool) : Bool := x.slot b != .empty

/-- A context's 16 stored bits: [9:0] of CTX_STATE. -/
def Ctx.bits (x : Ctx) : Nat :=
  x.slot0.code + x.slot1.code * 4 + b2n x.txEpoch * 64 + b2n x.rxEpoch * 128 + b2n x.fault * 256 +
    b2n x.retain * 512

/-- The address of a context's word and of a slot's first key word in group 6. -/
def ctxAddr (c : Nat) : Nat := 16384 + c / 2
def keyAddr (c : Nat) (b : Bool) : Nat := 16 * c + 8 * b2n b

/-- Rewrite the whole word of contexts 2i and 2i + 1 (R449). -/
def storeCtx (c : Nat) (s : State) : State :=
  let lo := (ctxAt s (c / 2 * 2)).bits
  let hi := (ctxAt s (c / 2 * 2 + 1)).bits
  writeWord 6 (ctxAddr c) (BitVec.ofNat 128 (lo + hi * 2 ^ 16)) (dropMerge 6 (ctxAddr c) s)

/-- The narrow write of a context's 16 bits (R133, R452). -/
def narrowCtx (c : Nat) (s : State) : State :=
  narrowWrite (ctxAddr c) (BitVec.ofNat 128 ((ctxAt s c).bits * 2 ^ (16 * (c % 2))))
    (BitVec.ofNat 128 (0xFFFF * 2 ^ (16 * (c % 2)))) s

/-- Change a context; a change of its stored bits is a narrow write of its word. -/
def onCtx (c : Nat) (f : Ctx → Ctx) (s : State) : State :=
  let old := (ctxAt s c).bits
  let s := s.onCry fun y => { y with ctx := tabMod {} y.ctx c f }
  if (ctxAt s c).bits = old then s else narrowCtx c s

/-- Overwrite a slot's key words with zero. -/
def wipeKey (c : Nat) (b : Bool) (s : State) : State :=
  writeWords 6 (keyAddr c b) (List.replicate 8 0) s

/-- A pending switch names the context (CTX_STATE.SCHEDULED). -/
def scheduled (s : State) (c : Nat) : Bool :=
  s.cry.switches.any fun w => w.circuits.getLsbD c

/-- The slot is in use (R110). -/
def slotInUse (s : State) (c : Nat) (b : Bool) : Bool :=
  let x := ctxAt s c
  x.holds b && (x.txEpoch == b || x.rxEpoch == b || (scheduled s c && x.txEpoch != b))

/-- Erase a slot: EMPTY, its key gone. -/
def eraseSlot (officer : Bool) (c : Nat) (b : Bool) (s : State) : State :=
  let s := onCtx c (fun x => { x.withSlot b .empty with
    erase := if (x.erase.map fun o => o.slot) = some b then none else x.erase }) s
  raiseBy officer 273 c (wipeKey c b s)

/-- The key of a slot as 256 bits, word 0 first, read by a pipeline: none if poisoned. -/
def readKey (c : Nat) (b : Bool) (s : State) : Option (BitVec 256) × State :=
  let r := seeWords 6 9 (keyAddr c b) 8 s
  (r.1.map fun ws => BitVec.ofNat 256
    (beNat (wordBytes (ws.map fun w => w.setWidth 32))), r.2)

/-! ### KEY_FAULT (R133) -/

/-- Pending switches drop the context; one left with no context ends ST_ABORTED. -/
def dropFromSwitches (c : Nat) (s : State) : State :=
  let s := s.onCry fun y => { y with switches := y.switches.map fun w =>
    { w with circuits := w.circuits &&& ~~~(1#1024 <<< c) } }
  (s.cry.switches.filter fun w => w.circuits = 0).foldl (fun s w => cancel w.job stAborted 0 s) s

/-- A context in KEY_FAULT: both slots EMPTY, and with a fault in its word both epochs at 0, which
then agree. RETAIN, which the same word holds, stays as it was: R133 restarts the epochs alone (DESIGN
CHOICE, log 186). -/
def Ctx.faulted (inCtx : Bool) (x : Ctx) : Ctx :=
  { x with
    slot0 := .empty, slot1 := .empty, fault := true, erase := none
    txEpoch := !inCtx && x.txEpoch, rxEpoch := !inCtx && x.rxEpoch, heard := !inCtx && x.heard
    lag := !inCtx && x.lag, lagOpens := if inCtx then 0 else x.lagOpens }

/-- An error puts a context into KEY_FAULT, and its keys are overwritten. A further error of a
context already there overwrites and restarts the same, and raises nothing more (DEDUCED, log 136). -/
def enterKeyFault (inCtx : Bool) (c : Nat) (s : State) : State :=
  let was := (ctxAt s c).fault
  let s := wipeKey c true (wipeKey c false (onCtx c (Ctx.faulted inCtx) s))
  if was then s else raise 291 c (dropFromSwitches c s)

/-- A key-store word reads poisoned: every context it belongs to faults. -/
def keyStoreFault (a : Nat) (s : State) : State :=
  if a < 16384 then enterKeyFault false (a / 16) s
  else
    let i := (a - 16384) * 2
    storeCtx i (enterKeyFault true (i + 1) (enterKeyFault true i s))

/-! ### Key absence (R111, R112) and the GCM inputs (R102 to R106) -/

/-- The context gives no key for an epoch bit. -/
def keyAbsent (s : State) (c : Nat) (epoch : Bool) : Bool :=
  let x := ctxAt s c
  !x.holds epoch || x.fault || s.cry.katFailed

/-- The 96-bit IV of circuit c sent under a link role in a frame (R103, R104). -/
def gcmIv (role : Bool) (c : Nat) (count : Quad) : BitVec 96 :=
  BitVec.ofNat 96 ((b2n role * 2 ^ 31 + c) * 2 ^ 64 + count.toNat)

/-- The pre-counter block J0 (R104). -/
def gcmJ0 (iv : BitVec 96) : BitVec 128 := BitVec.ofNat 128 (iv.toNat * 2 ^ 32 + 1)

/-- The eleven AAD bytes as bits (R105). -/
def gcmAad (c : Nat) (count : Quad) (epoch : Bool) : List Bool :=
  byteBits (natBe 2 c ++ natBe 8 count.toNat ++ [BitVec.ofNat 8 (b2n epoch)])

/-- Encrypt or decrypt container bits. -/
def gcmCrypt (key : BitVec 256) (j0 : BitVec 128) (bits : List Bool) : List Bool :=
  List.zipWith (· != ·) bits (gcmKeystream key j0 bits.length)

/-- Ciphertext and tag of a container (R102). -/
def sealBits (key : BitVec 256) (role : Bool) (c : Nat) (count : Quad) (epoch : Bool)
    (bits : List Bool) : List Bool × BitVec 128 :=
  let j0 := gcmJ0 (gcmIv role c count)
  let x := gcmCrypt key j0 bits
  (x, gcmTag key j0 (gcmAad c count epoch) x)

/-- The plaintext of a received container, and whether its tag passes. -/
def openBits (key : BitVec 256) (role : Bool) (c : Nat) (count : Quad) (epoch : Bool)
    (cipher : List Bool) (tag : BitVec 128) : List Bool × Bool :=
  let j0 := gcmJ0 (gcmIv role c count)
  (gcmCrypt key j0 cipher, gcmTag key j0 (gcmAad c count epoch) cipher == tag)

/-! ### Epochs (R113 to R117) -/

/-- One context at a switch frame; `opens` says that the frame opens a superframe, which then is
complete when the next one opens (R117); `first` is the count of the first frame after it. -/
def Ctx.switched (retain opens : Bool) (first : Quad) (x : Ctx) : Ctx :=
  let old := x.txEpoch
  let x' := x.withSlot (!old) (if x.holds (!old) then .loaded else .empty)
  let x' := x'.withSlot old
    (if !x.holds old then .empty else if retain then .retained else .old)
  { x' with
    txEpoch := !old, retain := retain
    erase := if x.holds old && !retain then
        some { slot := old, seen := x.heard && x.rxEpoch == !old, first := first }
      else none
    lagOpens := b2n (opens && x.rxEpoch != !old), lag := x.lag && x.rxEpoch != !old }

/-- The circuits of a set in ascending order. -/
def circuitsOf (m : BitVec 1024) : List Nat := (List.range 1024).filter fun c => m.getLsbD c

/-- A switch commits: every context it names inverts TX_EPOCH (R113). -/
def commitSwitch (stamp : Nat) (opens : Bool) (w : EpochSwitch) (s : State) : State :=
  let s := s.onCry fun y => { y with switches := y.switches.filter fun v => v.job ≠ w.job }
  let s := (circuitsOf w.circuits).foldl (fun s c => onCtx c (Ctx.switched w.retain opens s.frm.nextCount) s) s
  let s := match findJob w.job s with
    | some j => noteKeys j (circuitsOf w.circuits) s
    | none => s
  raiseBy true 274 0 (finishOk w.job [] (commitAt stamp w.job s))

/-- The switches that the frame with this TX_TIME commits, in acceptance order. -/
def dueSwitches (txTime : Nat) (s : State) : List EpochSwitch :=
  s.cry.switches.filter fun w =>
    match w.instant with
    | none => true
    | some t => decide (t ≤ txTime)

/-- The epoch switches of a frame as it opens, `opens` where it opens a superframe; none from step 1
of R131 on. -/
def frameSwitches (txTime : Nat) (opens : Bool) (s : State) : State :=
  if s.cry.zeroising then s
  else (dueSwitches txTime s).foldl (fun s w => commitSwitch txTime opens w s) s

/-- A superframe opens: the lag count of R117 advances. -/
def Ctx.superframe (x : Ctx) : Ctx :=
  { x with lagOpens := if x.txEpoch = x.rxEpoch then 0 else x.lagOpens + 1 }

def superframeOpens (s : State) : State :=
  s.onCry fun y => { y with ctx := tabMap {} Ctx.superframe y.ctx }

/-- The superframe of frame `count` begins on the line, and the count of R116 advances: the times of the
section's example are those of frame starts, one D_TX after the assembler opens the frame (log 78). -/
def Ctx.superframeSent (count : Quad) (x : Ctx) : Ctx :=
  { x with
    erase := x.erase.map fun o =>
      if o.seen && decide (o.first ≤ count) then { o with opened := o.opened + 1 } else o }

def superframeStarts (count : Quad) (s : State) : State :=
  if count.toNat % 8 = 0 then s.onCry fun y => { y with ctx := tabMap {} (Ctx.superframeSent count) y.ctx }
  else s

/-- The epoch bit of a circuit in a frame with good overhead (R115). -/
def rxEpochSeen (c : Nat) (b : Bool) (s : State) : State :=
  let x := ctxAt s c
  let s := onCtx c (fun x => { x with
    rxEpoch := b, heard := true
    lagOpens := if x.txEpoch = b then 0 else x.lagOpens
    lag := x.lag && x.txEpoch != b
    erase := x.erase.map fun o =>
      if !o.seen && b != o.slot then { o with seen := true, opened := 0 } else o }) s
  if x.rxEpoch = b then s else raise 275 c s

/-- OLD_KEY_ERASE: the second superframe has ended, and the OLD slot is erased (R116). -/
def execOldKeyErase (c : Nat) (s : State) : Host.Outcome State Fault Refusal :=
  .next <|
    match (ctxAt s c).erase with
    | some o => if o.seen && decide (3 ≤ o.opened) then eraseSlot false c o.slot s else s
    | none => s

/-- EPOCH_LAG: the epochs have differed for eight complete superframes (R117). -/
def execEpochLag (c : Nat) (s : State) : Host.Outcome State Fault Refusal :=
  .next <|
    let x := ctxAt s c
    if decide (9 ≤ x.lagOpens) && !x.lag then raise 278 c (onCtx c (fun x => { x with lag := true }) s)
    else s

/-- EPOCH_SWITCH_INSTANT: no frames are sent, and the counter reaches a switch's instant. An untimed
switch that was pending as the frames stopped commits here too (DESIGN CHOICE, log 111). -/
def execEpochSwitchInstant (s : State) : Host.Outcome State Fault Refusal :=
  .next <| if s.codeP then s else frameSwitches s.tim.counter false s

/-- The circuit bitmap of words 4 to 35 (R135). -/
def switchCircuits (j : Job) : BitVec 1024 :=
  BitVec.ofNat 1024 ((List.range 32).foldl (fun v i => v + (j.param (4 + i)).toNat * 2 ^ (32 * i)) 0)

/-- A named context is in KEY_FAULT, or the slot it would switch to is EMPTY (R118). -/
def switchKeyless (s : State) (m : BitVec 1024) : Bool :=
  (circuitsOf m).any fun c => (ctxAt s c).fault || !(ctxAt s c).holds (!(ctxAt s c).txEpoch)

def epochSwitchBody (j : Job) (s : State) : Verdict :=
  let timed := bit (j.param 0) 0
  let v := triple96 (j.param 1) (j.param 2) (j.param 3)
  let m := switchCircuits j
  match firstRefusal [
    (timed && !s.tim.valid, badParam 0),
    (timed && decide (1000000000 ≤ tripleNs v), badParam 2),
    (m == 0, badParam 4),
    (switchKeyless s m, refNotFound),
    ((circuitsOf m).any (scheduled s) || decide (16 ≤ s.cry.switches.length), refBusy)] with
  | some r => .refuse r
  | none =>
    let w : EpochSwitch := { job := j.id, instant := if timed then some (tripleTime v) else none
                             retain := bit (j.param 0) 1, circuits := m }
    let s := s.onCry fun y => { y with switches := y.switches ++ [w] }
    if !s.codeP && (!timed || decide (tripleTime v ≤ s.tim.counter)) then
      .decided (commitSwitch s.tim.counter false w (modJob j.id (fun x => { x with stage := .running }) s))
    else .accept s

def execOpEpochSwitch (j : Nat) (s : State) : Host.Outcome State Fault Refusal :=
  .next (runOp 0x0420 36 epochSwitchBody j s)

/-! ### Pins (R122, R125, R130) -/

def pinsAsserted (s : State) : Bool := s.cry.zeroisePin || s.cry.tamperPin

/-! ### Enrolment (R122, R123) -/

/-- Parameter bytes `n` from offset `i`. -/
def paramBytes (j : Job) (i n : Nat) : List Byte := ((wordBytes j.body).drop i).take n

def officerChallengeBody (_ : Job) (s : State) : Verdict :=
  let d := drawFree s
  let n := drawFree d.2
  let scalar := natBe 48 (d.1.toNat % (p384N - 1) + 1)
  let pub := p384Public scalar
  let nonce := natBe 16 (n.1.toNat % 2 ^ 128)
  let ch : Challenge := { scalar := scalar, pub := pub, nonce := nonce, issued := s.evt.period }
  .complete (n.2.onCry fun y => { y with challenge := some ch }) (bytesWords (pub.take 97 ++ nonce))

def execOpOfficerChallenge (j : Nat) (s : State) : Host.Outcome State Fault Refusal :=
  .next (runOp 0x0400 0 officerChallengeBody j s)

/-- The key-encryption key of step 3 of R122. -/
def enrolKek (ch : Challenge) (q : List Byte) : List Byte :=
  sha256 (natBe 4 1 ++ ecdh ch.scalar q ++ ch.nonce ++
    [0x56, 0x58, 0x5A, 0x32, 0x34, 0x36, 0x30, 0x2D, 0x45, 0x4E, 0x52, 0x4F, 0x4C])

/-- The signature, the point and the unwrap all hold: the 64 bytes OAK and KTK. -/
def enrolKeys (key : List Byte) (ch : Challenge) (q wrapped sig : List Byte) : Option (List Byte) :=
  if ecdsaVerify key (sha384 (ch.nonce ++ ch.pub ++ q ++ wrapped)) sig &&
      p384OnCurve q then keyUnwrap (enrolKek ch q) wrapped
  else none

def dropChallenge (s : State) : State := s.onCry fun y => { y with challenge := none }

/-- The effect of OP_OFFICER_ENROL. Steps 1 to 6 refuse before it and keep the challenge; every end here,
for too few parameter words too, consumes it (R122; DEDUCED, log 80). -/
def officerEnrolBody (j : Job) (s : State) : Verdict :=
  let s' := dropChallenge s
  if j.body.length < 67 then .refuseWith (badParam j.body.length) s'
  else if paramBytes j 97 3 ≠ [0, 0, 0] then .refuseWith (badParam 24) s'
  else if s.cry.officer.isSome then .refuseWith refBusy s'
  else match s.cry.challenge with
    | none => .refuseWith refNotFound s'
    | some ch =>
      match s.pwr.image.bind fun i => i.enrolKey with
      | none => .refuseWith refDenied s'
      | some key =>
        if pinsAsserted s then .refuseWith refDenied s'
        else match enrolKeys key ch (paramBytes j 0 97) (paramBytes j 100 72) (paramBytes j 172 96) with
          | none => .refuseWith refAuth8 s'
          | some ks =>
            .complete (raiseBy true 276 0 (s'.onCry fun y => { y with
              officer := some (ks.take 32, ks.drop 32), seq := 0 })) []

def execOpOfficerEnrol (j : Nat) (s : State) : Host.Outcome State Fault Refusal :=
  .next (runOp 0x0401 0 officerEnrolBody j s)

/-- CHALLENGE_EXPIRY: 60 s after its issue a pending challenge lapses. -/
def execChallengeExpiry (s : State) : Host.Outcome State Fault Refusal :=
  .next <|
    match s.cry.challenge with
    | some ch =>
      if 60 * secondPeriods ≤ (s.evt.period - ch.issued).toNat then dropChallenge s else s
    | none => s

def officerUpdateBody (j : Job) (s : State) : Verdict :=
  match s.cry.officer with
  | none => .refuse refAuth8
  | some o =>
    match keyUnwrap o.2 (paramBytes j 0 72) with
    | none => .refuse refAuth8
    | some ks =>
      .complete (raiseBy true 277 0 (s.onCry fun y => { y with
        officer := some (ks.take 32, ks.drop 32) })) []

def execOpOfficerUpdate (j : Nat) (s : State) : Host.Outcome State Fault Refusal :=
  .next (runOp 0x0402 18 officerUpdateBody j s)

/-- OFFICER_STORE_FAULT: a parity error empties the officer store (R134). -/
def execOfficerStoreFault (s : State) : Host.Outcome State Fault Refusal :=
  .next <|
    if s.codeS then raise 292 0 (s.onCry fun y => { y with officer := none, seq := 0 }) else s

/-! ### Configuration and keys (R124 to R127, R135) -/

/-- Some slot of some context holds a key. -/
def anyKey (s : State) : Bool := s.cry.ctx.any fun e => e.2.holds false || e.2.holds true

def cryConfigBody (j : Job) (s : State) : Verdict :=
  let w := j.param 0
  match firstRefusal [(fld w 15 0 == 0, badParam 0), (anyKey s, refBusy)] with
  | some r => .refuse r
  | none => .complete (s.onCry fun y => { y with
      linkRole := bit w 16, tagLimit := w.extractLsb' 0 16 }) []

def execOpCryConfig (j : Nat) (s : State) : Host.Outcome State Fault Refusal :=
  .next (runOp 0x0403 1 cryConfigBody j s)

/-- The key record agrees with the parameters (R124). -/
def recordOk (c : Nat) (b : Bool) (r : List Byte) : Bool :=
  r.length == 40 && (r.drop 32).take 2 == natBe 2 c && (r.drop 34).take 1 == natBe 1 (b2n b) &&
    r.drop 35 == [0, 0, 0, 0, 0]

/-- The key's eight stored words, byte 0 first. -/
def keyWords (key : List Byte) : List (BitVec 128) := (bytesWords key).map fun w => w.setWidth 128

/-- The three bytes of the key check value (R125). -/
def keyCheck (key : List Byte) : Word :=
  let y := aes256 (BitVec.ofNat 256 (beNat key)) (BitVec.allOnes 128)
  word (leNat ((natBe 16 y.toNat).take 3))

def keyEraseBody (j : Job) (s : State) : Verdict :=
  let c := fld (j.param 0) 9 0
  let b := bit (j.param 0) 16
  if slotInUse s c b then .refuse refBusy else .complete (noteKeys j [c] (eraseSlot true c b s)) []

def execOpKeyErase (j : Nat) (s : State) : Host.Outcome State Fault Refusal :=
  .next (runOp 0x0411 1 keyEraseBody j s)

/-! ### Tag checks (R128, R129) -/

/-- CRY registers of a context stand here; its three error counters follow. -/
def ctxBase (c : Nat) : Nat := 0xE1000 + 0x20 * c

/-- A failed check of row 4: it counts, and the run may reach its limit. -/
def tagFailed (c : Nat) (s : State) : State :=
  let s := note 0x602 c 0 (errAdd (ctxBase c + 8) 1 s)
  let s := onCtx c (fun x => { x with run := if x.run = 65535 then x.run else x.run + 1 }) s
  let x := ctxAt s c
  if s.cry.tagLimit ≤ x.run && !x.runRaised then
    raise 289 c (onCtx c (fun x => { x with runRaised := true }) s)
  else s

/-- A passed check of row 4 sets the run to 0. -/
def tagPassed (c : Nat) (s : State) : State :=
  onCtx c (fun x => { x with run := 0, runRaised := false }) s

/-! ### Zeroisation (R130 to R132) -/

def isOfficer (j : Job) : Bool := officerOp j.opcode

/-- Every key, context and secret is erased; the epochs, runs and lags return to 0. -/
def clearKeys (s : State) : State :=
  ((invalidate 6 s).onMem fun m => { m with merge := [] }).onCry fun y => { y with officer := none, seq := 0, challenge := none, ctx := [] }

/-- The parameter buffer of an officer command not yet completed is cleared. -/
def blankOfficer (j : Job) : Job :=
  if isOfficer j && j.stage ≠ .decided then { j with params := j.params.map fun _ => 0 } else j

/-- A frame whose content zeroisation discards: it keeps its count and goes out as whey (R38, R50, R131;
DEDUCED, log 104). -/
def dropContent (f : OpenFrame) : OpenFrame :=
  { f with dropped := true, epoch := 0, containers := f.containers.map fun k => { k with blocks := [] } }

/-- Step 1 to step 3 of R131. -/
def triggerZeroise (f : Cry → Cry) (s : State) : State :=
  if !s.codeS then s
  else
    let s := clearKeys (s.onCry fun y => { f y with zeroising := true })
    let s := s.onCmd fun c => { c with jobs := c.jobs.map blankOfficer }
    s.onFrm fun m => { m with asm := m.asm.map dropContent
                              ready := m.ready.map fun r => { r with frame := dropContent r.frame, whey := true } }

/-- ZEROISE_PIN: the pin has been low for 20 ns. -/
def execZeroisePin (s : State) : Host.Outcome State Fault Refusal :=
  .next (triggerZeroise (fun y => { y with zPin := true })
    (s.onCry fun y => { y with zeroisePin := true }))

/-- TAMPER_PIN: the pin has been low for 20 ns. -/
def execTamperPin (s : State) : Host.Outcome State Fault Refusal :=
  .next (triggerZeroise (fun y => { y with zTamper := true })
    (s.onCry fun y => { y with tamperPin := true }))

/-- ZEROISE_TRIGGER_RELEASE: ZEROISE_N (0) or TAMPER_N (1) returns high. -/
def execZeroiseTriggerRelease (pin : Bool) (s : State) : Host.Outcome State Fault Refusal :=
  .next (s.onCry fun y =>
    if pin then { y with tamperPin := false } else { y with zeroisePin := false })

def zeroiseBody (_ : Job) (s : State) : Verdict :=
  .complete (triggerZeroise (fun y => { y with zCommand := true }) s) []

def execOpZeroise (j : Nat) (s : State) : Host.Outcome State Fault Refusal :=
  .next (runOp 0x04F0 0 zeroiseBody j s)

/-- The officer commands that step 5 of R131 aborts, in fetch order. -/
def abortOfficer (s : State) : State :=
  (s.cmd.jobs.filter fun j => isOfficer j && !j.committed && j.stage ≠ .decided).foldl
    (fun s j => cancel j.id stAborted 0 s) s

end Sys2Proof.Machine
end

