-- ==== Sys2Proof/Machine/Pam4.lean ====
section
/-!
DEFINITION. Host-lane symbols: the Gray map (R268), precoding (R269), inversion (R270), the transmit
equaliser (R282), the test patterns and the checker (R285, R286). The PRBS polynomials are those of
IEEE 802.3 (PRESUMED, log 12).
-/

namespace Sys2Proof.Machine

/-! ### Coding (R268 to R270) -/

/-- The level index of a bit pair. -/
def pamLevel : Bool → Bool → Nat
  | false, false => 0 | false, true => 1 | true, true => 2 | true, false => 3

/-- The bit pair of a level index. -/
def pamBits : Nat → List Bool
  | 0 => [false, false] | 1 => [false, true] | 2 => [true, true] | _ => [true, false]

/-- The level indices of bits, two a symbol. -/
def pamSymbols : List Bool → List Nat
  | a :: b :: l => pamLevel a b :: pamSymbols l
  | _ => []

/-- p(n) = (g(n) - p(n - 1)) mod 4, from p(n - 1). -/
def precode : Nat → List Nat → List Nat
  | _, [] => []
  | p, g :: l => let q := (g + 4 - p) % 4; q :: precode q l

/-- g(n) = (p(n) + p(n - 1)) mod 4, from p(n - 1). -/
def unprecode : Nat → List Nat → List Nat
  | _, [] => []
  | p, q :: l => ((q + p) % 4) :: unprecode q l

/-- Level index i becomes 3 - i. -/
def invertLevels (b : Bool) (l : List Nat) : List Nat := if b then l.map fun i => 3 - i else l

/-! ### Patterns (R285) -/

/-- The next bit of PRBS13 or of the stream whose inverse is PRBS31, from the bits before, newest in
bit 0. -/
def prbsNext (code reg : Nat) : Bool :=
  if code = 1 then (reg.testBit 0 != reg.testBit 1) != (reg.testBit 11 != reg.testBit 12)
  else reg.testBit 27 != reg.testBit 30

/-- n bits of PRBS13Q or PRBS31Q, and the register after them. -/
def prbsBits (code : Nat) : Nat → Nat → List Bool × Nat
  | 0, reg => ([], reg)
  | n + 1, reg =>
    let b := prbsNext code reg
    let r := prbsBits code n ((reg * 2 + b2n b) % 2 ^ 31)
    ((if code = 2 then !b else b) :: r.1, r.2)

/-- The generator at its start. -/
def patternStart (code : Nat) : Nat := if code = 1 then 2 ^ 13 - 1 else if code = 2 then 2 ^ 31 - 1 else 0

/-- n symbols of a pattern before the precoder, and the generator after them. -/
def patternSymbols (code n gen : Nat) : List Nat × Nat :=
  match code with
  | 3 => ((List.range n).map fun i => Config.ssprq ((gen + i) % 65535) % 4, (gen + n) % 65535)
  | 4 => ((List.range n).map fun i => if (gen + i) % 16 < 8 then 3 else 0, (gen + n) % 16)
  | _ => let r := prbsBits code (2 * n) gen; (pamSymbols r.1, r.2)

/-! ### The checker (R286) -/

/-- Bit q of the repeated SSPRQ sequence. -/
def ssprqBit (q : Nat) : Bool := (pamBits (Config.ssprq (q / 2 % 65535) % 4)).getD (q % 2) false

/-- The bit that the pattern gives after the last 31 bits: for SSPRQ at the first phase that they
fit. -/
def predicted (code reg : Nat) : Bool :=
  if code = 3 then
    match (List.range 131070).find? fun q =>
        (List.range 31).all fun i => ssprqBit (q + 131070 - 1 - i) == reg.testBit i with
    | some q => ssprqBit q
    | none => false
  else prbsNext code reg

/-- A bit as the register holds it: PRBS31 is inverted on the line. -/
def plainBit (code : Nat) (b : Bool) : Bool := if code = 2 then !b else b

/-- The checker has lock or loss of lock before it. -/
def Checker.due (locked : Bool) (c : Checker) : Bool :=
  if locked then decide (1024 ≤ c.errors) else decide (1024 ≤ c.run)

/-- One bit: while locked it is counted against the pattern; otherwise the checker aligns on it. -/
def Checker.step (code : Nat) (locked : Bool) (b : Bool) (c : Checker) : Checker :=
  let p := predicted code c.reg
  let v := plainBit code b
  if locked then
    let bits := if c.bits = 4096 then 1 else c.bits + 1
    { c with reg := (c.reg * 2 + b2n p) % 2 ^ 31, bits := bits
             errors := (if c.bits = 4096 then 0 else c.errors) + b2n (v != p) }
  else { c with reg := (c.reg * 2 + b2n v) % 2 ^ 31
                run := if v == p && c.reg != 0 then c.run + 1 else 0 }

/-- Check bits until lock, loss of lock or the last one: the checker, and the bits and errors counted
while locked. -/
def Checker.check (code : Nat) (locked : Bool) : List Bool → Checker → Nat → Nat → Checker × Nat × Nat
  | [], c, n, e => ({ c with queue := [] }, n, e)
  | b :: l, c, n, e =>
    if c.due locked then ({ c with queue := b :: l }, n, e)
    else
      let wrong := plainBit code b != predicted code c.reg
      (c.step code locked b).check code locked l (n + b2n locked) (e + b2n (locked && wrong))

/-! ### The transmit equaliser (R282) -/

/-- C_MAIN in 1/64, from C_PRE and C_POST. -/
def cMain (c : Int × Int) : Int := 64 - c.1.natAbs - c.2.natAbs

/-- The normalised level of an index. -/
def pamValue (i : Nat) : Int := 2 * (i : Int) - 3

/-- HTX in 1/64 of the normalised level, for every symbol that has both neighbours in the list: `old` taps
for the first n symbols, then the new ones. -/
def ffeDrive (old new : Int × Int) : Nat → List Nat → List Int
  | n, a :: b :: c :: l =>
    let t := if n = 0 then new else old
    (t.2 * pamValue a + cMain t * pamValue b + t.1 * pamValue c) :: ffeDrive old new (n - 1) (b :: c :: l)
  | _, _ => []

/-- What HTX drove from the last symbol of the window before to the last but one of the window: the taps
change together at a word boundary (R282). -/
def Lane.drive (x : Lane) : List Int := ffeDrive x.ffeWas x.ffe (x.ffeCut + 1) (x.htxTail ++ x.htx)

end Sys2Proof.Machine
end

