-- ==== Sys2Proof/Machine/Lanes.lean ====
section
/-!
DEFINITION. Host lanes: enabling and starting (R272 to R274), blind bring-up (R275 to R277),
freezing (R279 to R281), groups and deskew (R283, R284), tests (R285 to R287), the lane commands
(R288, R289), and the ingress failure that a lane causes (R74, R278).
-/

namespace Sys2Proof.Machine

def laneAt (s : State) (l : Nat) : Lane := tabGet {} s.lane l
def circAt (s : State) (c : Nat) : Circ := tabGet {} s.circ c
def onLane (l : Nat) (f : Lane → Lane) (s : State) : State :=
  { s with lane := tabMod {} s.lane l f }
def onCirc (c : Nat) (f : Circ → Circ) (s : State) : State :=
  { s with circ := tabMod {} s.circ c f }

/-! ### Fields of CIRC_CONFIG (R99) -/

def Circ.clientType (x : Circ) : Nat := fld x.config 2 0
def Circ.firstLane (x : Circ) : Nat := fld x.config 7 4
def Circ.laneCount (x : Circ) : Nat := fld x.config 12 8
def Circ.laneRate (x : Circ) : Bool := bit x.config 13
def Circ.localTiming (x : Circ) : Bool := bit x.config 14
def Circ.tcEnable (x : Circ) : Bool := bit x.config 15
/-- Q in blocks: 0 selects 16. -/
def Circ.fillTarget (x : Circ) : Nat :=
  if fld x.config 27 20 = 0 then 16 else fld x.config 27 20
def Circ.lanes (x : Circ) : List Nat := (List.range x.laneCount).map (x.firstLane + ·)
/-- Slots of the client type (R71). -/
def Circ.slotCount (x : Circ) : Nat := 20 * 2 ^ x.clientType

/-! ### Ingress failure (R74, R278) -/

/-- The ingress of a created circuit becomes failed: what the mapper held is discarded. -/
def failIngress (c : Nat) (s : State) : State :=
  let x := circAt s c
  if x.created && !x.ingressFail then
    raise 256 c (onCirc c (fun x => { x with ingressFail := true, fifo := [], overrun := false }) s)
  else s

/-- Every lane of the group is in L4 with marker lock. -/
def ingressGood (s : State) (c : Nat) : Bool :=
  (circAt s c).lanes.all fun l => (laneAt s l).state == 4 && (laneAt s l).amLock

/-- Lanes of the circuit's group lose marker lock, and the group is no longer aligned: its ingress becomes
failed (R74, R284, R292). -/
def loseMarkers (c : Nat) (ls : List Nat) (s : State) : State :=
  failIngress c ((circAt s c).lanes.foldl (fun s l =>
    onLane l (fun n => { n with amLock := n.amLock && !ls.contains l, aligned := false }) s) s)

/-- INGRESS_FAIL_START: lanes of the group lose block lock or marker lock. -/
def execIngressFailStart (loss : LockLoss) (s : State) : Host.Outcome State Fault Refusal :=
  .next <|
    if s.codeP && (circAt s loss.circ).created && (circAt s loss.circ).lanes.any loss.lanes.contains then
      loseMarkers loss.circ loss.lanes s
    else s

/-- INGRESS_FAIL_END: 1 ms after the last lane regained lock. -/
def execIngressFailEnd (c : Nat) (s : State) : Host.Outcome State Fault Refusal :=
  .next <|
    let x := circAt s c
    if s.codeP && x.created && x.ingressFail && ingressGood s c && usSince 1000 x.lockAt s then
      raise 257 c (onCirc c (fun x => { x with ingressFail := false }) s)
    else s

/-! ### Lane state changes -/

/-- HLANE registers of lane l stand here. -/
def laneBase (l : Nat) : Nat := 0x200000 + 0x1000 * l

def laneSource (l k : Nat) : Nat := 304 + 4 * l + k

/-- LANE_ERROR with a cause of R293. -/
def laneError (l cause : Nat) (s : State) : State := raise (laneSource l 3) (l + cause * 256) s

def Lane.enabled (x : Lane) : Bool := x.circuit.isSome || x.tested

/-- A lane's recovered clock is a candidate while it is in L4 and not frozen (R294). -/
def settleLaneClock (l : Nat) (s : State) : State :=
  let x := laneAt s l
  setCandValid (8 + l) (x.state == 4 && !x.frozen) s

/-- FROZEN and its level source. -/
def setFrozen (l : Nat) (b : Bool) (s : State) : State :=
  let now := s.evt.period
  let was := (laneAt s l).frozen
  let s := onLane l (fun x => { x with
    frozen := b, passed := 0
    frozenAt := if b && !was then now else x.frozenAt
    thawedAt := if !b && was then now else x.thawedAt
    idle := if !b && was && x.state == 3 then x.idle + (now - x.frozenAt).toNat else x.idle
    freezeLong := b && x.freezeLong }) s
  settleLaneClock l (setLevelData (laneSource l 2) b l (when (b && !was) (note 0x703 l 0) s))

/-- Go to L1 or L0: what the receiver had is lost, its signal only where that is the cause. -/
def Lane.dropped (st : Nat) (lost : Bool) (x : Lane) : Lane :=
  { x with
    state := st, signal := x.signal && !lost && st != 0, cdr := false, snrOk := false, amLock := false
    aligned := false, checkerLocked := false, check := {}, densityLow := false, levelLow := false }

/-- The circuit's group is no longer aligned (R284). -/
def unalign (c : Nat) (s : State) : State :=
  (circAt s c).lanes.foldl (fun s l => onLane l (fun n => { n with aligned := false }) s) s

/-- Go to a state below L4; the circuit's ingress fails (R278). -/
def dropLane (st : Nat) (lost : Bool) (l : Nat) (s : State) : State :=
  let now := s.evt.period
  let s := setFrozen l false (onLane l (fun x => { Lane.dropped st lost x with since := now }) s)
  match (laneAt s l).circuit with
  | some c => failIngress c (unalign c s)
  | none => s

/-- A lane in L4 goes down with a cause (R277, R293). -/
def goesDown (cause : Nat) (l : Nat) (s : State) : State :=
  if (laneAt s l).state = 4 then
    raise (laneSource l 1) (l + cause * 256)
      (onLane l (fun x => { x with lastCause := BitVec.ofNat 4 cause }) s)
  else s

/-- Bring-up begins again at L1 with START_INDEX 0; a lane in L4 goes down with the cause (R277). -/
def restartLane (cause : Nat) (l : Nat) (s : State) : State :=
  let x := laneAt s l
  if x.state = 0 then s
  else
    let s := goesDown cause l (onLane l (fun x => { x with
      startIndex := 0, resume := decide (cause ≤ 3) }) s)
    dropLane 1 (cause == 1) l s

/-- The lanes a mask names. -/
def maskLanes (w : Word) : List Nat := (List.range 16).filter fun l => bit w l

/-- OP_HLANE_RESTART commits: the named lanes go to L1 (R288). -/
def restartNamed (ls : List Nat) (s : State) : State := ls.foldl (fun s l => restartLane 4 l s) s

/-- Commands that waited for lane l alone commit (R288). -/
def laneStarted (l : Nat) (s : State) : State :=
  let js := (laneAt s l).waiting
  js.foldl (fun s j =>
    if s.lane.any fun e => e.2.waiting.contains j then s
    else match findJob j s with
      | some job => commitDone j [] (restartNamed (maskLanes (job.param 0)) s)
      | none => s)
    (onLane l (fun x => { x with waiting := [] }) s)

/-- A lane starts its domains and its receiver at L1 (R273, R275). -/
def startLane (l : Nat) (s : State) : State :=
  let x := laneAt s l
  if s.codeP && x.enabled && x.state = 0 then
    let now := s.evt.period
    laneStarted l (onLane l (fun x => { x with
      state := 1, since := now, startIndex := 0, resume := false, txLast := 0, rxLast := 0 }) s)
  else s

/-- A lane's domains stop: HTX stays at common mode. -/
def stopLane (l : Nat) (s : State) : State :=
  dropLane 0 true l (onLane l (fun x => { x with
    txOn := false, startIndex := 0, resume := false, content := [], htx := [], htxTail := [] }) s)

/-- The lane's start slot of R504 has passed in this run of code P. -/
def slotPassed (s : State) (l : Nat) : Bool := bit s.pwr.start (24 + l / 2)

/-- Lanes that a command enables after their start slot start in pairs, in ascending order: the first
pair at once. A lane whose slot is still to come starts there (R273). -/
def startFirstPair (ls : List Nat) (s : State) : State :=
  let due := (List.range 16).filter fun l =>
    ls.contains l && (laneAt s l).state == 0 && (laneAt s l).enabled && slotPassed s l
  let s := (due.take 2).foldl (fun s l => startLane l s) s
  let now := s.evt.period
  if due.length ≤ 2 then s
  else s.onPwr fun p => { p with pairs := p.pairs ++ [(now, due.drop 2)] }

/-- All sixteen lanes stop with the domains of code P. -/
def stopLanes (s : State) : State :=
  (List.range 16).foldl (fun s l => stopLane l s) (s.onPwr fun p => { p with pairs := [] })

/-- The next pair of a command whose last pair started 50 us ago starts, which begins with lane
`first`. -/
def startNextPair (first : Nat) (s : State) : State :=
  match s.pwr.pairs.find? fun q => q.2.head? == some first && usSince 50 q.1 s with
  | none => s
  | some q =>
    let now := s.evt.period
    let left := if q.2.length ≤ 2 then [] else [(now, q.2.drop 2)]
    (q.2.take 2).foldl (fun s l => startLane l s)
      (s.onPwr fun p => { p with pairs := p.pairs.erase q ++ left })

/-- LANE_START: a pair's start slot of R504, or the next pair of an enabling command. -/
def execLaneStart (slot : Option Nat) (first : Nat) (s : State) : Host.Outcome State Fault Refusal :=
  .next <|
    match slot with
    | some p =>
      if s.codeP && decide (p < 8) && first == 2 * p && unitDue (24 + p) s then
        startLane (2 * p + 1) (startLane (2 * p)
          (s.onPwr fun w => { w with start := w.start ||| (1#32 <<< (24 + p)) }))
      else s
    | none => startNextPair first s

/-- LANE_TX_SYNTH_LOCK (R274). -/
def execLaneTxSynthLock (l : Nat) (s : State) : Host.Outcome State Fault Refusal :=
  .next <| if (laneAt s l).state = 0 then s else onLane l (fun x => { x with txOn := true }) s

/-! ### Bring-up (R275, R276) -/

/-- Start peaking by index (R276). -/
def startPeaking (x : Lane) : BitVec 6 :=
  if x.startIndex = 0 then (if x.resume then x.peak else x.ctlePreset)
  else BitVec.ofNat 6 (8 * (x.startIndex.toNat - 1))

/-- Enter L2 with the attempt's start peaking. -/
def enterL2 (now : Quad) (x : Lane) : Lane :=
  { x with state := 2, since := now, cdr := false, startPeak := startPeaking x, peak := startPeaking x }

/-- LANE_SIGNAL_DETECT: the amplitude is above its threshold, in L1 for 2 us; L1 to L2. -/
def execLaneSignalDetect (l : Nat) (s : State) : Host.Outcome State Fault Refusal :=
  .next <|
    let x := laneAt s l
    let now := s.evt.period
    if x.state = 0 || x.state = 1 && !usSince 2 x.since s then s
    else onLane l (fun x =>
      let x := { x with signal := true }
      if x.state = 1 then enterL2 now x else x) s

/-- LANE_CDR_LOCK: the phase error has been small for 10 us; L2 to L3. -/
def execLaneCdrLock (l : Nat) (s : State) : Host.Outcome State Fault Refusal :=
  .next <|
    let now := s.evt.period
    if (laneAt s l).state = 2 ∧ usSince 10 (laneAt s l).since s then
      onLane l (fun x => { x with state := 3, since := now, idle := 0, cdr := true }) s
    else s

/-- LANE_UP: L3 to L4 at a measured SNR, held for 1 ms, and peaking. -/
def execLaneUp (l : Nat) (snr : BitVec 16) (peak : BitVec 6) (s : State) :
    Host.Outcome State Fault Refusal :=
  .next <|
    let x := laneAt s l
    if x.state = 3 ∧ x.snrMin ≤ snr ∧ usSince 1000 x.since s then
      let s := onLane l (fun x => { x with
        state := 4, snrOk := true, snr := snr, peak := if x.frozen then x.peak else peak
        startIndex := 0, resume := false, deskewRaised := false, upAt := s.evt.period }) s
      settleLaneClock l (raise (laneSource l 0) l s)
    else s

/-- The limit of L2 or L3 has passed: 200 us, or 20 ms of unfrozen time (R275). -/
def bringupOver (s : State) (x : Lane) : Bool :=
  x.state == 2 && usSince 200 x.since s ||
    x.state == 3 && !x.frozen && decide (5000000 + x.idle ≤ (s.evt.period - x.since).toNat)

/-- LANE_BRINGUP_TIMEOUT: the limit of L2 or L3; the next start peaking is tried. -/
def execLaneBringupTimeout (l : Nat) (s : State) : Host.Outcome State Fault Refusal :=
  .next <|
    let x := laneAt s l
    if bringupOver s x then
      let now := s.evt.period
      let wrapped := x.startIndex = 6
      let s := statAdd (laneBase l + 0x50) 1 (onLane l (fun x =>
        enterL2 now { x with startIndex := if wrapped then 1 else x.startIndex + 1, snrOk := false }) s)
      if wrapped then laneError l 1 s else s
    else s

/-- LANE_DOWN: causes 1 to 3 of R277; a frozen lane only loses its signal (R280). Below L4 a loss of
signal shows in SIGNAL alone. -/
def execLaneDown (l : Nat) (cause : BitVec 4) (s : State) : Host.Outcome State Fault Refusal :=
  .next <|
    let x := laneAt s l
    if x.state = 4 ∧ 1 ≤ cause ∧ cause ≤ 3 ∧
        (cause = 1 ∨ !x.frozen ∧ usSince (if cause = 2 then 1 else 100) x.thawedAt s) then
      restartLane cause.toNat l (errAdd (laneBase l + 0x40) 1 s)
    else if cause = 1 ∧ x.state < 4 then onLane l (fun x => { x with signal := false }) s
    else s

/-! ### Freezing (R279 to R281) -/

/-- Symbols whose level differs from that of the symbol before. -/
def levelChanges : List Nat → Nat
  | a :: b :: l => b2n (a != b) + levelChanges (b :: l)
  | _ => 0

/-- The density test fails. -/
def densityFails (x : Lane) (l : List Nat) : Bool := decide (levelChanges l * 32 < x.tdMin.toNat * 4095)

/-- The occupancy test fails. -/
def levelFails (x : Lane) (l : List Nat) : Bool :=
  (List.range 4).any fun i => decide ((l.filter (· == i)).length * 64 < x.loMin.toNat * 4096)

/-! ### Symbols of a window (R268 to R270, R274, R285, R286) -/

/-- What HTX sends in a window: pattern, turned symbols or the circuit's PCS bits, coded (R285). -/
def sendWindow (w : LaneWindow) (x : Lane) : Lane :=
  let code := x.pattern.toNat
  let p := patternSymbols code 4096 x.gen
  let own := if code = 0 then pamSymbols (x.content.take 8192) else p.1
  let coded := if x.txPrecode && code != 3 && code != 4 then precode x.txLast own else own
  let far := x.loopback == 2 && code == 0
  { x with
    gen := if code = 0 then x.gen else p.2
    content := if code = 0 && !far then x.content.drop 8192 else []
    txLast := if x.txPrecode && code != 3 && code != 4 && !far then coded.getLastD x.txLast else x.txLast
    htx := if far then (if x.state = 4 then w.symbols else []) else invertLevels x.txInvert coded
    htxTail := x.htx.drop (x.htx.length - 2)
    ffeWas := x.ffe, ffe := (x.cPre, x.cPost)
    ffeCut := if x.ffe = (x.cPre, x.cPost) then 0 else 256 * w.word }

/-- The symbols at the receiver: HOST_NEAR ignores HRX. -/
def receivedSymbols (w : LaneWindow) (x : Lane) : List Nat := if x.loopback = 1 then x.htx else w.symbols

/-- The recovered bits of a window. -/
def recoverWindow (l : List Nat) (x : Lane) : Lane :=
  let line := invertLevels x.rxInvert l
  let g := if x.rxPrecode then unprecode x.rxLast line else line
  { x with bits := g.flatMap pamBits, rxLast := line.getLastD x.rxLast }

/-- The checker goes on until lock, loss of lock or the last bit; what it counts while locked. -/
def advanceChecker (l : Nat) (s : State) : State :=
  let x := laneAt s l
  let r := x.check.check x.checker.toNat x.checkerLocked x.check.queue 0 0
  statAdd (laneBase l + 0x28) r.2.1 (errAdd (laneBase l + 0x20) r.2.2
    (onLane l (fun x => { x with check := r.1 }) s))

/-- The bits of a window of a lane in L4 reach its checker. -/
def checkWindow (l : Nat) (s : State) : State :=
  let x := laneAt s l
  if x.checker = 0 ∨ x.state ≠ 4 then s
  else advanceChecker l (onLane l (fun x => { x with
    check := { x.check with queue := x.check.queue ++ x.bits } }) s)

/-- Symbols of RS(544,514) corrected that arrived on a lane (R290). -/
def countCorrected (l n : Nat) (s : State) : State :=
  noteMany n 0x701 l 0 (statAdd (laneBase l + 0x30) n s)

/-- Uncorrectable codewords of a group count on its first lane (R290). -/
def countUncorrectable (l n : Nat) (s : State) : State :=
  noteMany n 0x702 l 0 (errAdd (laneBase l + 0x38) n s)

/-- Marker lock of a lane in L4 at a window's end: gained, the 1 ms of R74 begins; lost, the circuit's
ingress fails (R74, R292). -/
def settleMarker (l : Nat) (now : Bool) (s : State) : State :=
  let x := laneAt s l
  match x.circuit with
  | none => onLane l (fun x => { x with amLock := now }) s
  | some c =>
    if x.amLock && !now then loseMarkers c [l] s
    else if now && !x.amLock then
      let p := s.evt.period
      onCirc c (fun x => { x with lockAt := p }) (onLane l (fun x => { x with amLock := true }) s)
    else s

/-- The receiver's part of a window in L3 or L4: a frozen lane holds its peaking, its frequency estimate and
what its CDR shows. -/
def receiveWindow (l : Nat) (w : LaneWindow) (s : State) : State :=
  let x := laneAt s l
  let sym := receivedSymbols w x
  let d := densityFails x sym
  let v := levelFails x sym
  let s := checkWindow l (onLane l (fun x => recoverWindow sym { x with
    densityLow := d, levelLow := v, snr := w.snr
    snrOk := decide (x.snrMin ≤ w.snr)
    cdr := if x.frozen then x.cdr else decide (w.phase.natAbs ≤ 100)
    cdrOffset := if x.frozen then x.cdrOffset else w.offset
    peak := if x.frozen then x.peak else w.peak }) s)
  let s := if x.state = 4 then settleMarker l w.marker s else s
  if d || v then
    if x.frozen then onLane l (fun x => { x with passed := 0 }) s
    else setFrozen l true (statAdd (laneBase l + 0x48) 1 s)
  else if x.frozen then
    if 16 ≤ x.passed + 1 then setFrozen l false s
    else onLane l (fun x => { x with passed := x.passed + 1 }) s
  else s

/-- Bytes of a window of 4,096 PAM4 symbols (R271, R479). -/
def windowBytes : Nat := 1024

/-- FREEZE_LONG: frozen for FREEZE_LIMIT without a break. -/
def execFreezeLong (l : Nat) (s : State) : Host.Outcome State Fault Refusal :=
  .next <|
    let x := laneAt s l
    if x.frozen && !x.freezeLong &&
        decide (x.freezeLimit.toNat * 250000 ≤ (s.evt.period - x.frozenAt).toNat) then
      laneError l 2 (onLane l (fun x => { x with freezeLong := true }) s)
    else s

/-! ### Groups (R283, R284) -/

/-- Every PCS lane stands on one lane of the group, in any order. -/
def pcsComplete (n : Nat) (pcs : List Nat) : Bool :=
  pcs.length == n && (List.range n).all fun i => pcs.contains i

/-- The skews against the earliest lane, in 0.1 ns. -/
def deskews (arrivals : List Nat) : List Nat :=
  let first := arrivals.foldl min (arrivals.headD 0)
  arrivals.map fun t => t - first

/-- GROUP_ALIGNED: every PCS lane of the circuit's group has marker lock, on whichever lane, and the
group is deskewed, up to 200 ns (R283). -/
def execGroupAligned (c : Nat) (lanes : List GroupLane) (s : State) :
    Host.Outcome State Fault Refusal :=
  .next <|
    let x := circAt s c
    let pcs := lanes.map GroupLane.pcs
    let d := deskews (lanes.map GroupLane.arrival)
    if x.created && x.lanes.all (fun l => (laneAt s l).state == 4) && pcsComplete x.laneCount pcs &&
        d.all (· ≤ 2000) then
      let now := s.evt.period
      (x.lanes.zip (List.range x.laneCount)).foldl (fun s e =>
        onLane e.1 (fun n => { n with
          amLock := true, aligned := true, pcs := pcs.getD e.2 0
          deskew := BitVec.ofNat 16 (d.getD e.2 0) }) s)
        (onCirc c (fun x => { x with lockAt := now, rxSymbols := [], rxPlace := 0 }) s)
    else s

/-- 10 ms have run since the group's last lane entered L4. -/
def alignLate (s : State) (x : Circ) : Bool :=
  x.lanes.all fun l => (laneAt s l).state == 4 &&
    decide (2500000 ≤ (s.evt.period - (laneAt s l).upAt).toNat)

/-- DESKEW_FAIL on the group's first lane, once for each entry into L4. -/
def execDeskewFail (c : Nat) (s : State) (mixed : Bool := false) :
    Host.Outcome State Fault Refusal :=
  .next <|
    let x := circAt s c
    let n := laneAt s x.firstLane
    if x.created && n.state == 4 && !n.deskewRaised && !n.aligned && (mixed || alignLate s x) then
      laneError x.firstLane 3 (onLane x.firstLane (fun n => { n with deskewRaised := true }) s)
    else s

/-! ### Tests (R285 to R287) -/

/-- CHECKER_LOCK: 1,024 consecutive error-free bits; the checker goes on with the bits that follow. -/
def execCheckerLock (l : Nat) (s : State) : Host.Outcome State Fault Refusal :=
  .next <|
    let x := laneAt s l
    if x.checker ≠ 0 ∧ !x.checkerLocked ∧ x.check.due false then
      advanceChecker l (onLane l (fun x => { x with
        checkerLocked := true, check := { x.check with bits := 0, errors := 0 } }) s)
    else s

/-- CHECKER_LOST: 1,024 or more errors in a window of 4,096 bits; the checker aligns again. -/
def execCheckerLost (l : Nat) (s : State) : Host.Outcome State Fault Refusal :=
  .next <|
    let x := laneAt s l
    if x.checkerLocked ∧ x.check.due true then
      advanceChecker l (laneError l 4 (onLane l (fun x => { x with
        checkerLocked := false, check := { x.check with run := 0 } }) s))
    else s

/-- A lane that belongs to nothing any longer is disabled; from L4 it goes down with cause TEST. -/
def disableLane (l : Nat) (s : State) : State := stopLane l (goesDown 6 l s)

/-- A lane had a test: it is cleared, and the lane restarts or is disabled. -/
def clearTest (l : Nat) (s : State) : State :=
  let x := laneAt s l
  if x.loopback = 0 ∧ x.pattern = 0 ∧ x.checker = 0 ∧ !x.tested then s
  else
    let s := onLane l (fun x => { x with
      loopback := 0, pattern := 0, checker := 0, checkerLocked := false, check := {}
      tested := false }) s
    if x.circuit.isNone then disableLane l s
    else if x.loopback ≠ 0 ∨ x.pattern ≠ 0 then restartLane 6 l s
    else s

/-- Leaving MAINTENANCE clears every test (R287). -/
def clearTests (s : State) : State := (List.range 16).foldl (fun s l => clearTest l s) s

/-- The named lanes are exactly the lanes of one created circuit. -/
def exactGroup (s : State) (ls : List Nat) : Bool :=
  match ls.head?.bind fun l => (laneAt s l).circuit with
  | some c => (circAt s c).created && ls == (circAt s c).lanes
  | none => false

/-- One lane takes its test settings. -/
def applyTest (w : Word) (l : Nat) (s : State) : State :=
  let x := laneAt s l
  let lb : BitVec 3 := w.extractLsb' 0 3
  let pat : BitVec 3 := w.extractLsb' 4 3
  let chk : BitVec 3 := w.extractLsb' 8 3
  let s := onLane l (fun x => { x with
    loopback := lb, pattern := pat, checker := chk, checkerLocked := false, check := {}
    gen := if pat = x.pattern then x.gen else patternStart pat.toNat
    tested := x.circuit.isNone && (lb != 0 || pat != 0)
    rate := if x.circuit.isSome then x.rate else bit w 12 }) s
  let s := if chk = 0 then s else clearCounter (laneBase l + 0x28) (clearCounter (laneBase l + 0x20) s)
  if !(laneAt s l).enabled then disableLane l s
  else if lb = x.loopback then s
  else restartLane 6 l s

def hlaneTestBody (j : Job) (s : State) : Verdict :=
  let ls := maskLanes (j.param 0)
  let w := j.param 1
  let lb := fld w 2 0
  match firstRefusal [
    (ls.isEmpty, badParam 0),
    (decide (3 < lb) || decide (4 < fld w 6 4) || decide (3 < fld w 10 8), badParam 1),
    (lb == 3 && !exactGroup s ls, badParam 0),
    (ls.any fun l => (laneAt s l).circuit.isSome && (laneAt s l).rate != bit w 12, badParam 1),
    (lb == 2 && ls.any fun l => (laneAt s l).state != 4, refBusy)] with
  | some r => .refuse r
  | none => .complete (startFirstPair ls (ls.foldl (fun s l => applyTest w l s) s)) []

def execOpHlaneTest (j : Nat) (s : State) : Host.Outcome State Fault Refusal :=
  .next (runOp 0x0822 2 hlaneTestBody j s)

/-! ### OP_HLANE_CONFIG and OP_HLANE_RESTART (R288, R289) -/

/-- One lane takes its settings; a change of precoding or inversion takes it down. -/
def applyLaneConfig (j : Job) (l : Nat) (s : State) : State :=
  let w := j.param 1
  let x := laneAt s l
  let y : Lane := { x with
    ctlePreset := w.extractLsb' 16 6
    rxInvert := bit w 7, txInvert := bit w 6, rxPrecode := bit w 5, txPrecode := bit w 4
    cPre := signed 8 (fld (j.param 2) 7 0), cPost := signed 8 (fld (j.param 2) 15 8)
    tdMin := (j.param 3).extractLsb' 0 5, loMin := (j.param 3).extractLsb' 8 5
    freezeLimit := (j.param 3).extractLsb' 16 10, snrMin := (j.param 4).extractLsb' 0 16 }
  let coding := (x.rxInvert, x.txInvert, x.rxPrecode, x.txPrecode) ≠
    (y.rxInvert, y.txInvert, y.rxPrecode, y.txPrecode)
  let s := onLane l (fun _ => { y with resume := y.resume && decide (x = y) }) s
  if coding ∧ x.enabled then restartLane 5 l s else s

def hlaneConfigBody (j : Job) (s : State) : Verdict :=
  let w := j.param
  match firstRefusal [
    ((maskLanes (w 0)).isEmpty, badParam 0),
    (decide (40 < fld (w 1) 21 16), badParam 1),
    (decide (signed 8 (fld (w 2) 7 0) < -16) || decide (0 < signed 8 (fld (w 2) 7 0)) ||
      decide (signed 8 (fld (w 2) 15 8) < -16) || decide (0 < signed 8 (fld (w 2) 15 8)), badParam 2),
    (outside 1 16 (fld (w 3) 4 0) || outside 1 8 (fld (w 3) 12 8) ||
      outside 1 1000 (fld (w 3) 25 16), badParam 3),
    (outside 1000 2400 (fld (w 4) 15 0), badParam 4)] with
  | some r => .refuse r
  | none => .complete ((maskLanes (w 0)).foldl (fun s l => applyLaneConfig j l s) s) []

def execOpHlaneConfig (j : Nat) (s : State) : Host.Outcome State Fault Refusal :=
  .next (runOp 0x0320 5 hlaneConfigBody j s)

/-- The named lanes go to L1: at once, or, where the start of one is still to come, all of them at the last
such start, which is the commit (R288). -/
def hlaneRestartBody (j : Job) (s : State) : Verdict :=
  let ls := maskLanes (j.param 0)
  if ls.isEmpty || ls.any fun l => !(laneAt s l).enabled then .refuse (badParam 0)
  else
    let off := ls.filter fun l => (laneAt s l).state == 0
    if off.isEmpty then .complete (restartNamed ls s) []
    else .accept (off.foldl (fun s l => onLane l (fun x => { x with waiting := x.waiting ++ [j.id] }) s) s)

def execOpHlaneRestart (j : Nat) (s : State) : Host.Outcome State Fault Refusal :=
  .next (runOp 0x0321 1 hlaneRestartBody j s)

end Sys2Proof.Machine
end

