-- ==== Sys2Proof/Machine/Circuits.lean ====
section
/-!
DEFINITION. Circuits: creation and deletion (R86 to R88), the ingress FIFO and its overruns
(R77), the cut of a frame (R75, R76, R89, R90), egress delivery (R78 to R85), recovery (R79) and
the transparent clock's commands (R93, R94).
-/

namespace Sys2Proof.Machine

/-- Circuit registers stand here (R98). -/
def circBase (c : Nat) : Nat := 0x100000 + 0x40 * c

/-- Container capacity in 257-bit blocks (R76). -/
def containerBlocks (slots rate : Nat) : Nat := (slots * slotBits rate - 64) / 257

/-! ### Creation and deletion (R71, R72, R86 to R88) -/

/-- The lane count of a client type at a rate (R71); 0 where there is none. -/
def lanesOf : Nat → Bool → Nat
  | 0, false => 1 | 1, false => 2 | 1, true => 1 | 2, false => 4 | 2, true => 2
  | 3, false => 8 | 3, true => 4 | 4, true => 8 | _, _ => 0

def badConfig (x : Circ) : Bool :=
  lanesOf x.clientType x.laneRate == 0 || x.laneCount != lanesOf x.clientType x.laneRate ||
    x.firstLane % x.laneCount != 0 ||
    (fld x.config 27 20 != 0 && decide (fld x.config 27 20 < 8))

/-- A circuit's seven counters clear (R98). -/
def clearCircuitCounters (c : Nat) (s : State) : State :=
  (List.range 7).foldl (fun s i => clearCounter (circBase c + 8 + 8 * i) s) s

/-- The lane joins a circuit. -/
def claimLane (c : Nat) (rate : Bool) (l : Nat) (s : State) : State :=
  onLane l (fun x => { x with circuit := some c, rate := rate, tested := false }) s

/-- OP_CIRCUIT_CREATE. Discarding of the circuit's containers ends with it (R89). -/
def circuitCreateBody (j : Job) (s : State) : Verdict :=
  let c := fld (j.param 0) 9 0
  let old := circAt s c
  let x : Circ := { created := true, config := j.param 1 &&& 0x0FF7FFF7, egressFill := true,
                    dark := old.dark, farFail := old.farFail }
  match firstRefusal [
    (badConfig x, badParam 1),
    ((circAt s c).created, refBusy),
    (x.lanes.any fun l => (laneAt s l).circuit.isSome, refBusy)] with
  | some r => .refuse r
  | none =>
    let s := onCirc c (fun _ => x) s
    let s := x.lanes.foldl (fun s l => claimLane c x.laneRate l s) (clearCircuitCounters c s)
    .complete (failIngress c (startFirstPair x.lanes s)) []

def execOpCircuitCreate (j : Nat) (s : State) : Host.Outcome State Fault Refusal :=
  .next (runOp 0x0301 2 circuitCreateBody j s)

/-- The circuit has a TAG row in a map that is or will be used (R88). -/
def circuitMapped (s : State) (c : Nat) : Bool :=
  carries (storedRows s s.frm.txMap) c ||
    (match switchTarget s with
     | some b => carries (storedRows s b) c
     | none => false) ||
    (match rxMap s with
     | some b => carries (storedRows s b) c
     | none => false)

/-- The lane leaves its circuit: it is disabled, unless a test keeps it enabled (R272). -/
def freeLane (l : Nat) (s : State) : State :=
  let s := onLane l (fun x => { x with
    circuit := none, tested := x.loopback != 0 || x.pattern != 0, content := [] }) s
  if (laneAt s l).enabled then s else stopLane l s

/-- OP_CIRCUIT_DELETE. A failed ingress ends with its circuit and raises no INGRESS_FAIL_END, on which R101 is
silent (DESIGN CHOICE, log 181). -/
def circuitDeleteBody (j : Job) (s : State) : Verdict :=
  let c := fld (j.param 0) 9 0
  let x := circAt s c
  match firstRefusal [(!x.created, refNotFound), (circuitMapped s c, refBusy)] with
  | some r => .refuse r
  | none =>
    let s := onCirc c (fun x => { unterminated := x.unterminated, dark := x.dark, farFail := x.farFail }) s
    .complete (x.lanes.foldl (fun s l => freeLane l s) s) []

def execOpCircuitDelete (j : Nat) (s : State) : Host.Outcome State Fault Refusal :=
  .next (runOp 0x0302 1 circuitDeleteBody j s)

/-! ### Ingress (R74, R75, R77) -/

/-- The circuit's lanes carry a test. -/
def underTest (s : State) (c : Nat) : Bool :=
  (circAt s c).lanes.any fun l => (laneAt s l).loopback != 0 || (laneAt s l).pattern != 0

/-- A circuit's counters do not advance for test traffic (R91, R287). -/
def unlessTest (c : Nat) (f : State → State) (s : State) : State := if underTest s c then s else f s

/-- Loopback CLIENT turns ingress blocks to the egress (R285). -/
def clientLoop (s : State) (c : Nat) : Bool :=
  (circAt s c).created && (circAt s c).lanes.all fun l => (laneAt s l).loopback == 3

/-- A block for the ingress FIFO, by the overrun rule of R77. -/
def ingressBlock (c : Nat) (b : BitVec 257) (s : State) : State :=
  let x := circAt s c
  let cap := containerBlocks x.slotCount s.prof.rate
  let slip := unlessTest c (errAdd (circBase c + 0x28) 1)
  if x.overrun then
    if x.fifo.length ≤ cap + 256 then
      onCirc c (fun x => { x with overrun := false, fifo := x.fifo ++ [errorBlock257] }) s
    else slip s
  else if cap + 512 ≤ x.fifo.length then
    raise 260 c (slip (onCirc c (fun x => { x with overrun := true }) s))
  else onCirc c (fun x => { x with fifo := x.fifo ++ [b] }) s

/-- A block in loopback CLIENT goes to the egress in place of line data (R285). -/
def loopBlock (c : Nat) (bs : List Block66) (s : State) : State :=
  onCirc c (fun x => { x with
    egress := x.egress ++ bs, openPacket := bs.foldl openAfter x.openPacket, egressFill := false
    hunting := false, errorFill := false }) s

/-- The symbols that reach a circuit's PCS: symbol k of a set arrives on lane k of the group, modulo the
lanes, and a lane in loopback HOST_NEAR receives what it has sent, not what HRX brings (R72, R285). -/
def arrivingSymbols (c : Nat) (symbols : List (BitVec 10)) (s : State) : List (BitVec 10) :=
  let x := circAt s c
  let nears := x.lanes.map fun l => (laneAt s l).loopback == 1
  if nears.any id then
    ((symbols.zip x.near).zip (List.range symbols.length)).map fun e =>
      if nears.getD ((x.rxSymbols.length + e.2) % x.laneCount) false then e.1.2 else e.1.1
  else symbols

/-- A set of codewords has arrived: it is decoded, its counts are taken, its markers removed (R73, R290). An
uncorrectable codeword marks the set's blocks as errors, as IEEE 802.3 error marking does. -/
def decodeArrived (c : Nat) (s : State) : State :=
  let x := circAt s c
  let n := 544 * codewords x.clientType
  if x.rxSymbols.length < n then s
  else
    let d := decodeSet x.clientType (x.rxSymbols.take n)
    let u := unmark x.clientType x.rxPlace d.blocks
    let s := (x.lanes.zip (List.range x.laneCount)).foldl (fun s e =>
      countCorrected e.1 ((everyNth x.laneCount e.2 d.fixed).countP id) s)
      (countUncorrectable x.firstLane d.lost s)
    onCirc c (fun x => { x with
      rxSymbols := x.rxSymbols.drop n, rxPlace := u.2
      decoded := x.decoded ++ u.1.map fun b => (b, decide (0 < d.lost)) }) s

/-- Symbols arrive at a circuit's PCS. -/
def takeSymbols (c : Nat) (symbols : List (BitVec 10)) (s : State) : State :=
  let new := arrivingSymbols c symbols s
  decodeArrived c (onCirc c (fun x => { x with
    rxSymbols := x.rxSymbols ++ new, near := x.near.drop new.length }) s)

/-- A decoded block is descrambled, its 66-bit blocks recovered and transcoded (R73). -/
def enterBlock (c : Nat) (b : BitVec 257 × Bool) (s : State) : State :=
  let x := circAt s c
  let d := descramble x.descrambler (blockBits b.1)
  let bs := if b.2 then List.replicate 4 errorBlock else untranscode (bitsBlock d.1)
  let s := onCirc c (fun x => { x with descrambler := d.2 }) s
  if clientLoop s c then loopBlock c bs s
  else if x.cutting && !x.ingressFail then ingressBlock c (transcode bs) s
  else s

/-- CLIENT_BLOCK_INGRESS: symbols of the client's codewords arrive, and the next decoded block enters
(R73). -/
def execClientBlockIngress (c : Nat) (symbols : List (BitVec 10)) (s : State) :
    Host.Outcome State Fault Refusal :=
  .next <|
    if s.codeP && (circAt s c).created then
      let s := takeSymbols c symbols s
      match (circAt s c).decoded with
      | b :: rest => enterBlock c b (onCirc c (fun x => { x with decoded := rest }) s)
      | [] => s
    else s

/-! ### The cut (R75, R76, R89, R90) -/

def darkContainer (c slots : Nat) : Container :=
  { circ := c, slots := slots, clientFail := true, phase := 0, blocks := [] }

/-- One circuit's cut as a frame opens: `r` client bits of its next block have been received. -/
def cut (c slots r : Nat) (s : State) : Container × State :=
  let x := circAt s c
  if !x.created || x.slotCount != slots then
    let s := if x.dark then s else raise 264 c s
    (darkContainer c slots, onCirc c (fun x => { x with
      dark := true, cutting := false, fifo := [], overrun := false }) s)
  else if x.ingressFail then
    (darkContainer c slots, onCirc c (fun x => { x with dark := false, cutting := true }) s)
  else if !x.cutting then
    ({ circ := c, slots := slots, clientFail := false, phase := 256 * r / 257, blocks := [] },
      onCirc c (fun x => { x with dark := false, cutting := true, fifo := [] }) s)
  else
    let n := containerBlocks slots s.prof.rate
    let bs := x.fifo.take n
    let s := unlessTest c (statAdd (circBase c + 8) bs.length) s
    ({ circ := c, slots := slots, clientFail := false, phase := 256 * r / 257, blocks := bs },
      onCirc c (fun x => { x with fifo := x.fifo.drop n }) s)

/-- Circuits that no TAG row of the map in use names stop being cut. -/
def dropUncarried (rows : List Word) (s : State) : State :=
  { s with circ := s.circ.filterMap fun e =>
      if carries rows e.1 then some e
      else
        let x : Circ := { e.2 with cutting := false, fifo := [], overrun := false, dark := false }
        if x = {} then none else some (e.1, x) }

/-- The residue of a circuit, from a list. -/
def residueOf (rs : List (Nat × Nat)) (c : Nat) : Nat :=
  match rs.find? fun e => e.1 = c with
  | some e => e.2
  | none => 0

/-- The cuts of every circuit the rows name, in row order. -/
def cuts (rows : List Word) (rs : List (Nat × Nat)) (s : State) : List Container × State :=
  (rows.filter isTag).foldl (fun acc w =>
    let c := rowCircuit w
    let r := cut c (slotRows rows c).length (residueOf rs c) acc.2
    (acc.1 ++ [r.1], r.2)) ([], dropUncarried rows s)

/-- A container's bits (R48). -/
def containerBits (k : Container) (rate : Nat) : List Bool :=
  let body := bitsMsb 16 k.blocks.length ++ bitsMsb 8 k.phase ++ List.replicate 40 false ++
    k.blocks.flatMap blockBits
  body ++ List.replicate (k.slots * slotBits rate - body.length) false

/-! ### Egress (R78 to R85) -/

/-- The residual fill in 66-bit blocks. -/
def Circ.fill (x : Circ) : Nat := x.egress.length

/-- The egress FIFO holds twice the container capacity (R78), in 66-bit blocks. -/
def Circ.room (x : Circ) (p : Profile) : Nat := 8 * containerBlocks x.slotCount p.rate

/-- Write blocks into the FIFO, as many as it holds. -/
def Circ.write (p : Profile) (bs : List Block66) (x : Circ) : Circ :=
  let taken := bs.take (x.room p - x.fill)
  { x with egress := x.egress ++ taken, openPacket := taken.foldl openAfter x.openPacket }

/-- The bits of PCS lane i among n: every n-th symbol (R72). -/
def pcsBits (n i : Nat) (symbols : List (BitVec 10)) : List Bool :=
  (everyNth n i symbols).flatMap fun v => tenBits v.toNat

/-- Blocks leave for the host: they are coded into 257-bit blocks, scrambled, given their markers and their
RS parity, and sent as the PCS lanes of the group, lane i of the group as PCS lane i (R72, R73, R274). -/
def sendHost (c : Nat) (bs : List Block66) (s : State) : State :=
  let x := circAt s c
  let k := codeBlocks x.scrambler (x.uncoded ++ bs)
  let m := mark x.clientType x.laneRate x.txPlace k.1
  let e := encodeSets x.clientType (x.unsent ++ m.1).length (x.unsent ++ m.1)
  let isNear := x.lanes.any fun l => (laneAt s l).loopback == 1 && (laneAt s l).pattern == 0
  let s := onCirc c (fun x => { x with
    out := bs, uncoded := k.2.1, scrambler := k.2.2, unsent := e.2, txPlace := m.2
    near := if isNear then x.near ++ e.1 else [] }) s
  (x.lanes.zip (List.range x.laneCount)).foldl (fun s l =>
    onLane l.1 (fun n => { n with content := n.content ++
      (if n.txOn then pcsBits x.laneCount l.2 e.1 else []) }) s) s

/-- The host-lane transmitter reads n block periods: the FIFO's blocks, then Local Fault ordered sets
while the egress delivers client fill (R82). -/
def drainEgress (c n : Nat) (s : State) : State :=
  let x := circAt s c
  let bs := x.egress.take n
  let fill := if x.created && x.egressFill then List.replicate (n - bs.length) localFault else []
  sendHost c (bs ++ fill) (onCirc c (fun x => { x with
    egress := x.egress.drop n, openFront := bs.foldl openAfter x.openFront }) s)

/-- The 66-bit block periods in which a lane of the group gets the bits of one set of codewords, and those
bits. -/
def setPeriods (x : Circ) : Nat := 4 * setBlocks x.clientType
def setLaneBits (x : Circ) : Nat := 5440 * codewords x.clientType / x.laneCount

/-- Before a window of lane l the transmitter reads what the window needs while the egress delivers client
fill or turned ingress blocks, which come with no frame (R91, R274, R285). -/
def topUp (l : Nat) (s : State) : State :=
  let n := laneAt s l
  match n.circuit with
  | none => s
  | some c =>
    let x := circAt s c
    if n.txOn && n.pattern == 0 && n.loopback != 2 && decide (n.content.length < 8192) &&
        (x.egressFill || clientLoop s c) then
      drainEgress c (setPeriods x * ((8192 - n.content.length + setLaneBits x - 1) / setLaneBits x)) s
    else s

/-- LANE_FREEZE_WINDOW: the end of a window of 4,096 symbols, at HTX while the lane drives it, and at
the receiver in L3 or L4. -/
def execLaneFreezeWindow (l : Nat) (w : LaneWindow) (s : State) :
    Host.Outcome State Fault Refusal :=
  .next <|
    let s := if (laneAt s l).txOn then carry (16 + l) windowBytes (onLane l (sendWindow w) (topUp l s))
      else s
    if (laneAt s l).state = 3 ∨ (laneAt s l).state = 4 then
      receiveWindow l w (carry l windowBytes s)
    else s

/-- The next block that is no idle is an ordered set. -/
def orderedNext : List Block66 → Bool
  | [] => false
  | b :: l => if b = idleBlock then orderedNext l else b.isOrdered

/-- Delete the first idle block that stands neither in a packet nor between ordered sets: whether a
packet is open and whether the last block that was no idle is an ordered set. -/
def deleteIdle : Bool → Bool → List Block66 → List Block66
  | _, _, [] => []
  | inPacket, ordered, b :: l =>
    if b = idleBlock then
      if inPacket || (ordered && orderedNext l) then b :: deleteIdle inPacket ordered l else l
    else b :: deleteIdle (openAfter inPacket b) b.isOrdered l

/-- Insert an idle block at the first place that is neither in a packet nor between ordered sets. -/
def insertIdle : Bool → Bool → List Block66 → List Block66
  | inPacket, ordered, [] => if inPacket || ordered then [] else [idleBlock]
  | inPacket, ordered, b :: l =>
    if !inPacket && !(ordered && orderedNext (b :: l)) then idleBlock :: b :: l
    else b :: insertIdle (if b = idleBlock then inPacket else openAfter inPacket b)
      (if b = idleBlock then ordered else b.isOrdered) l

/-- Apply a change of the FIFO n times. -/
def repeatOn (f : List Block66 → List Block66) : Nat → List Block66 → List Block66
  | 0, l => l
  | n + 1, l => repeatOn f n (f l)

/-- LOCAL timing holds the residual fill, as it stood before the frame's blocks, within Q ± 8 by idle
blocks (R80). -/
def adaptLocal (fill : Nat) (x : Circ) : Circ :=
  let q := x.fillTarget
  if !x.localTiming then x
  else if 4 * (q + 8) < fill then
    { x with egress := repeatOn (deleteIdle x.openFront false) (fill - 4 * (q + 8)) x.egress }
  else if fill < 4 * (q - 8) then
    { x with egress := repeatOn (insertIdle x.openFront false) (4 * (q - 8) - fill) x.egress }
  else x

/-! ### The recovery loop (R79) -/

/-- RECOVERY_BW in Hz. A code 0, also that of the register's reset value, is 0.1 Hz; the default of R79, code
4, is software's to write (DESIGN CHOICE, log 180). -/
def recoveryBw (x : Circ) : Rat :=
  match fld x.config 18 16 with
  | 0 => 1 / 10 | 1 => 3 / 10 | 2 => 1 | 3 => 3 | 4 => 10 | 5 => 30 | 6 => 100 | _ => 300

/-- The nominal 257-bit blocks of the client in a frame (R76). -/
def nominalBlocks (x : Circ) (s : State) : Rat :=
  (390625 * 2 ^ x.clientType : Nat) * framePeriodNs s / 1000000

/-- The steering limit of 200 ppm. -/
def steerLimit : Rat := 1 / 5000

/-- A data frame's step of the loop: n blocks with a PHASE, at the residual fill before its blocks.
Damping 1, the bandwidth as R310 relates it to the loop; the steering is held within ±200 ppm. -/
def recoveryStep (n phase : Nat) (fill : Nat) (s : State) (x : Circ) : Circ :=
  if x.localTiming then x
  else
    let advance := 256 * (n : Int) + phase - x.lastPhase.toNat
    let err : Int := fill - 4 * (x.fillTarget : Int)
    let e : Rat := (err : Rat) / 4
    let w := 2 * piRat * recoveryBw x / kZeta 1
    let rate := nominalBlocks x s / (framePeriodNs s / 1000000000)
    let integral := clampRat steerLimit (x.integral + w * w * e * framePeriodNs s / 1000000000 / rate)
    let ff := (advance : Rat) / 256 / nominalBlocks x s - 1
    { x with
      advance := advance, fillError := err, integral := integral
      steer := clampRat steerLimit (ff + 2 * w * e / rate + integral)
      inBand := if err.natAbs ≤ 8 then some (x.inBand.getD s.evt.period) else none }

/-! ### Client fill, error fill and data (R83 to R85) -/

/-- The egress turns to client fill; an open packet is first closed (R85). -/
def turnToFill (c : Nat) (s : State) : State :=
  let x := circAt s c
  let closing := !x.egressFill && x.openPacket
  let s := if closing then unlessTest c (errAdd (circBase c + 0x18) 1) s else s
  onCirc c (fun x => { (if closing then x.write s.prof [errorBlock] else x) with
    openPacket := false, egressFill := true, hunting := false, errorFill := false }) s

/-- A frame in which the circuit has client fill (R83 rows 1 to 3). -/
def deliverFill (c : Nat) (s : State) : State :=
  turnToFill c (unlessTest c (statAdd (circBase c + 0x20) 1) s)

/-- Every created circuit turns to client fill, as a receiver that leaves TRAFFIC does (R91). -/
def fillAll (s : State) : State :=
  s.circ.foldl (fun s e => if e.2.created && !clientLoop s e.1 then turnToFill e.1 s else s) s

/-- A frame of error fill for n carried blocks (R82, R83 rows 4 and 5). It needs no rule of R85, and
with no block to write the egress goes on as it was (R90). -/
def deliverErrorFill (c n : Nat) (predicted : Bool) (s : State) : State :=
  let x := circAt s c
  let s := unlessTest c (errAdd (circBase c + 0x18) 1) s
  let s := if x.errorFill then s else raise 262 c s
  let s := if predicted then raise 263 c s else s
  onCirc c (fun x => { x.write s.prof (List.replicate (4 * n) errorBlock) with
    openPacket := x.openPacket && n == 0
    lastCount := BitVec.ofNat 16 n, prevCount := n, fillPredicted := predicted
    egressFill := x.egressFill && n == 0, errorFill := true }) s

/-- Replace blocks until the first idle, ordered set or start (R85). -/
def hunt : Bool → List Block66 → Bool × List Block66
  | h, [] => (h, [])
  | false, l => (false, l)
  | true, b :: l =>
    if b = idleBlock || b.isOrdered || b.isStart then (false, b :: l)
    else
      let r := hunt true l
      (r.1, errorBlock :: r.2)

/-- A frame of data (R83 row 6). -/
def deliverData (c phase : Nat) (blocks : List (BitVec 257)) (s : State) : State :=
  let x := circAt s c
  let took := fun (x : Circ) => { x with
    lastCount := BitVec.ofNat 16 blocks.length, prevCount := blocks.length, errorFill := false
    lastPhase := BitVec.ofNat 8 phase }
  if blocks.isEmpty && x.egressFill then
    onCirc c took (unlessTest c (statAdd (circBase c + 0x20) 1) s)
  else
    let l := blocks.flatMap untranscode
    let r := hunt (x.egressFill || x.hunting) l
    let s := unlessTest c (statAdd (circBase c + 0x10) blocks.length) s
    let s := if r.2 ≠ l then unlessTest c (errAdd (circBase c + 0x18) 1) s else s
    onCirc c (fun x => took { adaptLocal x.fill
        ((recoveryStep blocks.length phase x.fill s x).write s.prof r.2) with
      egressFill := false, hunting := r.1 }) s

/-- EGRESS_UNDERRUN: the FIFO empties, and error blocks are sent for some block periods (R81). -/
def execEgressUnderrun (c periods : Nat) (s : State) : Host.Outcome State Fault Refusal :=
  .next <|
    let x := circAt s c
    if s.codeP && x.created && !x.egressFill then
      raise 261 c (unlessTest c (errAdd (circBase c + 0x28) periods)
        (sendHost c (x.egress ++ List.replicate periods errorBlock)
          (onCirc c (fun x => { x with egress := [], openPacket := false, openFront := false }) s)))
    else s

/-- RECOVERY_LOCK: the residual fill has stayed within Q ± 2 for 1 s (R79). -/
def execRecoveryLock (c : Nat) (s : State) : Host.Outcome State Fault Refusal :=
  .next <|
    let x := circAt s c
    let held := match x.inBand with
      | some p => decide (secondPeriods ≤ (s.evt.period - p).toNat)
      | none => false
    if s.codeP && x.created && !x.localTiming && held then
      onCirc c (fun x => { x with recoveryLocked := true }) s
    else s

/-- RECOVERY_UNLOCK: the fill leaves Q ± 64, or the steering reaches its limit; the loop goes on
steering (R79). -/
def execRecoveryUnlock (c : Nat) (s : State) : Host.Outcome State Fault Refusal :=
  .next <|
    let x := circAt s c
    if s.codeP && x.recoveryLocked &&
        (decide (256 < x.fillError.natAbs) || decide (steerLimit ≤ absRat x.steer)) then
      raise 266 c (onCirc c (fun x => { x with recoveryLocked := false }) s)
    else s

/-! ### The transparent clock (R92 to R94) -/

/-- A message passes uncorrected (R92, R93). -/
def tcSkip (notice : Bool) (c : Nat) (s : State) : State :=
  let s := unlessTest c (errAdd (circBase c + 0x38) 1) s
  if notice then raiseLimited (267 * 2 ^ 16 + c) 267 c s else s

/-- An event message on a circuit with TC_ENABLE, with the offsets of its PTP and UDP headers. -/
def tcMessage (s : State) (c : Nat) (f : List Byte) : Option (Nat × Option Nat) :=
  if (circAt s c).tcEnable then
    match ptpAt f with
    | some p => if isEvent f p.1 then some p else none
    | none => none
  else none

/-- The PTP header of 34 bytes ends within the frame and its first 256 bytes (R92). -/
def headerWithin (f : List Byte) (p : Nat) : Bool := decide (p + 34 ≤ 256) && decide (p + 34 ≤ f.length)

/-- PTP_INGRESS: the ingress time is written, unless the field is taken. -/
def execPtpIngress (c : Nat) (frame : List Byte) (s : State) : Host.Outcome State Fault Refusal :=
  .next <|
    let out := fun f => onCirc c (fun x => { x with ptpIn := f })
    if !s.codeP || !(circAt s c).created then s
    else match tcMessage s c frame with
    | none => out frame s
    | some (p, udp) =>
      if !headerWithin frame p then out frame (tcSkip false c s)
      else if (frame.drop (p + 16)).take 4 ≠ [0, 0, 0, 0] then out frame (tcSkip true c s)
      else out (stampIngress s.tim.counter frame p udp) s

/-- PTP_EGRESS: the residence time is added to correctionField. -/
def execPtpEgress (c : Nat) (frame : List Byte) (s : State) : Host.Outcome State Fault Refusal :=
  .next <|
    let out := fun f => onCirc c (fun x => { x with ptpOut := f })
    if !s.codeP || !(circAt s c).created then s
    else match tcMessage s c frame with
    | none => out frame s
    | some (p, udp) =>
      if !headerWithin frame p then out frame (tcSkip false c s)
      else out (correctEgress s.tim.counter frame p udp) (unlessTest c (statAdd (circBase c + 0x30) 1) s)

end Sys2Proof.Machine
end

