-- ==== Sys2Proof/Machine/Assembler.lean ====
section
/-!
DEFINITION. The frame assembler: a frame opens (R22, R38, R57, R63, R65, R75, R113, R326), and is
handed to T5 with its overhead (R44, R45, R50, R330).
-/

namespace Sys2Proof.Machine

/-! ### FRAME_OPEN -/

/-- FRAME_COUNT of the frame that opens: a transmitter that stopped resumes on a superframe, the next after
the last frame opened (R38; DESIGN CHOICE, log 163). -/
def openCount (f : Frm) : Quad :=
  if f.stopped then BitVec.ofNat 64 ((f.nextCount.toNat + 7) / 8 * 8) else f.nextCount

/-- A superframe opens: a pending map switch goes from step 1 to step 2, or commits (R63). -/
def switchStage (txTime : Nat) (s : State) : State :=
  match s.frm.switch with
  | some w =>
    if w.opened then
      let s := s.onFrm fun f => { f with txMap := w.target, switch := none }
      raise 240 0 (finishOk w.job [] (commitAt txTime w.job s))
    else s.onFrm fun f => { f with switch := some { w with opened := true } }
  | none => s

/-- MAP_NEXT now. -/
def mapNext (s : State) : Bool :=
  match s.frm.switch with
  | some w => if w.opened then w.target else s.frm.txMap
  | none => s.frm.txMap

/-- TX_EPOCH of every context. -/
def txEpochs (s : State) : BitVec 1024 :=
  BitVec.ofNat 1024 ((s.cry.ctx.map fun e => b2n e.2.txEpoch * 2 ^ e.1).sum)

/-- TX_TIME of a frame that opens now (R326). -/
def openTxTime (s : State) : Nat :=
  (s.tim.counter + psTime (dTxPs s + fld s.tim.planes 15 0)) % timeModulus

/-- The transmit sequencer reads its map; the onset of poison raises MAP_POISON (R65). -/
def readTxMap (s : State) : Option (List Word) × State :=
  let r := sequencerRead s.frm.txMap s
  let onset := r.1.isNone && !s.frm.txPoison
  (r.1, let s := r.2.onFrm fun f => { f with txPoison := r.1.isNone }
        if onset then raise 248 0 s else s)

/-- FRAME_OPEN: `residues` gives r of R75 for the circuits whose r is not 0. A poisoned map's rows and header
are its stored words as they are (DESIGN CHOICE, log 40). -/
def execFrameOpen (residues : List (Nat × Nat)) (s : State) : Host.Outcome State Fault Refusal :=
  .next <|
    if s.codeP && s.frm.asm.isNone then
      let count := openCount s.frm
      let txTime := openTxTime s
      let s := s.onFrm fun f => { f with nextCount := count + 1, stopped := false }
      let s := if count.toNat % 8 = 0 then switchStage txTime (superframeOpens s) else s
      let m := readTxMap s
      let sel := s.frm.txMap
      let words := m.1.getD (storedMap s sel)
      let rows := mapRows words
      let s := frameSwitches txTime (count.toNat % 8 == 0) m.2
      let k := cuts rows residues s
      let s := k.2
      let s := s.onTim fun t => { t with sent := ((count, txTime) :: t.sent).take 4096 }
      let frame : OpenFrame :=
        { count := count, sel := sel, next := mapNext s, txTime := txTime, crc := mapCrcOf s sel
          prof := headerProfile s.prof words, rows := rows, epoch := txEpochs s, containers := k.1, poison := m.1.isNone }
      s.onFrm fun f => { f with asm := some frame }
    else s

/-! ### The overhead (R44, R45) -/

/-- A time as the overhead holds it: 48-bit seconds, 32-bit nanoseconds, 16-bit fraction. -/
def timeBytes (t : Nat) : List Byte := natBe 6 (timeSecs t) ++ natBe 4 (timeNs t) ++ natBe 2 (timeFrac t)

/-- One bit per circuit in ascending order. -/
def circuitBytes (v : BitVec 1024) : List Byte := bitsBytes ((List.range 1024).map fun c => v.getLsbD c)

/-- The circuits the rows carry. -/
def carriedSet (rows : List Word) : BitVec 1024 :=
  (rows.filter isTag).foldl (fun v w => v ||| (1#1024 <<< rowCircuit w)) 0

/-- The echo may be marked valid: received within the last 64 local frame periods (R330). -/
def echoValid (s : State) : Bool :=
  match s.frm.echo with
  | some e => decide ((((rootNow s : Int) - e.at' : Int) : Rat) ≤ 64 * framePeriodNs s * 40)
  | none => false

/-- SERVO_LOCKED as the role sends it (R331). -/
def sentLocked (s : State) : Bool :=
  match role s with
  | 1 => s.tim.valid
  | 2 => s.tim.servo == .locked
  | _ => false

def echoBytes (s : State) : List Byte :=
  match s.frm.echo with
  | some e => natBe 8 e.count.toNat ++ timeBytes e.txTime ++ timeBytes e.arrival
  | none => List.replicate 32 0

/-- The 2,048 overhead bytes of a frame, DATA_VALID still 0. -/
def overheadBytes (f : OpenFrame) (s : State) : List Byte :=
  let set := carriedSet f.rows
  let fails := (f.containers.filter fun k => k.clientFail).foldl
    (fun v k => v ||| (1#1024 <<< k.circ)) (0 : BitVec 1024)
  let flags := b2n f.sel * 64 + b2n f.next * 32 + b2n (s.pwr.mode != .traffic) * 16
  let tt := b2n (echoValid s) * 128 + b2n s.tim.valid * 64 + b2n (sentLocked s) * 32
  natBe 8 f.count.toNat ++ natBe 1 flags ++ [1] ++ natBe 2 s.prof.slots ++ natBe 4 f.crc.toNat ++
    List.replicate 16 0 ++ timeBytes f.txTime ++ echoBytes s ++ natBe 1 tt ++ List.replicate 51 0 ++
    circuitBytes (f.epoch &&& set) ++ circuitBytes (fails &&& set) ++ List.replicate 128 0 ++
    List.replicate 1536 0

/-! ### FRAME_HANDOFF (R50, R330) -/

/-- The frame goes out as a whey frame whatever the output state (R50, R131). -/
def mustWhey (f : OpenFrame) (s : State) : Bool :=
  f.poison || f.dropped || s.cry.zeroising || s.pwr.mode == .zeroised

/-- FRAME_HANDOFF: the assembler passes its frame to T5, one frame period after opening it. -/
def execFrameHandoff (s : State) : Host.Outcome State Fault Refusal :=
  .next <|
    match s.frm.asm with
    | some f =>
      if s.codeP && s.frm.ready.isNone then
        s.onFrm fun m => { m with
          asm := none
          ready := some { frame := f, overhead := overheadBytes f s, whey := mustWhey f s } }
      else s
    | none => s

end Sys2Proof.Machine
end

