-- ==== Sys2Proof/Machine/Counters.lean ====
section
/-!
DEFINITION. Snapshots (R469, R470), programmable counters and their samples (R471 to R478), the
bandwidth engine (R479, R480) and the counter commands (R482).
-/

namespace Sys2Proof.Machine

/-! ### Snapshots (R469) -/

/-- The BAR0 span of a block bit's counters; CRY has no effect. -/
def blockSpan : Nat → Nat × Nat
  | 14 => (0, 0)
  | 15 => (0x100000, 0x110000)
  | 16 => (0x200000, 0x210000)
  | b => if b < 14 then (b * 0x10000, (b + 1) * 0x10000) else (0, 0)

/-- The block bit whose span holds a register. -/
def blockOf (addr : Nat) : Option Nat :=
  (List.range 17).find? fun b => decide ((blockSpan b).1 ≤ addr) && decide (addr < (blockSpan b).2)

/-- The blocks a pending snapshot will take. -/
def snapMask (p : Pmu) : BitVec 17 := p.snapJobs.foldl (fun m q => m ||| q.2) p.snapPending

/-- Copy one block's counters into its shadow, replacing the old one. -/
def snapBlock (cnt : Tab Quad) (sh : Tab Quad) (b : Nat) : Tab Quad :=
  let (lo, hi) := blockSpan b
  (cnt.filter fun e => decide (lo ≤ e.1) && decide (e.1 < hi)).foldl
    (fun sh e => tabSet 0 sh e.1 e.2) (tabClear sh lo hi)

/-- The blocks with a counter that passed its limit in the present TIMESTAMP period, among the counters
that `f` picks. -/
def passedBlocks (e : Evt) (f : Nat → Bool) : BitVec 17 :=
  if e.passedAt = e.period then
    (e.passed.filter f).foldl (fun m a => match blockOf a with
      | some b => m ||| (1#17 <<< b)
      | none => m) 0
  else 0

/-- The count is a programmable counter's, whose clock the TIMESTAMP counts. -/
def isPmc (a : Nat) : Bool := decide (0x40100 ≤ a) && decide (a < 0x41100)

/-- The blocks of which a counter passed its limit in its capture cycle: a programmable counter's is the
instant's own period, and of any other that passed its limit in that period `wrapped` says whether its
clock's capture cycle was the one (R469, R470). -/
def overtaken (wrapped : BitVec 17) (e : Evt) : BitVec 17 :=
  passedBlocks e isPmc ||| (wrapped &&& passedBlocks e fun _ => true)

/-- SNAPSHOT_INSTANT. -/
def execSnapshotInstant (wrapped : BitVec 17) (s : State) : Host.Outcome State Fault Refusal :=
  .next <|
    let m := snapMask s.pmu
    if s.codeS && m != 0 then
      let took := overtaken wrapped s.evt
      let jobs := s.pmu.snapJobs
      let cnt := s.evt.cnt
      let now := s.evt.period
      let s := s.onPmu fun p => { p with
        shadow := (List.range 17).foldl (fun sh b => if m.getLsbD b then snapBlock cnt sh b else sh)
          p.shadow
        snapOvf := p.snapOvf ||| (took &&& m)
        snapPending := 0, snapJobs := [], snapTs := now }
      let s := jobs.foldl (fun s q => commitDone q.1 (quadWords now) s) s
      raise 85 m.toNat s
    else s

/-- PMU_SNAP_WRITE. -/
def writeSnap (w : Word) (s : State) : State :=
  if portsOpen s then
    s.onPmu fun p => { p with snapPending := p.snapPending ||| w.extractLsb' 0 17 }
  else s

def execPmuSnapWrite (w : Word) (s : State) : Host.Outcome State Fault Refusal := .next (writeSnap w s)

/-- PMU_VIEW_WRITE. -/
def writeView (w : Word) (s : State) : State :=
  if portsOpen s then s.onPmu fun p => { p with view := w.extractLsb' 0 17 } else s

def execPmuViewWrite (w : Word) (s : State) : Host.Outcome State Fault Refusal := .next (writeView w s)

/-- PMU_SAMPLE_READ_WRITE: an index within the unread range (R483). -/
def writeSampleRead (w : Word) (s : State) : State :=
  let i : BitVec 8 := w.extractLsb' 0 8
  if portsOpen s && decide ((i - s.pmu.sampleRead).toNat ≤ unreadSamples s.pmu) then
    settleSamples (s.onPmu fun p => { p with sampleRead := i })
  else s

def execPmuSampleReadWrite (w : Word) (s : State) : Host.Outcome State Fault Refusal :=
  .next (writeSampleRead w s)

/-! ### Filters (R472 to R474) -/

/-- The event codes of R472. -/
def eventCodes : List Nat :=
  [0x001, 0x002, 0x003, 0x101, 0x102, 0x103, 0x104, 0x105, 0x201, 0x202, 0x301, 0x302, 0x303,
   0x401, 0x402, 0x501, 0x502, 0x503, 0x504, 0x601, 0x602, 0x603, 0x701, 0x702, 0x703]

/-- EVENT selects by CLASS_MASK. -/
def byClass (ev : BitVec 12) : Bool := ev.toNat % 256 == 255

/-- An EVENT that OP_CTR_CONFIG accepts. -/
def eventOk (ev : BitVec 12) : Bool := byClass ev || eventCodes.contains ev.toNat

def inRange (en : Bool) (base limit addr : Word) : Bool :=
  en && decide (base ≤ addr) && decide (addr ≤ limit)

/-- The event passes the counter's four filters (R473). -/
def passes (c : PmcConfig) (e : PmcEvent) : Bool :=
  c.enable &&
    (if byClass c.event then c.classMask.getLsbD (e.code.toNat / 256) else e.code == c.event) &&
    c.privMask.getLsbD e.priv.toNat && c.masterMask.getLsbD e.master.toNat &&
    ((!c.range0En && !c.range1En) || inRange c.range0En c.base0 c.limit0 e.addr ||
      inRange c.range1En c.base1 c.limit1 e.addr)

/-! ### A tick of the programmable counters (R471, R475 to R478) -/

def pmcAt (s : State) (k : Nat) : Pmc := tabGet {} s.pmu.pmc k
def onPmc (k : Nat) (f : Pmc → Pmc) (s : State) : State :=
  s.onPmu fun p => { p with pmc := tabMod {} p.pmc k f }

/-- The offset of PMC_VALUE_LO of counter k. -/
def cntPmc (k : Nat) : Nat := 0x40100 + 0x40 * k

def setCounter (off : Nat) (v : Quad) (s : State) : State := s.onEvt (setCnt off v)

/-- An event of a command of Zilvy's own on a core: privilege FIRMWARE, and no tag (R472). -/
def zilvyEvent (code core opcode : Nat) : PmcEvent where
  code := BitVec.ofNat 12 code
  master := BitVec.ofNat 4 (2 + core)
  priv := 2
  addr := word opcode
  id := 0

/-- The commit of OP_CTR_CONFIG (R478). -/
def commitPmc (k : Nat) (s : State) : State :=
  match (pmcAt s k).pending with
  | some (who, load, cfg) =>
    let s := onPmc k (fun p => { cfg := cfg, gen := p.gen + 1, pending := none }) s
    let s := if load then setCounter (cntPmc k) (cfg.preset.setWidth 64) s else s
    match who with
    | .packet j => commitDone j [] s
    | .zilvy c => noteEvents [zilvyEvent 0x002 c 0x0A01] s
  | none => s

/-- The words of a sample (R477). -/
def sampleWords (k : Nat) (p : Pmc) (e : PmcEvent) (now : Quad) : List Word :=
  [word (k + p.gen.toNat * 2 ^ 8 + p.cfg.event.toNat * 2 ^ 16),
   word (e.master.toNat + e.priv.toNat * 2 ^ 4), e.addr, e.id] ++ quadWords now ++ [0, 0]

/-- Take a sample, or count it lost when the ring is full; counters 56 to 63 sample to Zilvy. -/
def takeSample (k : Nat) (e : PmcEvent) (s : State) : State :=
  if 56 ≤ k then
    let ws := sampleWords k (pmcAt s k) e s.evt.period
    s.onPmu fun p => { p with own := p.own ++ [ws] }
  else if unreadSamples s.pmu = 255 then raiseLimited 84 84 0 (errAdd 0x40038 1 s)
  else
    let ws := sampleWords k (pmcAt s k) e s.evt.period
    settleSamples (s.onPmu fun p => { p with
      samples := tabSet [] p.samples p.sampleWrite.toNat ws, sampleWrite := p.sampleWrite + 1 })

/-- An overflow of counter k (R475). -/
def overflow (k : Nat) (e : PmcEvent) (s : State) : State :=
  let p := pmcAt s k
  let s := s.onPmu fun q => { q with overflow := q.overflow ||| (1#64 <<< k) }
  let s := if p.cfg.sample then takeSample k e s else s
  if p.cfg.int then raise 82 (k + p.gen.toNat * 2 ^ 8) s else s

/-- Event number `i`, from 0, of a row of events that may come several times each. -/
def eventAt : Nat → List PmcEvent → Option PmcEvent
  | _, [] => none
  | i, e :: l => if i < e.times then some e else eventAt (i - e.times) l

/-- Counter k adds its selected events of the tick (R471, R475). -/
def countPmc (events : List PmcEvent) (k : Nat) (s : State) : State :=
  let p := pmcAt s k
  let sel := events.filter (passes p.cfg)
  let n := (sel.map fun e => e.times).sum
  let v := (counter s (cntPmc k)).toNat + n
  if v < 2 ^ 48 then
    if n = 0 then s else setCounter (cntPmc k) (BitVec.ofNat 64 v) s
  else
    let excess := v - (2 ^ 48 - 1)
    let v' := (if p.cfg.reload then p.cfg.preset.toNat + excess - 1 else excess - 1) % 2 ^ 48
    let cause := (eventAt (n - excess) sel).getD
      { code := 0, master := 0, priv := 0, addr := 0, id := 0 }
    overflow k cause (setCounter (cntPmc k) (BitVec.ofNat 64 v') (s.onEvt fun e => e.pass (cntPmc k)))

/-- Management cycles in the TIMESTAMP period n: 19 in every six (R27, R430). -/
def managementCycles (n : Nat) : Nat := 19 * (n + 1) / 6 - 19 * n / 6

/-- The masters that stall at a merge buffer in this tick, cycle by cycle: event 0x303 (R452, R472). What
command they serve no rule says, so none (DESIGN CHOICE, log 160). -/
def stallEvents (s : State) : List PmcEvent :=
  (List.range 5).flatMap fun i =>
    let waiting := (mergeList (2 + i) s).drop 8
    ((List.range 10).filterMap fun m => waiting.find? fun e => e.master == m).map fun e =>
      { code := 0x303, master := BitVec.ofNat 4 e.master, priv := 3, addr := word (memKey (2 + i) e.addr)
        id := 0, times := managementCycles s.evt.period.toNat }

/-- PMC_TICK: a tick ends. Every counter counts the events that the model's parts noted and, in
`events`, those of parts that the model does not hold, under its configuration of the tick; then
waiting configurations commit. Both go in ascending counter order. -/
def execPmcTick (events : List PmcEvent) (s : State) : Host.Outcome State Fault Refusal :=
  .next <|
    if s.codeS then
      let l := s.noted ++ stallEvents s ++ events
      let s := (List.range 64).foldl (fun s k => countPmc l k s) { s with noted := [] }
      (List.range 64).foldl (fun s k => commitPmc k s) s
    else s

/-! ### The bandwidth engine (R479, R480) -/

def bwBase (p : Nat) : Nat := 0x44000 + 0x20 * p

/-- Latch one port's window. -/
def latchPort (p bytes window : Nat) (s : State) : State :=
  let s := setCounter (bwBase p) (BitVec.ofNat 64 bytes) s
  let s := setCounter (bwBase p + 8) (BitVec.ofNat 64 (8 * bytes / window % 2 ^ 32)) s
  statAdd (bwBase p + 0x10) bytes s

/-- The MSI-X messages sent so far. -/
def messagesSent (e : Evt) : Nat := (e.sent.filter fun m => match m with
  | .msix _ => true
  | _ => false).length

/-- A port's bytes in the window that ends: what the model's own parts carried, and beside it what parts
that the model does not hold carried, which the command brings. The line payload and the steal ring are
the model's alone. -/
def portBytes (s : State) (bytes : List Nat) (p : Nat) : Nat :=
  tabGet 0 s.carried p + (if p = 35 then 4 * (messagesSent s.evt - s.pmu.bwMessages) else 0) +
    if [32, 33, 36].contains p then 0 else bytes.getD p 0

/-- The window in progress has run WINDOW us. -/
def bwDue (s : State) : Bool :=
  decide (s.pmu.window.toNat * 250 ≤ (s.evt.period - s.pmu.bwStart).toNat)

/-- BW_WINDOW: the window in progress ends. -/
def execBwWindow (bytes : List Nat) (s : State) : Host.Outcome State Fault Refusal :=
  .next <|
    if s.codeS && bwDue s then
      let w := s.pmu.window.toNat
      let s := (List.range 49).foldl (fun s p => latchPort p (portBytes s bytes p) w s) s
      let int := s.pmu.bwInt
      let pend := s.pmu.bwPending
      let sent := messagesSent s.evt
      let s := { s with carried := [] }
      let s := s.onPmu fun p => { p with
        bwMessages := sent
        bwSeq := p.bwSeq + 1, bwPending := [], bwStart := p.bwStart + BitVec.ofNat 64 (w * 250) }
      let s := if int then raise 86 0 s else s
      pend.foldl (fun s q =>
        commitDone q.1 [] (s.onPmu fun p => { p with window := q.2.1, bwInt := q.2.2 })) s
    else s

/-! ### Commands (R482) -/

/-- Bits outside a mask are zero. -/
def onlyBits (w mask : Word) : Bool := w &&& ~~~mask == 0

/-- The configuration that OP_CTR_CONFIG's words give at a privilege (R474, R482). -/
def pmcConfigOf (priv : BitVec 2) (w : Nat → Word) : PmcConfig where
  event := (w 1).extractLsb' 0 12
  reload := bit (w 1) 17
  sample := bit (w 1) 18
  int := bit (w 1) 19
  enable := bit (w 1) 20
  configPriv := priv
  masterMask := (w 2).extractLsb' 0 10
  privMask := if priv = 0 then (w 2).extractLsb' 10 4 &&& 0b1101 else (w 2).extractLsb' 10 4
  classMask := (w 2).extractLsb' 16 8
  range0En := bit (w 2) 24
  range1En := bit (w 2) 25
  base0 := w 3
  limit0 := w 4
  base1 := w 5
  limit1 := w 6
  preset := BitVec.ofNat 48 ((w 7).toNat + fld (w 8) 15 0 * 2 ^ 32)

/-- The range checks of OP_CTR_CONFIG's words, in their order (R482). -/
def ctrConfigChecks (w : Nat → Word) : List (Bool × Refused) := [
  (!onlyBits (w 0) 0x13F, badParam 0),
  (!onlyBits (w 1) 0x1E0FFF || !eventOk ((w 1).extractLsb' 0 12), badParam 1),
  (!onlyBits (w 2) 0x03FF3FFF, badParam 2),
  (!onlyBits (w 8) 0xFFFF, badParam 8)]

/-- The counter that OP_CTR_CONFIG names. -/
def ctrNumber (w : Nat → Word) : Nat := fld (w 0) 5 0

/-- The configuration waits for the next tick (R478). -/
def ctrAccept (who : CtrIssuer) (priv : BitVec 2) (w : Nat → Word) (s : State) : State :=
  onPmc (ctrNumber w) (fun p => { p with pending := some (who, bit (w 0) 8, pmcConfigOf priv w) }) s

def ctrConfigBody (j : Job) (s : State) : Verdict :=
  let w := j.param
  match firstRefusal (ctrConfigChecks w ++ [
    (decide (56 ≤ ctrNumber w), refDenied),
    ((pmcAt s (ctrNumber w)).pending.isSome, refBusy)]) with
  | some r => .refuse r
  | none => .accept (ctrAccept (.packet j.id) j.priv w s)

/-- Zilvy's own OP_CTR_CONFIG, of one of its counters, on a core in service: refused ones change nothing
but the counts of R472 (R471, R474; that it configures no counter of the host's is DEDUCED, log 161). -/
def zilvyConfig (core : Nat) (ws : List Word) (s : State) : State :=
  let w := fun i => ws.getD i 0
  if !(s.codeS && decide (core < 4) && coreInService s core) then s
  else if ws.length = 9 ∧ firstRefusal (ctrConfigChecks w ++ [
      (decide (ctrNumber w < 56), refDenied),
      ((pmcAt s (ctrNumber w)).pending.isSome, refBusy)]) = none then
    ctrAccept (.zilvy core) 2 w (noteEvents [zilvyEvent 0x001 core 0x0A01] s)
  else noteEvents [zilvyEvent 0x002 core 0x0A01, zilvyEvent 0x003 core 0x0A01] s

def execOpCtrConfig (c : CtrConfig) (s : State) : Host.Outcome State Fault Refusal :=
  .next <| match c with
    | .packet j => runOp 0x0A01 9 ctrConfigBody j s
    | .zilvy core ws => zilvyConfig core ws s

def ctrSnapshotBody (j : Job) (s : State) : Verdict :=
  let w := j.param 0
  if w = 0 || !onlyBits w 0x1FFFF then .refuse (badParam 0)
  else .accept (s.onPmu fun p => { p with snapJobs := p.snapJobs ++ [(j.id, w.extractLsb' 0 17)] })

def execOpCtrSnapshot (j : Nat) (s : State) : Host.Outcome State Fault Refusal :=
  .next (runOp 0x0A02 1 ctrSnapshotBody j s)

def bwConfigBody (j : Job) (s : State) : Verdict :=
  let w := j.param
  match firstRefusal [
    (!onlyBits (w 0) 0xFFFFF || outside 1 1000000 (fld (w 0) 19 0), badParam 0),
    (!onlyBits (w 1) 1, badParam 1)] with
  | some r => .refuse r
  | none =>
    .accept (s.onPmu fun p => { p with
      bwPending := p.bwPending ++ [(j.id, (w 0).extractLsb' 0 20, bit (w 1) 0)] })

def execOpBwConfig (j : Nat) (s : State) : Host.Outcome State Fault Refusal :=
  .next (runOp 0x0A03 2 bwConfigBody j s)

end Sys2Proof.Machine
end

