-- ==== Sys2Proof/Machine/Cores.lean ====
section
/-!
DEFINITION. The management cores: faults and what they end (R402, R403), the copy from a peer
(R403 step 5), cores out of service (R404), OP_CORE_RETURN and the load of an image (R500).
-/

namespace Sys2Proof.Machine

def coreAt (s : State) (c : Nat) : CoreSt := tabGet {} s.cmd.core c
def onCore (c : Nat) (f : CoreSt → CoreSt) (s : State) : State :=
  s.onCmd fun m => { m with core := tabMod {} m.core c f }

/-! ### Faults -/

/-- A command that step 3 ends: bound to the core, not committed, its completion not written. -/
def endedByFault (c : Nat) (j : Job) : Bool := j.core == some c && !j.released && !j.committed

/-- Step 3 for one command. -/
def abortByFault (c : Nat) (j : Job) (s : State) : State :=
  faultJob c j.id (modJob j.id (fun x => { x with stage := .running }) (withdraw j.id s))

/-- Step 4: the binding to the core is released. -/
def Job.unbind (c : Nat) (j : Job) : Job := if j.core == some c then { j with released := true } else j

/-- Steps 3 and 4: commands end, and the core's chains are released. -/
def releaseCore (c : Nat) (s : State) : State :=
  let s := (s.cmd.jobs.filter (endedByFault c)).foldl (fun s j => abortByFault c j s) s
  s.onCmd fun m => { m with jobs := m.jobs.map (Job.unbind c) }

/-- A core faults, with a cause of R402. A core out of service does not fault. -/
def coreFault (c cause : Nat) (s : State) : State :=
  if coreInService s c then
    let now := s.evt.period
    let again := match (coreAt s c).lastFault with
      | some p => decide ((now - p).toNat < secondPeriods)
      | none => false
    let s := onCore c (fun x => { x with
      state := .restarting, lastCause := BitVec.ofNat 2 cause, lastFault := some now
      again := again }) s
    releaseCore c (raise 32 (c + cause * 16) (errAdd 0x10038 1 s))
  else s

/-- CORE_TRAP: an illegal instruction or access. -/
def execCoreTrap (c : Nat) (s : State) : Host.Outcome State Fault Refusal := .next (coreFault c 3 s)

/-- CORE_WATCHDOG: no heartbeat for 10 ms. -/
def execCoreWatchdog (c : Nat) (s : State) : Host.Outcome State Fault Refusal :=
  .next (coreFault c 2 s)

/-! ### Firmware memories (R497, R500, R403 step 5) -/

/-- The body's words, byte 0 first. -/
def bodyWords : List Byte → List (BitVec 128)
  | a :: b :: c :: d :: e :: f :: g :: h :: l =>
    BitVec.ofNat 128 (leNat [a, b, c, d, e, f, g, h]) :: bodyWords l
  | _ => []

/-- Write core c's memory in full: the body from address 0, then its data space as initialised. Nothing
that waits in its merge buffer reaches the words written anew. -/
def loadCore (c : Nat) (body : List (BitVec 128)) (s : State) : State :=
  onMerge (2 + c) (fun _ => []) (fillGroup (2 + c) (fun a => if a < body.length then body.getD a 0
    else (Config.coreData c a).setWidth 128) s)

/-- Read `n` words of a peer's body, stopping at one that is uncorrectable or poisoned. -/
def copyBody (g det : Nat) : Nat → Nat → State → Option (List (BitVec 128)) × State
  | _, 0, s => (some [], s)
  | a, n + 1, s =>
    let r := readPort g a det s
    match r.1 with
    | none => (none, r.2)
    | some w =>
      let rest := copyBody g det (a + 1) n r.2
      (rest.1.map (w :: ·), rest.2)

/-! ### Return to service -/

/-- Deliveries that waited for a core in service go out (R416). -/
def deliverWaiting (s : State) : State :=
  (List.range 25).foldl (fun s n =>
    let g := grpAt s.evt n
    if g.waiting && decide (2 ≤ g.route.toNat) && coreInService s (g.route.toNat - 2) then
      deliverNow n s else s) s

/-- The core stays halted (R404). -/
def coreOffline (c : Nat) (s : State) : State :=
  let job := (coreAt s c).returnJob
  let s := raise 34 c (onCore c (fun x => { x with
    state := .offline, again := false, returnJob := none }) s)
  match job with
  | some j => finish j stPoison (stepDetail 8 0) [] s
  | none => s

/-- The core is in service again. -/
def coreBack (c : Nat) (body : List (BitVec 128)) (s : State) : State :=
  let job := (coreAt s c).returnJob
  let s := onCore c (fun x => { x with
    state := .inService, again := false, returnJob := none }) (loadCore c body s)
  let s := match job with
    | some j => commitDone j [] s
    | none => s
  deliverWaiting (raise 33 c s)

/-- The peer whose body the copy takes: in service, in ascending core order (R403). -/
def peerOf (c : Nat) (s : State) : Option Nat :=
  (List.range 4).find? fun p => p != c && coreInService s p

/-- Words of the loaded body. -/
def bodyCount (s : State) : Nat := ((s.pwr.image.map fun i => i.bodyLength).getD 0) / 8

/-- CORE_RESTARTED: the copy from the next peer ends. A peer that reads poisoned faults, and the
copy starts again from another. -/
def execCoreRestarted (c : Nat) (s : State) : Host.Outcome State Fault Refusal :=
  .next <|
    if s.codeS && decide (c < 4) && decide ((coreAt s c).state = .restarting) then
      if (coreAt s c).again then coreOffline c s
      else
        match peerOf c s with
        | none => coreOffline c s
        | some p =>
          let r := copyBody (2 + p) (2 + c) 0 (bodyCount s) s
          match r.1 with
          | none => coreFault p 1 r.2
          | some body => coreBack c body r.2
    else s

def coreReturnBody (j : Job) (s : State) : Verdict :=
  let c := fld (j.param 0) 1 0
  if (coreAt s c).state != .offline then .refuse refNotFound
  else .accept (onCore c (fun x => { x with
    state := .restarting, again := false, returnJob := some j.id }) s)

def execOpCoreReturn (j : Nat) (s : State) : Host.Outcome State Fault Refusal :=
  .next (runOp 0x0910 1 coreReturnBody j s)

end Sys2Proof.Machine
end

