-- ==== Sys2Proof/Machine/Equaliser.lean ====
section
/-!
DEFINITION. Receive stages V1 and V2: clipped, recovering and flagged samples and tainted words
(R191, R192), the front end's corrections (R187, R189), the dispersion equaliser (R195, R196) and
the grid on which dispersion is searched (R197, R554).
-/

namespace Sys2Proof.Machine

/-! ### Times and lanes -/

/-- The code or the count of lane l, XI to YQ. -/
def codeOn (c : FourCodes) : Nat → Int
  | 0 => c.xi | 1 => c.xq | 2 => c.yi | _ => c.yq
def countOn (c : FourCounts) : Nat → Nat
  | 0 => c.xi | 1 => c.xq | 2 => c.yi | _ => c.yq

/-- The sample count of the next ADC sample. -/
def RxPath.next (x : RxPath) : Nat := x.base + x.adc.length

/-- Samples of a frame on a lane (R188). -/
def frameSamples : Nat := 1179648

/-- Samples that the datapath keeps: four frames. -/
def adcKept : Nat := 4 * frameSamples

/-- A time in 0.1 ps as samples at 9/8 of a symbol rate in 0.25 GBd. -/
def tenthPsSamples (rate : Nat) (t : Int) : Rat := (t : Rat) * (9 * rate : Nat) / 320000

/-! ### Over-range (R191, R192) -/

/-- An ADC code is clipped. -/
def adcClipped (c : Int) : Bool := c == -128 || c == 127

/-- The recovering periods left after a sample. -/
def recoverAfter (c : Int) (left : Nat) : Nat := if adcClipped c then 64 else left - 1

/-- The sample is flagged: clipped, or in the recovering interval. -/
def flaggedSample (c : Int) (left : Nat) : Bool := adcClipped c || decide (0 < left)

/-- The datapath takes the ADC sample of count `m`. -/
def takeCode (x : RxPath) (e : FourCodes × Nat) : RxPath :=
  let c := e.1
  let m := e.2
  let flag := (List.range 4).any fun l => flaggedSample (codeOn c l) (countOn x.recover l)
  { x with
    recover := {
      xi := recoverAfter c.xi x.recover.xi, xq := recoverAfter c.xq x.recover.xq
      yi := recoverAfter c.yi x.recover.yi, yq := recoverAfter c.yq x.recover.yq }
    flagged := if flag && !x.flagged.contains (m / 256) then x.flagged ++ [m / 256] else x.flagged
    clips := x.clips ++ (((List.range 4).filter fun l => adcClipped (codeOn c l)).map fun l => (l, m))
    energyX := x.energyX + (c.xi * c.xi + c.xq * c.xq).toNat
    energyY := x.energyY + (c.yi * c.yi + c.yq * c.yq).toNat
    samples := x.samples + 1 }

/-- The datapath takes ADC codes, and lets go of those that it no longer needs. -/
def takeCodes (codes : List FourCodes) (x : RxPath) : RxPath :=
  let y := (codes.zip ((List.range codes.length).map fun i => x.next + i)).foldl takeCode x
  let all := x.adc ++ codes
  let spare := all.length - adcKept
  { y with
    adc := all.drop spare, base := x.base + spare
    flagged := y.flagged.filter fun w => decide ((x.base + spare) / 256 ≤ w + 256) }

/-! ### Received power (R216, R219, R222) -/

/-- Samples of 1 us, at a symbol rate in 0.25 GBd. -/
def usSamples (rate : Nat) : Nat := rate * 1125 / 4

/-- P_1: the mean-square code of all four lanes over the last 1 us. -/
def lastPower (rate : Nat) (m : PowerMeter) : Rat :=
  ((m.squares.take (usSamples rate)).sum : Nat) / ((4 * usSamples rate : Nat) : Rat)

/-- P_ref: the same over the 100 us before. -/
def refPower (rate : Nat) (m : PowerMeter) : Rat :=
  (((m.squares.drop (usSamples rate)).take (100 * usSamples rate)).sum : Nat) /
    ((400 * usSamples rate : Nat) : Rat)

/-- P_1 reaches LOS_RMS, in 0.25 LSB. -/
def powerReaches (rate los : Nat) (m : PowerMeter) : Bool :=
  decide (usSamples rate ≤ m.squares.length) && decide ((los * los : Nat) ≤ 16 * lastPower rate m)

/-- The side on which P_1 is out of ±6 dB of a reference. -/
def outOfRange (p ref : Rat) : Option Bool :=
  if ref * dbFactor 12 < p then some true else if p * dbFactor 12 < ref then some false else none

/-- The meter after a sample's squared codes. A step is confirmed once in an excursion (DEDUCED, log 121). -/
def meterSample (rate los : Nat) (m : PowerMeter) (c : FourCodes) : PowerMeter :=
  let n := usSamples rate
  let q := (c.xi * c.xi + c.xq * c.xq + c.yi * c.yi + c.yq * c.yq).toNat
  let m := { m with squares := (q :: m.squares).take (101 * n) }
  let ref := m.held.getD (refPower rate m)
  let out := if m.squares.length < 101 * n then none else outOfRange (lastPower rate m) ref
  let run := match out with
    | some d => if 0 < m.run && m.up == d then m.run + 1 else 1
    | none => 0
  { m with
    strong := if powerReaches rate los m then m.strong + 1 else 0
    run := run, up := out.getD m.up
    held := if 0 < run ∧ run < n then some ref else none
    step := m.step || run == n }

/-- The RMS code of an axis in 0.01 LSB. -/
def axisRms (energy samples : Nat) : Int :=
  if samples = 0 then 0 else nearest (100 * ratSqrt ((energy : Nat) / ((2 * samples : Nat) : Rat)))

/-! ### Dispersion (R195 to R198) -/

/-- N for a code. -/
def transformLength (code : Nat) : Nat := 4096 * 2 ^ code

/-- (270 GBd / Rs)². -/
def rateScale (rate : Nat) : Rat := (1080 * 1080 : Nat) / ((rate * rate : Nat) : Rat)

/-- H in samples, before rounding up: D in ps/nm, the wavelength in 0.01 nm, Fs 9/8 of Rs. -/
def cdSpan (rate lambda : Nat) (d : Rat) : Rat :=
  absRat d * (lambda * lambda : Nat) * (rate * rate * 81 : Nat) / (10240000000 * 299792458 : Nat)

/-- R196 accepts the value. -/
def cdOk (rate lambda nCode : Nat) (d : Rat) : Bool :=
  decide (cdSpan rate lambda d ≤ (5 * transformLength nCode / 8 : Nat)) &&
    decide (absRat d ≤ 50000 * rateScale rate) && decide (absRat d ≤ 200000)

/-- The largest |D| that R196 allows. -/
def widestCd (rate lambda nCode : Nat) : Rat :=
  min (min (50000 * rateScale rate) 200000)
    ((5 * transformLength nCode / 8 : Nat) / cdSpan rate lambda 1)

/-- The search range (R197). -/
def searchRange (c : RxCfg) (rate : Nat) : Rat × Rat :=
  match c.cdRange with
  | some r => ((r.1 : Rat), (r.2 : Rat))
  | none => (-(widestCd rate c.lambda c.nCode), widestCd rate c.lambda c.nCode)

/-- The coarse candidate of a number, which stands in the search range (R216, R554). -/
def coarseCd (c : RxCfg) (rate i : Nat) : Option Rat :=
  let r := searchRange c rate
  let d := r.1 + (200 * i : Nat) * rateScale rate
  if d ≤ r.2 then some d else none

/-- How many coarse candidates the search range holds. -/
def coarseCount (c : RxCfg) (rate : Nat) : Nat :=
  let r := searchRange c rate
  if r.2 < r.1 then 0 else ((r.2 - r.1) / (200 * rateScale rate)).floor.toNat + 1

/-- The time of a whole scan in us (R216). -/
def scanTime (c : RxCfg) (rate : Nat) : Nat := 20 * (coarseCount c rate + 25)

/-- The fine candidate k, 0 to 24, around a coarse one; one that R196 does not allow is none. -/
def fineCd (c : RxCfg) (rate i k : Nat) : Option Rat :=
  match coarseCd c rate i with
  | some d =>
    let f := d + ((k : Int) - 12 : Int) * (200 / 12) * rateScale rate
    if k < 25 ∧ cdOk rate c.lambda c.nCode f then some f else none
  | none => none

/-- The words on either side of an input word that its taint reaches (R192). -/
def taintReach (rate lambda : Nat) (d : Rat) : Nat :=
  ((cdSpan rate lambda d).ceil.toNat + 511) / 512 + 1

/-- A word of stage V2's output is tainted. -/
def wordTainted (x : RxPath) (reach : Nat) (w : Int) : Bool :=
  x.flagged.any fun f => decide (((f : Int) - w).natAbs ≤ reach)

/-- The symbol at a sample position comes from a tainted word or from the word after one. -/
def symbolTainted (x : RxPath) (reach : Nat) (pos : Rat) : Bool :=
  let w := (pos / 256).floor
  wordTainted x reach w || wordTainted x reach (w - 1)

/-! ### Stage V1: the front end (R187, R189) -/

def RxCfg.lane (c : RxCfg) : Nat → RxLane
  | 0 => c.xi | 1 => c.xq | 2 => c.yi | _ => c.yq
def FrontEnd.skew (f : FrontEnd) : Nat → Int
  | 0 => f.skewXi | 1 => f.skewXq | 2 => f.skewYi | _ => f.skewYq

/-- Lane l's value at sample count m, its sign turned by INVERT; 0 where no sample is kept. -/
def laneValue (r : Rx) (l : Nat) (m : Int) : Cx :=
  let c := if m < r.path.base then {} else r.path.adc.getD (m - r.path.base).toNat {}
  { re := if (r.cfg.lane l).invert then -(codeOn c l : Int) else (codeOn c l : Int) }

/-- The lane after its skew correction, which delays it. -/
def laneSkewed (r : Rx) (rate l : Nat) (m : Int) : Rat :=
  (between (laneValue r l) ((m : Rat) - tenthPsSamples rate (r.fe.skew l))).re

/-- An axis at sample count m: its Q lane with IQ gain, and turned toward the I axis by IQ phase. -/
def axisValue (r : Rx) (rate : Nat) (y : Bool) (m : Int) : Cx :=
  let i := laneSkewed r rate (if y then 2 else 0) m
  let q := laneSkewed r rate (if y then 3 else 1) m
  let turns : Rat := ((if y then r.fe.phaseY else r.fe.phaseX) : Rat) / 36000
  let gain := dbFactor (((if y then r.fe.gainY else r.fe.gainX) : Rat) / 100)
  { re := i, im := gain * (q * cosTurn turns + i * sinTurn turns) }

/-! ### Stage V2: the overlap-save filter (R195, R196) -/

/-- The phase in turns of frequency bin k: that which removes D, without group delay at the carrier
frequency f_c, in kHz (R197). -/
def cdTurns (rate lambda n : Nat) (d : Rat) (cfo : Int) (k : Nat) : Rat :=
  let bin : Int := if 2 * k < n then k else (k : Int) - n
  let hz : Rat := (bin : Rat) * (rate * 281250000 : Nat) / (n : Nat) - (cfo * 1000 : Int)
  d * (lambda * lambda : Nat) * hz * hz / -(2 * 299792458 * 10 ^ 25 : Rat)

/-- The filter's response at q samples, by the inverse transform; a poisoned coefficient is zero
(R449). -/
def cdResponse (rate lambda n : Nat) (d : Rat) (cfo : Int) (dead : List Nat) (q : Nat) : Cx :=
  Cx.scale (1 / (n : Rat)) (Cx.sum (((List.range n).filter fun k => !dead.contains k).map fun k =>
    Cx.turn ((k * q : Nat) / (n : Rat) + cdTurns rate lambda n d cfo k)))

/-- Stage V2's output on an axis at sample count m. Each transform takes N samples and delivers
3N/8, from the middle of its block. -/
def dispersed (r : Rx) (rate : Nat) (y : Bool) (m : Int) : Cx :=
  let n := transformLength r.cfg.nCode
  let hop : Int := (3 * n / 8 : Nat)
  let first := m / hop * hop - (5 * n / 16 : Nat)
  let p := (m - first).toNat
  Cx.sum ((List.range n).map fun (i : Nat) =>
    Cx.mul (axisValue r rate y (first + (i : Int)))
      (cdResponse rate r.cfg.lambda n r.cdApplied r.cfo r.cdDead ((p + n - i) % n)))

end Sys2Proof.Machine
end

