-- ==== Sys2Proof/Machine/Demod.lean ====
section
/-!
DEFINITION. Receive stages V3 and V4, symbol by symbol: the separator (R199 to R203), timing and
carrier recovery (R204, R207, R208), the whey detector's measurement (R202), and soft demapping with
TAINT_WEIGHT (R193, R213, R214).
-/

namespace Sys2Proof.Machine

/-! ### Symbol periods -/

/-- The number of a period's known symbol: the sync sequence, then the pilots (R36). -/
def knownIndex (n : Nat) : Nat := if n < 1024 then n else 1024 + (n - 1024) / 64

/-- The known symbols of a sync or pilot period, at unit amplitude (R37). -/
def knownSymbols (n : Nat) : Cx × Cx :=
  let i := knownIndex n
  let b := (prbs15 (4 * (i + 1))).drop (4 * i)
  let at' := fun (k : Nat) =>
    let l := pilotLevel (b.getD k false) (b.getD (k + 1) false)
    ({ re := (l.i : Rat) / ratSqrt 2, im := (l.q : Rat) / ratSqrt 2 } : Cx)
  (at' 0, at' 2)

/-- The data period of a period that carries data. -/
def dataIndex (n : Nat) : Nat := n - 1024 - ((n - 1024) / 64 + 1)

/-- Coded bits of a data period. -/
def periodBits (p : Profile) (k : Nat) : Nat :=
  symbolBits (p.patX.getD (k % 64) 0) + symbolBits (p.patY.getD (k % 64) 0)

/-- The first data period at which `used` bits and those of the periods from k on reach 32,768. -/
def spanFrom (p : Profile) : Nat → Nat → Nat → Nat
  | 0, k, _ => k
  | n + 1, k, used => if 32768 ≤ used + periodBits p k then k else spanFrom p n (k + 1) (used + periodBits p k)

/-- k_span: the last data period that carries a coded bit of block 1 (R202). -/
def kSpan (p : Profile) : Nat := spanFrom p 16384 0 0

/-- The data period is one of those that the whey detector measures. -/
def wheyPeriod (p : Profile) (k : Nat) : Bool := decide (kSpan p < k) && decide (k ≤ kSpan p + 1024)

/-- The data periods before period n of a frame. -/
def dataBefore (n : Nat) : Nat := n - 1024 - (n - 1024 + 63) / 64

/-- Every data period that the whey detector measures stands before period n. -/
def detectorDone (p : Profile) (n : Nat) : Bool := decide (kSpan p + 1025 ≤ dataBefore n)

/-- The line profile with the code rate and patterns of the map header that the receiver uses (R151). -/
def rxProf (s : State) : Profile := s.rx.header.getD s.prof

/-! ### Constellations and soft demapping (R155, R213, R214) -/

/-- The scaled points of a constellation with their labels. -/
def constellation (code : Nat) : List (List Bool × Cx) :=
  (List.range (2 ^ symbolBits code)).map fun v =>
    let l := bitsMsb (symbolBits code) v
    let z := (dataLevel code l).value 0
    (l, { re := z.1, im := z.2 })

/-- The least of some rationals above 0, at most `top`. -/
def leastOf (top : Rat) (l : List Rat) : Rat := l.foldl min top

/-- The point nearest to a symbol. -/
def decidePoint (code : Nat) (z : Cx) : Cx :=
  match constellation code with
  | [] => {}
  | p :: l => (l.foldl (fun a b => if (Cx.sub b.2 z).power < (Cx.sub a.2 z).power then b else a) p).2

/-- A 5-bit LLR: the natural one over LLR_UNIT, rounded and saturated. Without noise it saturates. -/
def quantiseLlr (unit : Nat) (gap noise : Rat) : Int :=
  if noise = 0 then (if gap = 0 then 0 else if 0 < gap then 15 else -15)
  else clampInt (-15) 15 (nearest (gap / noise * 16 / (unit : Nat)))

/-- TAINT_WEIGHT on the magnitude of an LLR: halves toward zero. -/
def weighTainted (weight : Nat) (l : Int) : Int :=
  let m : Int := (((l.natAbs : Nat) : Rat) / (2 ^ weight : Nat) - 1 / 2).ceil
  if weight = 3 then 0 else if l < 0 then -m else m

/-- The max-log LLRs of a symbol's bits, c0 first; a positive one makes 0 the more likely bit. -/
def symbolLlrs (c : RxCfg) (code : Nat) (noise : Rat) (taint : Bool) (z : Cx) : List Int :=
  let ds := (constellation code).map fun p => (p.1, (Cx.sub p.2 z).power)
  let top := (ds.map fun d => d.2).sum
  (List.range (symbolBits code)).map fun b =>
    let near := fun (v : Bool) => leastOf top ((ds.filter fun d => d.1.getD b false == v).map fun d => d.2)
    let l := quantiseLlr c.llrUnit.toNat (near true - near false) noise
    if taint then weighTainted c.taint.toNat l else l

/-! ### The separator (R199 to R202) -/

/-- T, the taps of each element (R199). -/
def tapCount (code : BitVec 2) : Nat := 15 + 16 * code.toNat

/-- Stage V2's outputs on both axes, scaled, at the T tap positions around a sample position. -/
def tapInputs (r : Rx) (rate : Nat) (pos : Rat) : List Cx × List Cx :=
  let t := tapCount r.cfg.tCode
  let axis := fun (y : Bool) => (List.range t).map fun (i : Nat) =>
    Cx.scale r.path.gain (between (dispersed r rate y) (pos + ((i : Int) - (t / 2 : Nat) : Int)))
  (axis false, axis true)

/-- The separator's outputs X and Y. -/
def separate (x : RxPath) (u : List Cx × List Cx) : Cx × Cx :=
  (Cx.add (Cx.dot x.xx u.1) (Cx.dot x.xy u.2), Cx.add (Cx.dot x.yx u.1) (Cx.dot x.yy u.2))

/-- The outputs after carrier recovery. -/
def derotate (x : RxPath) (z : Cx × Cx) : Cx × Cx :=
  (Cx.mul z.1 (Cx.turn (-x.theta)), Cx.mul z.2 (Cx.turn (-x.theta)))

/-- An element's taps after a step against an error. -/
def adaptTaps (mu : Rat) (e : Cx) (u taps : List Cx) : List Cx :=
  List.zipWith (fun w v => Cx.add w (Cx.scale mu (Cx.mul e v.conj))) taps u

/-- All four elements after a step toward the wanted outputs. -/
def adaptSeparator (mu : Rat) (want : Cx × Cx) (u : List Cx × List Cx) (x : RxPath) : RxPath :=
  let z := separate x u
  let ex := Cx.sub (Cx.mul want.1 (Cx.turn x.theta)) z.1
  let ey := Cx.sub (Cx.mul want.2 (Cx.turn x.theta)) z.2
  { x with
    xx := adaptTaps mu ex u.1 x.xx, xy := adaptTaps mu ex u.2 x.xy
    yx := adaptTaps mu ey u.1 x.yx, yy := adaptTaps mu ey u.2 x.yy }

/-- The taps with which the separator starts: the centre taps alone, on the assignment of
polarisations and quarter turns that A3 found (R200). -/
def startTaps (t : Nat) (swapped : Bool) (turnX turnY : Nat) (x : RxPath) : RxPath :=
  let spike := fun (on : Bool) (turn : Nat) => (List.range t).map fun i =>
    if on && i == t / 2 then Cx.turn (-((turn : Nat) : Rat) / 4) else {}
  { x with
    xx := spike (!swapped) turnX, xy := spike swapped turnX
    yx := spike swapped turnY, yy := spike (!swapped) turnY }

/-- An element's taps for another T: the centre tap keeps its position (R199). The outer taps that a larger T
adds start at zero (DESIGN CHOICE, log 168). -/
def retapOne (t : Nat) (l : List Cx) : List Cx :=
  (List.range t).map fun (i : Nat) =>
    let k : Int := (i : Int) - (t / 2 : Nat) + (l.length / 2 : Nat)
    if k < 0 then {} else l.getD k.toNat {}

def retap (t : Nat) (x : RxPath) : RxPath :=
  if x.xx.isEmpty then x else { x with
    xx := retapOne t x.xx, xy := retapOne t x.xy, yx := retapOne t x.yx, yy := retapOne t x.yy }

/-- MU_K in force: smaller in whey mode (R202). -/
def knownStepSize (r : Rx) : Rat :=
  1 / (2 ^ (4 + r.cfg.muK.toNat + if r.wheyMode then r.cfg.wheyShift.toNat else 0) : Nat)

def dataStepSize (r : Rx) : Rat := 1 / (2 ^ (4 + r.cfg.muD.toNat) : Nat)

/-! ### Timing recovery (R204) -/

/-- The loop bandwidth that TR_BW selects, in Hz. -/
def timingBandwidth : Nat → Nat
  | 0 => 100000 | 1 => 300000 | 2 => 1000000 | _ => 3000000

/-- 2 pi times a bandwidth over the symbol rate. -/
def loopAngle (rate hz : Nat) : Rat := 2 * piRat * (hz : Nat) / (rate * 250000000 : Nat)

/-- The steering range: 250 ppm. -/
def adcSteerLimit : Rat := 250 / 1000000

/-- One step of the steering: 0.01 ppb, as the interpolator's frequency in samples per symbol. -/
def steerUnit : Rat := 9 / 8 / 10 ^ 11

/-- The second-order loop, damping 0.707, after a timing error: the interpolator takes the phase, and
the synthesiser's steering takes the frequency at 10 kHz, in whole steps of 0.01 ppb. -/
def timingStep (rate : Nat) (bw : BitVec 2) (e : Rat) (x : RxPath) : RxPath :=
  let w := loopAngle rate (timingBandwidth bw.toNat)
  let freq := x.freq + w * w * e
  let due := x.steerRest + loopAngle rate 10000 * freq
  let steps := roundRat (due / steerUnit)
  let moved := (steps : Rat) * steerUnit
  { x with
    phase := x.phase + 2 * (707 / 1000) * w * e + freq
    freq := freq - moved
    steer := boundRat (-adcSteerLimit) adcSteerLimit (x.steer - (steps : Rat) / 10 ^ 11)
    steerRest := due - moved }

/-- The timing error of a symbol: the output half a sample later against half a sample earlier, along
the symbol that was sent. -/
def timingError (want late early : Cx × Cx) : Rat :=
  (Cx.mul want.1.conj (Cx.sub late.1 early.1)).re + (Cx.mul want.2.conj (Cx.sub late.2 early.2)).re

/-! ### Carrier recovery (R207, R208) -/

/-- The phase error of a symbol in turns, both polarisations together. -/
def phaseError (z want : Cx × Cx) : Rat :=
  (Cx.add (Cx.mul z.1 want.1.conj) (Cx.mul z.2 want.2.conj)).arg

/-- A pilot moves phase and frequency; a quarter turn or more is a slip, and is taken out whole. -/
def pilotCarrier (pilot : Bool) (e : Rat) (x : RxPath) : RxPath :=
  let slip := roundRat (4 * e)
  let rest := e - (slip : Rat) / 4
  { x with
    theta := x.theta + (slip : Rat) / 4 + rest / 2
    omega := x.omega + rest / 2048
    slips := if pilot && slip != 0 then x.slips + 1 else x.slips }

/-- A pilot's phase error against π/8 (R208). -/
def countPilot (pilot : Bool) (e : Rat) (x : RxPath) : RxPath :=
  let n := if 1 / 16 < absRat e then x.badPilots + 1 else 0
  if pilot then { x with badPilots := n, wild := x.wild || decide (8 ≤ n) } else x

/-- Decision-directed phase refinement. -/
def dataCarrier (e : Rat) (x : RxPath) : RxPath := { x with theta := x.theta + e / 64 }

/-- f_c in kHz. -/
def carrierKhz (rate : Nat) (x : RxPath) : Int := nearest (x.omega * (rate * 250000 : Nat))

/-! ### One symbol period -/

/-- What stage V3 makes of a symbol period. -/
structure Sym where
  inputs : List Cx × List Cx
  out : Cx × Cx
  late : Cx × Cx
  early : Cx × Cx
  taint : Bool

/-- The sample position of a period. -/
def symbolPos (x : RxPath) (n : Nat) : Rat := x.start + (9 * n : Nat) / (8 : Rat) + x.phase

def symAt (s : State) (x : RxPath) : Sym :=
  let rate := s.prof.rate
  let r := { s.rx with path := x }
  let pos := symbolPos x x.period
  let outAt := fun (p : Rat) => derotate x (separate x (tapInputs r rate p))
  { inputs := tapInputs r rate pos, out := outAt pos
    late := outAt (pos + 1 / 2), early := outAt (pos - 1 / 2)
    taint := symbolTainted x (taintReach rate s.rx.cfg.lambda s.rx.cdApplied) pos }

/-- The loops may use the symbol: it is not tainted, or tainted symbols were too many (R193). The separator's
decision-directed updates never use a tainted one, which R201 says without that exception (DEDUCED, log
169). -/
def mayAdapt (s : State) (y : Sym) : Bool := !y.taint || s.rx.clipHeavy

/-- All loops update toward the wanted symbols with a step. -/
def adapt (s : State) (mu : Rat) (y : Sym) (want : Cx × Cx) (x : RxPath) : RxPath :=
  timingStep s.prof.rate s.rx.cfg.trBw (timingError want y.late y.early)
    (adaptSeparator mu want y.inputs x)

/-- A sync or pilot period. -/
def knownPeriod (s : State) (y : Sym) (x : RxPath) : RxPath :=
  let k := knownSymbols x.period
  let scale := dbFactor ((x.ratio : Rat) / 100)
  let want := (Cx.scale scale k.1, Cx.scale scale k.2)
  let pilot := decide (1024 ≤ x.period)
  let corrWith := fun (i : Nat) (z w : Cx) => Cx.add (x.corr.getD i {}) (Cx.mul z w.conj)
  let x := if pilot then x else { x with
    corr := [corrWith 0 y.out.1 k.1, corrWith 1 y.out.1 k.2, corrWith 2 y.out.2 k.1,
      corrWith 3 y.out.2 k.2] }
  let x := if pilot && !y.taint then { x with
      noiseX := x.noiseX + (Cx.sub y.out.1 want.1).power
      noiseY := x.noiseY + (Cx.sub y.out.2 want.2).power, pilots := x.pilots + 1 } else x
  let e := phaseError y.out want
  let x := countPilot pilot e x
  if mayAdapt s y then pilotCarrier pilot e (adapt s (knownStepSize s.rx) y want x) else x

/-- The mean noise of a polarisation's pilots in the frame so far. -/
def noiseOf (sum : Rat) (pilots : Nat) : Rat := if pilots = 0 then 0 else sum / (pilots : Nat)

/-- A data period: the detector's power, the LLRs of whole blocks, and decision-directed updates in A6
and in data mode, once the frame's detector has decided. -/
def dataPeriod (s : State) (y : Sym) (x : RxPath) : RxPath :=
  let k := dataIndex x.period
  let p := rxProf s
  let cx := p.patX.getD (k % 64) 0
  let cy := p.patY.getD (k % 64) 0
  let llrs := symbolLlrs s.rx.cfg cx (noiseOf x.noiseX x.pilots) y.taint y.out.1 ++
    symbolLlrs s.rx.cfg cy (noiseOf x.noiseY x.pilots) y.taint y.out.2
  let x := { x with
    wheySum := if wheyPeriod p k then x.wheySum + y.out.1.power + y.out.2.power else x.wheySum
    llrs := if x.collect then x.llrs ++ llrs.take (16384 * frameBlocks p - x.used) else x.llrs
    ends := if x.collect && decide (x.used < 16384 * frameBlocks p) &&
        decide (x.used / 16384 < (x.used + llrs.length) / 16384) then
      x.ends ++ [symbolPos x x.period] else x.ends
    used := x.used + llrs.length
    taintedData := if y.taint then x.taintedData + 2 else x.taintedData }
  if decide (s.rx.acq = 6) && x.decided == some true && mayAdapt s y then
    let want := (decidePoint cx y.out.1, decidePoint cy y.out.2)
    let x := if y.taint then x else adaptSeparator (dataStepSize s.rx) want y.inputs x
    dataCarrier (phaseError y.out want)
      (timingStep s.prof.rate s.rx.cfg.trBw (timingError want y.late y.early) x)
  else x

/-- What the loops show of their locks after a symbol (R205, R208). -/
def watchLoops (rate : Nat) (x : RxPath) : RxPath :=
  { x with
    quiet := if absRat x.phase ≤ 1 / 4 then x.quiet + 1 else 0
    stray := x.stray || decide (45 / 100 < absRat x.phase) || decide (adcSteerLimit ≤ absRat x.steer)
    wild := x.wild || decide (3500000 < (carrierKhz rate x).natAbs) }

/-- The next symbol period of the frame in progress. -/
def symbolStep (s : State) (x : RxPath) : RxPath :=
  let y := symAt s x
  let x' := watchLoops s.prof.rate (if isPilot x.period then knownPeriod s y x else dataPeriod s y x)
  { x' with
    theta := x'.theta + x'.omega, phase := x'.phase + x'.freq, period := x.period + 1
    taintedPeriods := if y.taint then x'.taintedPeriods + 1 else x'.taintedPeriods }

/-- Stage V2 has every sample that the next symbol period needs. -/
def symbolReady (s : State) (x : RxPath) : Bool :=
  decide (x.period < 1048576) &&
    decide (symbolPos x x.period + (11 * transformLength s.rx.cfg.nCode / 16 + 256 : Nat) ≤ (x.next : Nat))

/-- The symbol periods for which samples have come. -/
def symbolSteps (s : State) : Nat → RxPath → RxPath
  | 0, x => x
  | n + 1, x => if symbolReady s x then symbolSteps s n (symbolStep s x) else x

/-! ### What a frame gives (R200, R225) -/

/-- The frame's sync: the polarisations are not swapped, and the device's own detection of the
correlation succeeds. -/
def syncGood (x : RxPath) : Bool :=
  let p := fun (i : Nat) => (x.corr.getD i {}).power
  decide (p 1 ≤ p 0) && decide (p 2 ≤ p 3) && Config.syncDetected (p 0 + p 3)

/-- Pilot SNR in 0.01 dB: the pilots' power against their noise. -/
def pilotSnr (x : RxPath) (noise : Rat) : Int :=
  let n := noiseOf noise x.pilots
  let p := dbFactor ((x.ratio : Rat) / 100)
  if n = 0 then 32767 else clampInt (-32768) 32767 (nearest (100 * powerDb (p * p / n)))

end Sys2Proof.Machine
end

