-- ==== Sys2Proof/Machine/Skim.lean ====
section
/-!
DEFINITION. The skim tap: the decimators (R366 to R368), the capture (R369 to R371), decimator
resets (R372) and the commands of R374.
-/

namespace Sys2Proof.Machine

/-! ### The decimators (R366, R367, R368) -/

/-- One input sample through the five integrators; the fifth's value last. -/
def integrate : List (BitVec 68) → BitVec 68 → List (BitVec 68)
  | [], _ => []
  | i :: l, x => (i + x) :: integrate l (i + x)

/-- One value through the comb stages: the new delays and the output. -/
def comb : List (BitVec 68) → BitVec 68 → List (BitVec 68) × BitVec 68
  | [], v => ([], v)
  | d :: l, v =>
    let r := comb l (v - d)
    (v :: r.1, r.2)

/-- The CIC output of `n` samples: shifted right arithmetically to 1/256 LSB. -/
def cicOutput (c : Nat) (xs : List Int) (d : Decimator) : Decimator :=
  let ints := xs.foldl (fun i x => integrate i (BitVec.ofInt 68 x)) d.ints
  let r := comb d.combs (ints.getLastD 0)
  let y := (r.2.toInt / (2 ^ (5 * c - 8) : Nat))
  { ints := ints, combs := r.1, history := (y :: d.history).take 127 }

/-- A response of R367: its taps, the edges of its bands in hundredths of Fo, its ripple and its
attenuation in dB, and whether it corrects the droop. -/
structure FirResponse where
  taps : Nat
  pass : Nat
  ripple : Rat
  stop : Nat
  attenuation : Rat
  droop : Bool := false

/-- The table of R367. Response 0 has one tap and no bands. -/
def firResponse : Nat → FirResponse
  | 0 => { taps := 1, pass := 0, ripple := 0, stop := 0, attenuation := 0 }
  | 1 => { taps := 23, pass := 20, ripple := 1 / 100, stop := 80, attenuation := 60 }
  | 2 => { taps := 47, pass := 40, ripple := 1 / 100, stop := 60, attenuation := 80 }
  | 3 => { taps := 47, pass := 40, ripple := 5 / 100, stop := 60, attenuation := 80, droop := true }
  | 4 => { taps := 95, pass := 45, ripple := 1 / 100, stop := 55, attenuation := 90, droop := true }
  | 5 => { taps := 63, pass := 25, ripple := 1 / 100, stop := 35, attenuation := 90, droop := true }
  | 6 => { taps := 127, pass := 45, ripple := 5 / 1000, stop := 50, attenuation := 100, droop := true }
  | _ => { taps := 15, pass := 10, ripple := 1 / 10, stop := 90, attenuation := 40 }

def firTaps (fir : Nat) : Nat := (firResponse fir).taps

/-- The gain of the CIC relative to that at DC, at u turns a CIC output sample (R366). -/
def cicDroop (c : Nat) (u : Rat) : Rat :=
  if u = 0 then 1 else (sinTurn (u / 2) / ((2 ^ c : Nat) * sinTurn (u / (2 ^ (c + 1) : Nat)))) ^ 5

/-- The gain at the k-th of the L frequencies that the L taps determine, 2 k / L in units of Fo: 1 at DC;
in the passband within the ripple, behind the droop of the CIC at every c where the response corrects it;
in the stopband below the attenuation; between the two the table bounds nothing (R367). -/
def firGain (fir k : Nat) : Rat :=
  let r := firResponse fir
  let g := Config.skimGain fir k
  let u : Rat := (k : Nat) / (r.taps : Nat)
  let droop := fun (c : Nat) => if r.droop then cicDroop c u else 1
  if k = 0 then 1
  else if 200 * k ≤ r.pass * r.taps then
    boundRat (dbFactor (-r.ripple) / droop 12) (dbFactor r.ripple / droop 5) g
  else if r.stop * r.taps ≤ 200 * k then boundRat (-dbFactor (-r.attenuation)) (dbFactor (-r.attenuation)) g
  else g

/-- The tap at a distance from the centre, from the gains. -/
def firSideTap (fir d : Nat) : Rat :=
  let n := firTaps fir
  (1 + 2 * ((List.range (n / 2)).foldl (fun a k =>
    a + firGain fir (k + 1) * cosTurn ((((k + 1) * d : Nat) : Rat) / (n : Nat))) 0)) / (n : Nat)

/-- Tap i of a response: symmetric about the centre, which its delay names, and of unit sum. -/
def firTap (fir i : Nat) : Rat :=
  let m := firTaps fir / 2
  if i = m then 1 - 2 * ((List.range m).foldl (fun a k => a + firSideTap fir (k + 1)) 0)
  else firSideTap fir ((i : Int) - m).natAbs

/-- The 16-bit FIR output. -/
def firOutput (fir : Nat) (d : Decimator) : Int :=
  clampInt (-32768) 32767 (openRound ((List.range (firTaps fir)).foldl (fun a i =>
    a + firTap fir i * (d.history.getD i 0 : Int)) 0))

/-- The output stage before it holds: round(y / 2^shift), halves up. -/
def outputStage (shift : Nat) (y : Int) : Int := roundRat ((y : Rat) / (2 ^ shift : Nat))

/-- What the tap CORRECTED gives of lane l: stage V1's output, 64 samples behind the ADC, to the nearest
integer and held to 8 bits (R365). -/
def correctedSamples (s : State) (codes : List FourCodes) (l : Nat) : List Int :=
  let all := s.skim.tail ++ codes
  let r := { s.rx with path := { s.rx.path with adc := all, base := 0 } }
  (List.range codes.length).map fun (i : Nat) =>
    let m : Int := (all.length : Int) - codes.length + (i : Int) - 64
    let z := axisValue r s.prof.rate (decide (2 ≤ l)) m
    clampInt (-128) 127 (nearest (if l % 2 = 0 then z.re else z.im))

/-- The samples at the tap point (R365). -/
def tapSamples (s : State) (codes : List FourCodes) (l : Nat) : List Int :=
  if s.skim.corrected then correctedSamples s codes l else codes.map fun c => codeOn c l

/-- One lane takes the samples of one output interval: 2 × DEC_CIC of them. -/
def laneStep (k : Skim) (l : Nat) (xs : List Int) : Decimator :=
  let n := 2 ^ k.c
  cicOutput k.c (xs.drop n) (cicOutput k.c (xs.take n) (tabGet {} k.lanes l))

/-! ### The capture (R369, R370) -/

def capturing (k : Skim) : Bool :=
  match k.capture with
  | .armed => true
  | .triggered => k.left != 0
  | _ => false

/-- Write one sample of lane l at buffer index k. -/
def writeSample (l k : Nat) (v : BitVec 8) (s : State) : State :=
  let a := l * 32768 + k / 8
  let sh := 8 * (k % 8)
  let c := cellAt s 10 a
  let old := if c.valid then c.data else 0
  let mask : BitVec 128 := 0xFF <<< sh
  writeWord 10 a ((old &&& ~~~mask) ||| ((v.setWidth 128) <<< sh)) s

/-- The index moves on, wrapping after 262,143. -/
def advance (k : Skim) : Skim :=
  { k with
    index := (k.index + 1) % 262144
    wrapped := k.wrapped || (k.capture == .armed || k.capture == .triggered) && k.index == 262143
    left := if k.capture = .triggered then k.left - 1 else k.left }

/-- One lane's output sample: held to 8 bits, counted where it is, and written. -/
def skimLane (k : Skim) (l : Nat) (xs : List Int) (s : State) : State :=
  let d := laneStep k l xs
  let v := outputStage k.shift (firOutput k.fir d)
  let h := clampInt (-128) 127 v
  let s := s.onSkim fun k => { k with lanes := tabSet {} k.lanes l d }
  let s := if h = v then s else
    raiseLimited (147 * 2 ^ 16 + l) 147 l (errAdd (0x90030 + 8 * l) 1 s)
  if capturing k then writeSample l k.index (BitVec.ofInt 8 h) s else s

/-- SKIM_SAT_EVENT: the ADC samples that make one output sample of each lane. The sample is formed,
held and counted as R368 states, and written while the capture writes. -/
def execSkimSatEvent (xi xq yi yq : List Int) (s : State) : Host.Outcome State Fault Refusal :=
  .next <|
    let k := s.skim
    let codes := fourCodes xi xq yi yq
    if s.codeP && codes.length == 2 * 2 ^ k.c then
      let at' := tapSamples s codes
      let s := skimLane k 3 (at' 3) (skimLane k 2 (at' 2) (skimLane k 1 (at' 1)
        (skimLane k 0 (at' 0) s)))
      let s := s.onSkim fun k =>
        let all := k.tail ++ codes
        { k with tail := all.drop (all.length - 128) }
      if capturing k then s.onSkim advance else s
    else s

/-- A trigger of mask bit b (R370, R371). -/
def skimTrigger (b : Nat) (s : State) : State :=
  let k := s.skim
  if k.capture = .armed ∧ k.mask.getLsbD b then
    let t := s.tim.counter
    raise 144 0 (s.onSkim fun k => { k with
      capture := .triggered, left := k.post, cause := 1#6 <<< b, trigIndex := k.index, trigTime := t })
  else s

/-- SKIM_FROZEN: POST samples have been written. -/
def execSkimFrozen (s : State) : Host.Outcome State Fault Refusal :=
  .next <|
    if s.skim.capture = .triggered ∧ s.skim.left = 0 then
      raise 145 0 (s.onSkim fun k => { k with capture := .frozen })
    else s

/-- Leaving the modes of code P freezes the capture at once. -/
def stopSkim (s : State) : State :=
  s.onSkim fun k =>
    if k.capture = .armed ∨ k.capture = .triggered then { k with capture := .frozen, aborted := true }
    else k

/-! ### Decimator resets (R372) -/

/-- A reset awaits its DSP word. -/
def Skim.syncPending (k : Skim) : Bool := !k.syncs.isEmpty

/-- The period in which the pending reset's oldest cause was recognised. -/
def Skim.syncSince (k : Skim) : Quad := (k.syncs.head?.map fun q => q.2).getD 0

/-- The OP_SKIM_SYNCs that commit at the pending reset. -/
def Skim.syncJobs (k : Skim) : List Nat := k.syncs.filterMap fun q => q.1

/-- A cause of a reset, by a command or not: pending, or merged with the pending one and counted. -/
def requestReset (job : Option Nat) (s : State) : State :=
  let now := s.evt.period
  (when s.skim.syncPending (statAdd 0x90058 1) s).onSkim fun k => { k with
    syncs := k.syncs ++ [(job, now)] }

/-- 64 skim clock cycles, 107.8 ns, may have passed since the cause of the pending reset (R27; DESIGN
CHOICE, log 145). -/
def resetDue (s : State) : Bool := decide (26 ≤ (s.evt.period - s.skim.syncSince).toNat)

/-- SYNC_N_FALL. -/
def execSyncNFall (s : State) : Host.Outcome State Fault Refusal :=
  .next <| if s.codeP then requestReset none (skimTrigger 4 s) else s

/-- The time at which a sample `age` (2^-32 ns) back at V1's output crossed the ADC plane. -/
def sampleTime (s : State) (age : Nat) : Nat :=
  let back := psTime ((openRound (linePs s v1Ps)).toNat + fld s.tim.planes 31 16)
  (((s.tim.counter : Int) - age - back) % (timeModulus : Int)).toNat

/-- DECIMATOR_RESET: the pending reset applies at an ADC sample. -/
def execDecimatorReset (sample : BitVec 64) (age : Nat) (s : State) : Host.Outcome State Fault Refusal :=
  .next <|
    if s.codeP && s.skim.syncPending && resetDue s && sample.toNat % 256 == 0 then
      let t := sampleTime s age
      let js := s.skim.syncJobs
      let s := s.onSkim fun k => { k with
        lanes := [], syncs := [], syncSample := sample, syncTime := t
        syncIndex := if capturing k then k.index else k.syncIndex }
      js.foldl (fun s j => commitDone j [] s) (raise 146 0 (statAdd 0x90050 1 s))
    else s

/-! ### Commands (R374) -/

def skimConfigBody (j : Job) (s : State) : Verdict :=
  let w := j.param 0
  let k := s.skim
  match firstRefusal [
    (decide (fld w 7 4 < 5) || decide (12 < fld w 7 4) || decide (8 < fld w 15 12), badParam 0),
    (k.capture == .armed || k.capture == .triggered, refBusy)] with
  | some r => .refuse r
  | none => .complete (requestReset none (s.onSkim fun k => { k with
      corrected := bit w 0, c := fld w 7 4, fir := fld w 10 8, shift := fld w 15 12 })) []

def execOpSkimConfig (j : Nat) (s : State) : Host.Outcome State Fault Refusal :=
  .next (runOp 0x0710 1 skimConfigBody j s)

def skimArmBody (j : Job) (s : State) : Verdict :=
  let m := fld (j.param 0) 5 0
  if m = 0 then .refuse (badParam 0)
  else .complete ((invalidate 10 s).onSkim fun k => { k with
    capture := .armed, wrapped := false, aborted := false, cause := 0
    mask := BitVec.ofNat 6 m, post := fld (j.param 1) 17 0, left := 0, index := 0 }) []

def execOpSkimArm (j : Nat) (s : State) : Host.Outcome State Fault Refusal :=
  .next (runOp 0x0711 2 skimArmBody j s)

def skimTriggerBody (_ : Job) (s : State) : Verdict := .complete (skimTrigger 0 s) []

def execOpSkimTrigger (j : Nat) (s : State) : Host.Outcome State Fault Refusal :=
  .next (runOp 0x0712 0 skimTriggerBody j s)

def skimSyncBody (j : Job) (s : State) : Verdict :=
  .accept (requestReset (some j.id) s)

def execOpSkimSync (j : Nat) (s : State) : Host.Outcome State Fault Refusal :=
  .next (runOp 0x0713 0 skimSyncBody j s)

end Sys2Proof.Machine
end

