-- ==== Sys2Proof/Machine/Transmit.lean ====
section
/-!
DEFINITION. Transmit DSP: filter settings (R159 to R165), clipping (R166), the synthesiser
(R168), output states and ramps (R169 to R174), the optics port (R175 to R181) and their
commands (R182).
-/

namespace Sys2Proof.Machine

/-! ### Ramps (R169 to R171) -/

/-- Launched power at a position of a profile. -/
def rampPower (cosine : Bool) (phi : Rat) : Rat :=
  if cosine then (1 - ratCos (piRat * phi)) / 2 else phi

/-- Halve an interval n times around the position whose power is p. -/
def bisect (cosine : Bool) (p : Rat) : Nat → Rat → Rat → Rat
  | 0, lo, hi => (lo + hi) / 2
  | n + 1, lo, hi =>
    let m := (lo + hi) / 2
    if rampPower cosine m < p then bisect cosine p n m hi else bisect cosine p n lo m

/-- The position in the new direction that keeps launched power (R171), to 2^-32. -/
def reversePhi (old new : Bool) (phi : Rat) : Rat :=
  if old = new then phi else bisect new (rampPower old phi) 32 0 1

/-- The position's travel since the state was entered: T in us, periods of 4 ns. -/
def travel (t : Word) (periods : Nat) : Rat := (periods * 4 : Nat) / ((t.toNat * 1000 : Nat) : Rat)

/-- The ramp position now. -/
def phiNow (s : State) : Rat :=
  let t := s.tx
  let n := (s.evt.period - t.phiAt).toNat
  match t.out with
  | .quiet => 0
  | .on => 1
  | .rampUp => let p := t.phi + travel t.tUp n; if 1 < p then 1 else p
  | .rampDown => let p := t.phi - travel t.tDown n; if p < 0 then 0 else p

/-- Launched power relative to ON: the square of the output gain. -/
def launchedPower (s : State) : Rat :=
  match s.tx.out with
  | .rampUp => rampPower s.tx.upCosine (phiNow s)
  | .rampDown => rampPower s.tx.downCosine (phiNow s)
  | _ => phiNow s

/-- Enter an output state at a position. -/
def enterOut (o : OutState) (phi : Rat) (s : State) : State :=
  let now := s.evt.period
  s.onTx fun t => { t with out := o, phi := phi, phiAt := now }

/-! ### The output request (R170, R174, R505) -/

/-- The request is held clear. -/
def requestHeld (s : State) : Bool := (s.tx.alertAction && s.tx.alert) || s.pwr.windDown.isSome

def setRequest (b : Bool) (s : State) : State :=
  if b && requestHeld s then s else s.onTx fun t => { t with request := b }

/-- TXDSP_OUTPUT_WRITE. -/
def writeTxOutput (w : Word) (s : State) : State := if s.codeP then setRequest (bit w 0) s else s

def execTxdspOutputWrite (w : Word) (s : State) : Host.Outcome State Fault Refusal :=
  .next (writeTxOutput w s)

/-! ### The optics port (R175 to R180) -/

/-- CRC-8 with polynomial 0x07 over a bit string. -/
def crc8 (bits : List Bool) : Nat :=
  bits.foldl (fun c b => if c.testBit 7 != b then (c * 2 % 256) ^^^ 7 else c * 2 % 256) 0

/-- The CRC of a frame's bits 0 to 39 (R176). -/
def optCrc (read : Bool) (addr data : BitVec 16) : Nat :=
  crc8 (bitsMsb 8 (if read then 3 else 2) ++ bitsMsb 16 addr.toNat ++ bitsMsb 16 data.toNat)

/-- What the device drives in a frame: command and address, and for a write data and CRC. -/
def OptTrans.driven (t : OptTrans) : List Bool :=
  bitsMsb 8 (if t.read then 3 else 2) ++ bitsMsb 16 t.addr.toNat ++
    (if t.read then [] else bitsMsb 16 t.data.toNat ++ bitsMsb 8 (optCrc false t.addr t.data))

/-- Start the next transaction where the port is free: hooks first, then commands in order. The
start of a command's first transaction is its commit (R179). A failed transaction holds the port until its
retries end (DEDUCED, log 110). -/
def portNext (s : State) : State :=
  if s.tx.wire.isSome || s.tx.resetActive || !s.codeS then s
  else match s.tx.hookQueue, s.tx.hostQueue with
    | h :: l, _ => s.onTx fun t => { t with wire := some { trans := h }, hookQueue := l }
    | [], h :: l =>
      let s := s.onTx fun t => { t with
        wire := some { trans := h }, hostQueue := l
        readResult := if h.index = 0 then [] else t.readResult }
      match h.job with
      | some j => if h.index = 0 then commit j s else s
      | none => s
    | [], [] => s

/-- Transactions of a list of words, in order. -/
def transOf (job : Option Nat) (read : Bool) (ws : List Word) : List OptTrans :=
  (ws.zip (List.range ws.length)).map fun e =>
    { job := job, read := read, addr := e.1.extractLsb' 0 16
      data := if read then 0 else e.1.extractLsb' 16 16
      index := e.2, last := e.2 + 1 == ws.length }

/-- Run a hook list. -/
def runHooks (k : HookKind) (ws : List Word) (s : State) : State :=
  portNext (s.onTx fun t => { t with hooks := some k, hookQueue := transOf none false ws })

/-- The last hook of a list has been acknowledged. -/
def hooksDone (s : State) : State :=
  s.onTx fun t => { t with hooks := none, upReady := t.hooks == some .up }

/-- A hook failed (R180). -/
def hookFailed (s : State) : State :=
  raise 167 0 (s.onTx fun t => { t with
    request := t.request && t.hooks != some .up, hooks := none, hookQueue := [], upReady := false })

/-- A transaction is done. -/
def transDone (h : OptTrans) (data : BitVec 16) (s : State) : State :=
  let s := s.onTx fun t => { t with
    wire := none, lastFailed := false
    readResult := if h.read then t.readResult ++ [data.setWidth 32] else t.readResult }
  match h.job with
  | none => if h.last then hooksDone s else s
  | some j => if h.last then finishOk j (if h.read then s.tx.readResult else []) s else s

/-- A transaction has failed for good: the first failure ends its command (R179). A failed OP_OPT_READ
returns the words read, and no count (DEDUCED, log 110). A refused transaction ends a committed command
ST_BAD_PARAM, as R178 says, which R392 does not list among the statuses after a commit (DEDUCED, log
75). -/
def transFailed (h : OptTrans) (status : BitVec 8) (detail : Word) (s : State) : State :=
  let s := s.onTx fun t => { t with wire := none, lastFailed := true }
  match h.job with
  | none => hookFailed s
  | some j =>
    finish j status detail (if h.read then s.tx.readResult else [word h.index])
      (s.onTx fun t => { t with hostQueue := t.hostQueue.filter fun q => q.job ≠ some j })

/-- OPT_TRANSACTION_END: a frame ends with a status, and for a read data and a CRC (R178). -/
def execOptTransactionEnd (status : BitVec 8) (data : BitVec 16) (crc : BitVec 8) (s : State) :
    Host.Outcome State Fault Refusal :=
  .next <|
    match s.tx.wire with
    | some w =>
      if !w.onWire then s
      else
        let h := w.trans
        let s := s.onTx fun t => { t with lastStatus := status }
        if status = 0xA5 && (!h.read || crc.toNat == optCrc true h.addr data) then
          portNext (transDone h data s)
        else if status = 0x5A then
          portNext (transFailed h stBadParam (stepDetail 7 (h.index + 1)) s)
        else if w.retries < s.tx.optRetries.toNat then
          let now := s.evt.period
          s.onTx fun t => { t with wire := some { w with onWire := false, failedAt := now } }
        else portNext (raise 166 0 (transFailed h stTimeout 0 s))
    | none => s

/-- The same transaction is sent again. -/
def retryNow (w : OptWire) (s : State) : State :=
  errAdd 0xA0038 1 (s.onTx fun t => { t with
    wire := some { w with onWire := true, due := false, retries := w.retries + 1 } })

/-- OPT_RETRY: 10 us have run; the retry goes out, or waits for the end of a reset (R181). -/
def execOptRetry (s : State) : Host.Outcome State Fault Refusal :=
  .next <|
    match s.tx.wire with
    | some w =>
      if w.onWire || !usSince 10 w.failedAt s then s
      else if s.tx.resetActive then s.onTx fun t => { t with wire := some { w with due := true } }
      else retryNow w s
    | none => s

def optListBody (read : Bool) (j : Job) (s : State) : Verdict :=
  let n := (j.param 0).toNat
  if outside 1 64 n then .refuse (badParam 0)
  else if j.body.length < n + 1 then .refuse (badParam j.body.length)
  else
    .decided (portNext (modJob j.id (fun x => { x with stage := .running })
      (s.onTx fun t => { t with
        hostQueue := t.hostQueue ++ transOf (some j.id) read ((j.body.drop 1).take n) })))

def execOpOptWrite (j : Nat) (s : State) : Host.Outcome State Fault Refusal :=
  .next (runOp 0x0220 1 (optListBody false) j s)

def execOpOptRead (j : Nat) (s : State) : Host.Outcome State Fault Refusal :=
  .next (runOp 0x0221 1 (optListBody true) j s)

def optResetBody (j : Job) (s : State) : Verdict :=
  if s.tx.out ≠ .quiet then .refuse refBusy
  else
    let now := s.evt.period
    .work (s.onTx fun t => { t with
      resetActive := true, optResetJobs := t.optResetJobs ++ [(j.id, now)] })

def execOpOptReset (j : Nat) (s : State) : Host.Outcome State Fault Refusal :=
  .next (runOp 0x0222 0 optResetBody j s)

/-- OPT_RESET_N is low: until the boot releases it, and for the first 10 us of each OP_OPT_RESET (R181,
R507). -/
def optResetLow (s : State) : Bool :=
  s.tx.resetActive && (s.tx.optResetJobs.isEmpty || s.tx.optResetJobs.any fun j => !usSince 10 j.2 s)

/-- The port accepts transactions again: first the retry that is due, if any. -/
def portOpens (s : State) : State :=
  let s := s.onTx fun t => { t with resetActive := false }
  match s.tx.wire with
  | some w => if w.due then retryNow w s else s
  | none => portNext s

/-- OPT_RESET_END: the 10 us low of the oldest OP_OPT_RESET and the 1 ms after it have elapsed, and it
completes; the port accepts transactions again where none runs on (R181). -/
def execOptResetEnd (s : State) : Host.Outcome State Fault Refusal :=
  .next <|
    if s.tx.resetActive && s.codeS then
      match s.tx.optResetJobs with
      | j :: js =>
        if usSince 1010 j.2 s then
          let s := finishOk j.1 [] (s.onTx fun t => { t with optResetJobs := js })
          if js.isEmpty then portOpens s else s
        else s
      | [] => portOpens s
    else s

/-! ### Alerts (R174) -/

/-- OPT_ALERT_FALL: OPT_ALERT_N falls. -/
def execOptAlertFall (s : State) : Host.Outcome State Fault Refusal :=
  .next (setLevel 165 true (s.onTx fun t => { t with
    alert := true, request := t.request && !t.alertAction }))

/-- OPT_ALERT_RISE: the hold on the request ends; the request stays clear. -/
def execOptAlertRise (s : State) : Host.Outcome State Fault Refusal :=
  .next (setLevel 165 false (s.onTx fun t => { t with alert := false }))

/-! ### Frame starts and ramp ends (R170, R172) -/

/-- QUIET with the request set: the transmitter waits for its synthesiser (R168) and for hooks that
run (R180). -/
def startUp (s : State) : State :=
  if s.tx.hooks.isSome || !s.tx.synthLocked then s
  else if s.tx.upReady || s.tx.upHooks.isEmpty then
    enterOut .rampUp 0 (s.onTx fun t => { t with upReady := false })
  else runHooks .up s.tx.upHooks s

/-- The request is sampled and the table of R170 applied. A request cleared while the UP hooks run starts
no ramp if it is 0 at the frame start after they end, and ramps without new hooks if it is set again by then
(DESIGN CHOICE, log 109). -/
def sampleRequest (s : State) : State :=
  let req := s.tx.request
  let phi := phiNow s
  let t := s.tx
  let s := s.onTx fun t => { t with sampled := req, upReady := t.upReady && req }
  match t.out, req with
  | .quiet, true => startUp s
  | .rampUp, false => enterOut .rampDown (reversePhi t.upCosine t.downCosine phi) s
  | .on, false => enterOut .rampDown 1 s
  | .rampDown, true => enterOut .rampUp (reversePhi t.downCosine t.upCosine phi) s
  | _, _ => s

/-- A filter update whose coefficients are ready takes effect (R164). -/
def applyFilter (s : State) : State :=
  match s.tx.update with
  | some u =>
    raise 162 0 (commitDone u.1 [] (s.onTx fun t => { t with filter := u.2, update := none }))
  | none => s

/-- RAMP_UP_DONE: the position reaches 1. -/
def execRampUpDone (s : State) : Host.Outcome State Fault Refusal :=
  .next <|
    if s.tx.out = .rampUp ∧ 1 ≤ phiNow s then raise 160 0 (enterOut .on 1 s) else s

/-- RAMP_DOWN_DONE: the position reaches 0; the QUIET hooks run. -/
def execRampDownDone (s : State) : Host.Outcome State Fault Refusal :=
  .next <|
    if s.tx.out = .rampDown ∧ phiNow s ≤ 0 then
      let s := raise 161 0 (enterOut .quiet 0 s)
      if s.tx.quietHooks.isEmpty then s else runHooks .quiet s.tx.quietHooks s
    else s

/-! ### The DACs (R166, R168) -/

/-- One lane's clipped samples of a 1 ms window against its limit; a limit of 0 disables. -/
def clipLane (src limit lane n : Nat) (s : State) : State :=
  if limit ≠ 0 ∧ limit < n then raiseLimited (src * 2 ^ 16 + lane) src lane s else s

/-- The four lanes of a window in order. -/
def clipWindow (src limit : Nat) (c : FourCounts) (s : State) : State :=
  clipLane src limit 3 c.yq (clipLane src limit 2 c.yi
    (clipLane src limit 1 c.xq (clipLane src limit 0 c.xi s)))

/-- Clipped samples, as lane and index, counted per lane. -/
def laneCounts (l : List (Nat × Nat)) : FourCounts :=
  let n := fun k => (l.filter fun e => e.1 == k).length
  { xi := n 0, xq := n 1, yi := n 2, yq := n 3 }

def addCounts (a b : FourCounts) : FourCounts :=
  { xi := a.xi + b.xi, xq := a.xq + b.xq, yi := a.yi + b.yi, yq := a.yq + b.yq }

/-- Add clipped samples to four error counters, XI first at `base`. -/
def countClips (base : Nat) (c : FourCounts) (s : State) : State :=
  errAdd (base + 24) c.yq (errAdd (base + 16) c.yi (errAdd (base + 8) c.xq (errAdd base c.xi s)))

/-- DAC_SYNTH_UNLOCK (R168). -/
def execDacSynthUnlock (s : State) : Host.Outcome State Fault Refusal :=
  .next <| if s.codeP then dacUnlock s else s

/-- DAC_SYNTH_LOCK: the output stays QUIET. -/
def execDacSynthLock (s : State) : Host.Outcome State Fault Refusal :=
  .next <| if s.codeP then s.onTx fun t => { t with synthLocked := true } else s

/-! ### Filter settings (R159 to R164) -/

/-- A signed 16-bit half of a word. -/
def half (w : Word) (hi : Bool) : Int := signed 16 (if hi then fld w 31 16 else fld w 15 0)

/-- The value of a list of points at a place given in sixteenths of a step, interpolated
linearly. -/
def interpAt (l : List Int) (u : Rat) : Rat :=
  let k := (u / 16).floor.toNat
  let a : Rat := (l.getD k 0 : Int)
  let b : Rat := (l.getD (k + 1) 0 : Int)
  a + (b - a) * (u / 16 - (k : Rat))

/-- The programmed gain in dB over P at a point of the filter's grid, on one side: the mask, the
lane's amplitude correction and its IQ gain (R160, R161). -/
def combinedDb (f : TxFilter) (amp : List Int) (iq : Int) (upper : Bool) (u : Rat) : Rat :=
  interpAt f.mask (if upper then 1024 + u else 1024 - u) / 10 + interpAt amp u / 20 + (iq : Rat) / 100

/-- P(f) of the root-raised-cosine response at u sixteenths of Fs / 128 (R159). -/
def rrc (beta : Nat) (u : Rat) : Rat :=
  let x : Rat := u * 9 / 16384
  let b : Rat := (beta : Nat) / 100
  if x ≤ (1 - b) / 2 then 1
  else if (1 + b) / 2 ≤ x then 0
  else ratCos (piRat / (2 * b) * (x - (1 - b) / 2))

/-- The combined gain relative to P(0). -/
def combinedGain (f : TxFilter) (amp : List Int) (iq : Int) (upper : Bool) (u : Rat) : Rat :=
  rrc f.beta u * dbFactor (combinedDb f amp iq upper u)

/-- Narrow an interval n times by thirds toward the maximum of a function with one maximum. -/
def peakWithin (g : Rat → Rat) : Nat → Rat → Rat → Rat
  | 0, lo, hi => g ((lo + hi) / 2)
  | n + 1, lo, hi =>
    let a := lo + (hi - lo) / 3
    let b := hi - (hi - lo) / 3
    if g a < g b then peakWithin g n a hi else peakWithin g n lo b

/-- The greatest gain over one step of the grid, up to its parts below and in the roll-off: in dB
each is concave, so it has one maximum (R162). -/
def stepPeak (f : TxFilter) (amp : List Int) (iq : Int) (upper : Bool) (k : Nat) : Rat :=
  let g := combinedGain f amp iq upper
  let lo : Rat := (16 * k : Nat)
  let hi : Rat := (16 * (k + 1) : Nat)
  let knee := boundRat lo hi ((1 - (f.beta : Rat) / 100) / 2 * 16384 / 9)
  max (max (g lo) (g hi)) (max (g knee) (max (peakWithin g 64 lo knee) (peakWithin g 64 knee hi)))

/-- The combined gain stays within +18 dB over one step of the grid. Where the programmed gain, linear
in dB over the step, does so at both ends, it does: P is greatest at 0. -/
def stepOk (f : TxFilter) (amp : List Int) (iq : Int) (upper : Bool) (k : Nat) : Bool :=
  let db := combinedDb f amp iq upper
  (decide (db (16 * k : Nat) ≤ 18) && decide (db (16 * (k + 1) : Nat) ≤ 18)) ||
    decide (stepPeak f amp iq upper k ≤ dbFactor 18)

/-- The combined gain stays within +18 dB at every frequency on every lane (R162). The IQ gain counts whole
on the Q lane and the IQ phase not at all (DESIGN CHOICE, log 107). -/
def gainOk (f : TxFilter) : Bool :=
  let lane := fun (amp : List Int) (iq : Int) => (List.range 64).all fun k =>
    stepOk f amp iq true k && stepOk f amp iq false k
  lane f.xi.amp 0 && lane f.xq.amp f.gainX && lane f.yi.amp 0 && lane f.yq.amp f.gainY

/-- Queue a filter update (R164). A gain over the limit names parameter word 0 (DESIGN CHOICE, log 107). -/
def updateFilter (j : Job) (f : TxFilter) (s : State) : Verdict :=
  match firstRefusal [(!gainOk f, badParam 0), (s.tx.update.isSome, refBusy)] with
  | some r => .refuse r
  | none => .accept (s.onTx fun t => { t with update := some (j.id, f) })

def txShapeBody (j : Job) (s : State) : Verdict :=
  let w := j.param 0
  if outside 1 12 (fld w 3 0) || decide (6 < fld w 7 4) || outside 64 192 (fld w 17 8) then
    .refuse (badParam 0)
  else updateFilter j { s.tx.filter with
    beta := fld w 3 0, boost := fld w 7 4, rms := fld w 17 8
    clipLimit := (j.param 1).extractLsb' 0 16 } s

def execOpTxShape (j : Nat) (s : State) : Host.Outcome State Fault Refusal :=
  .next (runOp 0x0210 2 txShapeBody j s)

def outsideInt (lo hi v : Int) : Bool := decide (v < lo) || decide (hi < v)

def txMaskBody (j : Job) (s : State) : Verdict :=
  let m := (List.range 129).map fun i => half (j.param (i / 2)) (i % 2 == 1)
  match m.findIdx? fun v => outsideInt (-400) 120 v with
  | some i => .refuse (badParam (i / 2))
  | none =>
    if fld (j.param 64) 31 16 ≠ 0 then .refuse (badParam 64)
    else updateFilter j { s.tx.filter with mask := m } s

def execOpTxMask (j : Nat) (s : State) : Host.Outcome State Fault Refusal :=
  .next (runOp 0x0211 65 txMaskBody j s)

/-- The 66 words of one lane from parameter word i (R182). -/
def laneOf (j : Job) (i : Nat) : TxLane where
  skew := half (j.param i) false
  invert := bit (j.param i) 16
  amp := (List.range 65).map fun k => half (j.param (i + 1 + k)) false
  delay := (List.range 65).map fun k => half (j.param (i + 1 + k)) true

/-- The first word of a lane that is out of range (R161). -/
def laneFault (l : TxLane) : Option Nat :=
  if outsideInt (-1000) 1000 l.skew then some 0
  else ((l.amp.zip l.delay).findIdx? fun e =>
    outsideInt (-120) 360 e.1 || outsideInt (-200) 200 e.2).map (· + 1)

/-- Lane n takes its words, if the mask names it: filter, next word, first fault. -/
def takeLane (j : Job) (n : Nat) (set : TxLane → TxFilter → TxFilter)
    (acc : TxFilter × Nat × Option Nat) : TxFilter × Nat × Option Nat :=
  if bit (j.param 0) n then
    let l := laneOf j acc.2.1
    (set l acc.1, acc.2.1 + 66, acc.2.2 <|> (laneFault l).map (acc.2.1 + ·))
  else acc

/-- OP_TX_PRECOMP. Words 1 and 2 count only with the IQ update of word 0 [4]; without it any value stands
there (DESIGN CHOICE, log 165). -/
def txPrecompBody (j : Job) (s : State) : Verdict :=
  let n := ((List.range 4).map fun l => b2n (bit (j.param 0) l)).sum
  let iqBad := fun (w : Word) =>
    outsideInt (-200) 200 (half w false) || outsideInt (-1500) 1500 (half w true)
  let f := s.tx.filter
  let f := if bit (j.param 0) 4 then { f with
    gainX := half (j.param 1) false, phaseX := half (j.param 1) true
    gainY := half (j.param 2) false, phaseY := half (j.param 2) true } else f
  let r := takeLane j 3 (fun l f => { f with yq := l }) (takeLane j 2 (fun l f => { f with yi := l })
    (takeLane j 1 (fun l f => { f with xq := l })
      (takeLane j 0 (fun l f => { f with xi := l }) (f, 3, none))))
  match firstRefusal [
    (bit (j.param 0) 4 && iqBad (j.param 1), badParam 1),
    (bit (j.param 0) 4 && iqBad (j.param 2), badParam 2),
    (r.2.2.isSome, badParam (r.2.2.getD 0)),
    (decide (j.body.length < 3 + 66 * n), badParam j.body.length)] with
  | some x => .refuse x
  | none => updateFilter j r.1 s

def execOpTxPrecomp (j : Nat) (s : State) : Host.Outcome State Fault Refusal :=
  .next (runOp 0x0212 3 txPrecompBody j s)

/-! ### Ramps, output and hooks (R182) -/

def txRampBody (j : Job) (s : State) : Verdict :=
  let w := j.param 0
  match firstRefusal [
    (outside 1 1000000 (j.param 1).toNat, badParam 1),
    (outside 1 1000000 (j.param 2).toNat, badParam 2),
    (s.tx.out == .rampUp || s.tx.out == .rampDown, refBusy)] with
  | some r => .refuse r
  | none => .complete (s.onTx fun t => { t with
      upCosine := bit w 0, downCosine := bit w 1, alertAction := bit w 2
      optRetries := w.extractLsb' 4 3, tUp := j.param 1, tDown := j.param 2
      request := t.request && !(bit w 2 && t.alert) }) []

def execOpTxRamp (j : Nat) (s : State) : Host.Outcome State Fault Refusal :=
  .next (runOp 0x0213 3 txRampBody j s)

def txOutputBody (j : Job) (s : State) : Verdict :=
  let on := bit (j.param 0) 0
  if on && requestHeld s then .refuse refBusy else .complete (setRequest on s) []

def execOpTxOutput (j : Nat) (s : State) : Host.Outcome State Fault Refusal :=
  .next (runOp 0x0214 1 txOutputBody j s)

def txHooksBody (j : Job) (s : State) : Verdict :=
  let u := fld (j.param 0) 3 0
  let q := fld (j.param 0) 7 4
  match firstRefusal [
    (decide (8 < u) || decide (8 < q), badParam 0),
    (decide (j.body.length < 1 + u + q), badParam j.body.length),
    (s.tx.hooks.isSome, refBusy)] with
  | some r => .refuse r
  | none => .complete (s.onTx fun t => { t with
      upHooks := (j.body.drop 1).take u, quietHooks := (j.body.drop (1 + u)).take q }) []

def execOpTxHooks (j : Nat) (s : State) : Host.Outcome State Fault Refusal :=
  .next (runOp 0x0215 1 txHooksBody j s)

end Sys2Proof.Machine
end

