-- ==== Sys2Proof/Machine/Receive.lean ====
section
/-!
DEFINITION. Receive DSP: the acquisition machine (R216 to R224, R553), mode changes as they act
on it, what ADC codes and frame starts bring (R190, R193, R200, R215, R225), the whey detector
(R202), dispersion (R197, R198), LO steering (R209 to R212) and the commands of R226.
-/

namespace Sys2Proof.Machine

/-! ### The acquisition machine (R216, R553) -/

/-- LINECLK is valid while timing recovery is locked in A4 to A6 (R206). -/
def lineclkValid (r : Rx) : Bool := r.timingLocked && decide (4 ≤ r.acq)

def settleLineclk (s : State) : State := setCandValid 24 (lineclkValid s.rx) s

/-- A message not acknowledged when steering freezes waits for the next update interval. -/
def LoMsg.frozen (m : LoMsg) : LoMsg := { m with failed := true }

/-- The datapath as the machine enters state n: below A4 the loops are cleared (R220), A1 begins to count its
10 us (R216), and the decoder gets no further LLRs of the frame in progress unless the machine enters A6. -/
def RxPath.enter (n : Nat) (x : RxPath) : RxPath :=
  let x := if n = 6 then x else { x with collect := false, llrs := [], ends := [], marks := [] }
  if 4 ≤ n then x
  else { x with
    period := 1048576, phase := 0, freq := 0, steer := 0, theta := 0, omega := 0
    steerRest := 0, xx := [], xy := [], yx := [], yy := [], decided := none
    meter := if n = 1 then { x.meter with strong := 0 } else x.meter }

/-- The machine's registers as it enters state n: below A4 the loops are cleared. -/
def Rx.enter (n : Nat) (restarted : Bool) (r : Rx) : Rx :=
  { r with
    acq := n, frames := 0, restarted := restarted, path := RxPath.enter n r.path, held := none
    timingLocked := r.timingLocked && decide (4 ≤ n)
    carrierLocked := r.carrierLocked && decide (4 ≤ n)
    snrRun := 0, syncFails := 0, ohGood := 0, ohBad := 0, crcPassed := 0
    wheyMode := r.wheyMode && decide (4 ≤ n)
    cdNext := if n = 6 then r.cdNext else if n ≤ 2 then none else r.cdNext.filter fun d => !d.2
    cdEst := if n = 6 then r.cdEst else 0
    window := if 5 ≤ n then r.window else 0
    loFrames := if n = 6 then r.loFrames else []
    loMsg := if n < 5 then r.loMsg.map LoMsg.frozen else r.loMsg
    loSum := if n = 5 then 0 else r.loSum }

/-- Outside A6 the decoder starts at a whole frame: one broken off gets no further blocks. -/
def abandonFrame (d : Dec) : Dec :=
  if d.index = 0 then d else { d with frame := d.frame + 1, index := 0 }

/-- Go to an acquisition state. Every entry into A1 counts. -/
def toAcq (n : Nat) (restarted : Bool) (s : State) : State :=
  let s := if n = 1 then statAdd 0xB0070 1 s else s
  let s := if n = 6 then s else s.onDec abandonFrame
  let f := s.dec.frame
  let now := s.evt.period
  settleLineclk (s.onRx fun r => { Rx.enter n restarted r with
    firstFrame := if n = 6 then r.firstFrame else f, since := now
    cdAt := if n = 6 then now else r.cdAt })

/-- A loss of frame is recorded and counted, with a cause of R222. -/
def recordLof (cause : Nat) (s : State) : State :=
  skimTrigger 1 <| raise 182 cause (errAdd 0xB0068 1 (s.onRx fun r => { r with
    lastLof := BitVec.ofNat 4 cause }))

/-- What a command's mode change has taken the machine from in this same cycle (R224). -/
def heldNow (s : State) : Option HeldAcq :=
  if s.rx.acq = 0 then s.rx.held.filter fun h => h.since == s.evt.period else none

/-- A command's mode change has taken the machine from A6 in this same cycle. -/
def heldFromLock (s : State) : Bool := (heldNow s).any fun h => h.acq == 6

/-- Loss of frame in A6. -/
def lossOfFrame (cause restart : Nat) (s : State) : State :=
  let s := recordLof cause s
  let s := if s.pwr.mode = .traffic then fillAll (setMode .acquire s) else s
  toAcq restart (restart == 3) s

/-- Conditions that act from A2 on: loss of frame in A6, a restart at A1 before it (R553). -/
def signalLost (cause : Nat) (s : State) : State :=
  if s.rx.acq = 6 then lossOfFrame cause 1 s
  else if 2 ≤ s.rx.acq then toAcq 1 false s
  else if heldFromLock s then recordLof cause s
  else s

/-- A loop unlocks: loss of frame in A6, a restart at A3 in A5 (R205, R208, R553). -/
def loopUnlocked (cause : Nat) (s : State) : State :=
  if s.rx.acq = 6 then lossOfFrame cause 3 s
  else if s.rx.acq = 5 then toAcq 3 true s
  else if heldFromLock s then recordLof cause s
  else settleLineclk s

/-- ACQ_COMPLETE. -/
def acqComplete (s : State) : State := skimTrigger 5 (raise 181 0 s)

/-- Entry into A6 (R217). -/
def acquired (s : State) : State :=
  let s := toAcq 6 false s
  acqComplete (if s.pwr.mode = .acquire then setMode .traffic s else s)

/-! ### Mode changes (R216, R224) -/

/-- The machine goes to A0 at once, and for the cycle in which a command does so it is kept what it
held (R224). -/
def holdAcq (s : State) : State :=
  let held : HeldAcq := { since := s.evt.period, acq := s.rx.acq, syncFails := s.rx.syncFails
                          ohGood := s.rx.ohGood, ohBad := s.rx.ohBad, firstFrame := s.rx.firstFrame }
  if s.rx.acq = 0 then s else (toAcq 0 false s).onRx fun r => { r with held := some held }

/-- What a change of mode does to the acquisition machine; a self-test holds it in A0 (R508). -/
def acqOnMode (old new : Mode) (s : State) : State :=
  match new with
  | .acquire | .maintenance => if s.pwr.bist.isEmpty then toAcq 1 false s else s
  | .traffic => s
  | .zeroised =>
    if old = .acquire ∨ old = .traffic then s else holdAcq s
  | _ => holdAcq s

/-- Enter a mode: tests end with MAINTENANCE (R287), delivery ends with TRAFFIC (R91), and the
acquisition machine follows. -/
def enterMode (officer : Bool) (m : Mode) (s : State) : State :=
  let old := s.pwr.mode
  let s := if old = .maintenance then clearTests s else s
  let s := setModeBy officer m s
  let s := if old = .traffic then fillAll s else s
  acqOnMode old m s

/-- READY is entered; its entry actions are due, and a start-up runs where the domains of code P
stand still (R504, R506). -/
def enterReady (officer : Bool) (s : State) : State :=
  let now := s.evt.period
  (enterMode officer .ready s).onPwr fun p => { p with
    readyEntryDue := true, starting := p.starting || !p.pRunning
    readyAt := if p.pRunning then p.readyAt else now }

/-- The receive domains stop with code P. -/
def stopReceive (s : State) : State :=
  let s := if s.rx.acq = 0 then s else toAcq 0 false s
  setLevel 177 false (s.onRx fun r => { r with
    adcLocked := false, los := false, signal := false, wheyMode := false, decisions := []
    clippedAt := none, clipHeavy := false, path := {} })

/-! ### Samples (R188, R193, R194) -/

/-- ADC codes reach the datapath: clipped samples count, and from A4 on the symbols that the codes
complete go through V3 and V4. -/
def feedCodes (codes : List FourCodes) (s : State) : State :=
  let old := s.rx.path
  let x := takeCodes codes old
  let x := { x with
    meter := codes.foldl (meterSample s.prof.rate s.rx.cfg.losRms.toNat) x.meter }
  let x := if s.rx.acq = 0 then { x with energyX := 0, energyY := 0, samples := 0 } else x
  let clipped := x.clips.drop old.clips.length
  let now := s.evt.period
  let s := countClips 0xB0040 (laneCounts clipped) (s.onRx fun r => { r with
    clippedAt := if clipped.isEmpty then r.clippedAt else some now })
  let y := if 4 ≤ s.rx.acq then symbolSteps s 1048576 x else x
  let n := y.taintedData - old.taintedData
  noteMany n 0x504 0 0 (errAdd 0xB0080 (y.slips - old.slips) (statAdd 0xB0060 n
    (s.onRx fun r => { r with path := y })))

/-! ### Events of the acquisition machine -/

/-- ACQ_SIGNAL_DETECTED: exit from A1, which waits for the ADC synthesiser, once the codes have stayed
at LOS_RMS or above for 10 us. -/
def execAcqSignalDetected (s : State) (codes : List FourCodes := []) :
    Host.Outcome State Fault Refusal :=
  .next <|
    let s := if s.codeP then feedCodes codes s else s
    if s.rx.acq = 1 ∧ s.rx.adcLocked ∧ 10 * usSamples s.prof.rate ≤ s.rx.path.meter.strong then
      let s := setLevel 177 false (raise 176 0 (s.onRx fun r => { r with signal := true, los := false }))
      if s.rx.cfg.cdFixedMode then
        (toAcq 3 false s).onRx fun r => { r with cdNext := some ((r.cfg.cdFixed : Int), false) }
      else toAcq 2 false s
    else s

/-- `n` frames have run since the entry into the acquisition state. -/
def framesRun (n : Nat) (s : State) : Bool :=
  decide (n * 1048576 ≤ (s.evt.period - s.rx.since).toNat * s.prof.rate)

/-- CD_FOUND: the scan of A2 ends with a fine candidate around a coarse one, and takes effect at the
next frame start (R198). -/
def execCdFound (scan : CdScan) (s : State) : Host.Outcome State Fault Refusal :=
  .next <|
    match fineCd s.rx.cfg s.prof.rate scan.coarse scan.fine with
    | some d =>
      if s.rx.acq = 2 ∧ usSince (scanTime s.rx.cfg s.prof.rate) s.rx.since s then
        (toAcq 3 false (raise 178 0 s)).onRx fun r => { r with cdNext := some (d, false) }
      else s
    | none => s

/-- The mean RMS code of both axes, in LSB; 1 where none has been measured. -/
def inputLevel (r : Rx) : Rat :=
  let sum := fld r.power 15 0 + fld r.power 31 16
  if sum = 0 then 1 else (sum : Nat) / 200

/-- Stages V3 and V4 start with the frame in which sync was found (R200, R207). -/
def startLoops (f : SyncFound) (s : State) : State :=
  let rate := s.prof.rate
  s.onRx fun r => { r with
    cfo := f.cfo
    path := startTaps (tapCount r.cfg.tCode) f.swapped f.turnX f.turnY { r.path with
      period := 0, start := (f.start : Nat) / 256, used := 0, phase := 0, freq := 0, theta := 0
      quiet := 0, stray := false, badPilots := 0, wild := false
      omega := (f.cfo : Rat) / (rate * 250000 : Nat)
      gain := 1 / (ratSqrt 2 * inputLevel r)
      noiseX := 0, noiseY := 0, pilots := 0, corr := [], wheySum := 0, decided := none
      taintedPeriods := 0 } }

/-- f_c against its threshold (R225). -/
def checkCfo (cfo : Int) (s : State) : State :=
  let c := s.rx.cfg
  if c.cfoHigh != 0 && decide (1000 * c.cfoHigh.toNat < cfo.natAbs) then
    raiseLimited (196 * 2 ^ 16) 196 0 s
  else s

/-- FRAME_SYNC_FOUND: two detections one frame apart in A3, which looks over ±3.5 GHz. -/
def execFrameSyncFound (f : SyncFound) (s : State) : Host.Outcome State Fault Refusal :=
  .next <|
    if s.rx.acq = 3 ∧ f.cfo.natAbs ≤ 3500000 ∧ framesRun 1 s then
      checkCfo f.cfo (startLoops f (toAcq 4 false (raise 179 0 s)))
    else s

/-- TIMING_RECOVERY_LOCK: the phase has stayed within 0.25 of a sample for 100 us (R205). -/
def execTimingRecoveryLock (s : State) : Host.Outcome State Fault Refusal :=
  .next <|
    if 4 ≤ s.rx.acq ∧ s.prof.rate * 25000 ≤ s.rx.path.quiet then
      settleLineclk (s.onRx fun r => { r with
        timingLocked := true, path := { r.path with stray := false } })
    else s

/-- CONVERGED: exit from A4. -/
def execConverged (s : State) : Host.Outcome State Fault Refusal :=
  .next <|
    if s.rx.acq = 4 ∧ s.rx.timingLocked ∧ s.rx.carrierLocked ∧ 4 ≤ s.rx.snrRun then
      toAcq 5 false (raise 180 0 s)
    else s

/-- The limit of the acquisition state has passed (R216). -/
def limitPassed (s : State) : Bool :=
  match s.rx.acq with
  | 2 => usSince (scanTime s.rx.cfg s.prof.rate) s.rx.since s
  | 3 => framesRun 64 s
  | 4 => usSince 2000 s.rx.since s
  | 5 => framesRun 64 s
  | _ => false

/-- ACQ_TIMEOUT: the limit of A2, A3 or A4. -/
def execAcqTimeout (s : State) : Host.Outcome State Fault Refusal :=
  .next <|
    if limitPassed s then
      match s.rx.acq with
      | 2 => toAcq 2 false (raise 184 0 s)
      | 3 => toAcq (if s.rx.cfg.cdFixedMode then 3 else 2) false (raise 184 0 s)
      | 4 => toAcq 3 false (raise 184 0 s)
      | _ => s
    else s

/-- ACQ_DECODE_FAIL: the limit of A5 (R218). -/
def execAcqDecodeFail (s : State) : Host.Outcome State Fault Refusal :=
  .next <|
    if s.rx.acq = 5 ∧ limitPassed s then
      toAcq 3 false (raiseLimited (185 * 2 ^ 16) 185 (min s.rx.crcPassed 0xFFFF) s)
    else s

/-- POWER_STEP: the codes that have come confirm a step (R219, R220), which restarts the 10 us of A1
too. -/
def execPowerStep (s : State) (codes : List FourCodes := []) : Host.Outcome State Fault Refusal :=
  .next <|
    let s := if s.codeP then feedCodes codes s else s
    if s.codeP && s.rx.path.meter.step then
      let s := s.onRx fun r => { r with path := { r.path with
        meter := { r.path.meter with step := false, strong := 0 } } }
      signalLost 2 (skimTrigger 2 (raise 183 0 (errAdd 0xB0078 1 s)))
    else s

/-- LOS: the RMS code over the last 1 µs against LOS_RMS. -/
def execLos (codes : List FourCodes) (s : State) : Host.Outcome State Fault Refusal :=
  .next <|
    let s := if s.codeP then feedCodes codes s else s
    if s.codeP && decide (usSamples s.prof.rate ≤ s.rx.path.meter.squares.length) then
      let low := !powerReaches s.prof.rate s.rx.cfg.losRms.toNat s.rx.path.meter
      let s := setLevel 177 low (s.onRx fun r => { r with los := low, signal := !low })
      if low then signalLost 1 s else s
    else s

/-- TIMING_UNLOCK: the phase or the steering has left its range (R205). -/
def execTimingUnlock (s : State) : Host.Outcome State Fault Refusal :=
  .next <|
    if s.rx.path.stray && (decide (4 ≤ s.rx.acq) || heldFromLock s) then
      loopUnlocked 5 (s.onRx fun r => { r with
        timingLocked := false, path := { r.path with stray := false } })
    else s

/-- CARRIER_UNLOCK: eight pilots in a row or f_c have left their range (R208). -/
def execCarrierUnlock (s : State) : Host.Outcome State Fault Refusal :=
  .next <|
    if s.rx.path.wild && (decide (4 ≤ s.rx.acq) || heldFromLock s) then
      loopUnlocked 6 (s.onRx fun r => { r with
        carrierLocked := false, path := { r.path with wild := false } })
    else s

/-- ADC_SYNTH_UNLOCK. -/
def execAdcSynthUnlock (s : State) : Host.Outcome State Fault Refusal :=
  .next <|
    if s.codeP then
      signalLost 7 (raise 186 0 (s.onRx fun r => { r with adcLocked := false }))
    else s

/-- ADC_SYNTH_LOCK releases A1, whose 10 us then restart (R553). -/
def execAdcSynthLock (s : State) : Host.Outcome State Fault Refusal :=
  .next <| if s.codeP then s.onRx fun r => { r with
      adcLocked := true
      path := { r.path with meter := { r.path.meter with strong := 0 } } } else s

/-- ADC_CLIP_WINDOW: the 1 ms window of the samples before count `sample` ends (R194). -/
def execAdcClipWindow (sample : Nat) (s : State) : Host.Outcome State Fault Refusal :=
  .next <|
    if s.codeP && usSince 1000 s.rx.clipAt s then
      let now := s.evt.period
      let inside := s.rx.path.clips.filter fun e => decide (e.2 < sample)
      let c := laneCounts inside
      let lim := s.rx.cfg.clipLimit.toNat * 16
      let raises := lim != 0 && (List.range 4).any
        fun l => decide (lim < countOn c l) && limitOpen (192 * 2 ^ 16 + l) s.evt
      let s := clipWindow 192 lim c (s.onRx fun r => { r with
        clipAt := now
        path := { r.path with clips := r.path.clips.filter fun e => decide (sample ≤ e.2) } })
      if raises then skimTrigger 3 s else s
    else s

/-- CD_TRACK_UPDATE: once per second in A6 (R197). -/
def execCdTrackUpdate (estimate : Int) (s : State) : Host.Outcome State Fault Refusal :=
  .next <|
    if s.rx.acq = 6 && usSince 1000000 s.rx.cdAt s then
      let now := s.evt.period
      let s := s.onRx fun r => { r with cdEst := estimate, cdAt := now }
      let step := 20 * rateScale s.prof.rate
      let gap := (estimate : Rat) - s.rx.cdApplied
      if s.rx.cfg.cdTrack && decide (step < absRat gap) then
        let d := if gap < 0 then s.rx.cdApplied - step else s.rx.cdApplied + step
        if cdOk s.prof.rate s.rx.cfg.lambda s.rx.cfg.nCode d then
          s.onRx fun r => { r with cdNext := some (d, true) }
        else raise 201 0 s
      else s
    else s

/-! ### The whey detector (R202) -/

/-- WHEY_DETECTOR_DECISION: once codes up to the last of the detector's 1,024 data periods have come, the
output's mean power on them, both polarisations together, decides the frame. -/
def execWheyDetectorDecision (codes : List FourCodes) (s : State) : Host.Outcome State Fault Refusal :=
  .next <|
    let s := if s.codeP then feedCodes codes s else s
    if decide (4 ≤ s.rx.acq) && s.rx.path.decided.isNone && detectorDone (rxProf s) s.rx.path.period then
      let data := decide (1 / 4 ≤ s.rx.path.wheySum / 1024)
      let f := s.dec.frame
      s.onRx fun r => { r with
        wheyMode := !data, path := { r.path with decided := some data }
        decisions := if 5 ≤ r.acq then r.decisions ++ [(f, data)] else r.decisions }
    else s

/-! ### LO steering (R209 to R212) -/

/-- The sum stands at the limit. -/
def loAtLimit (r : Rx) : Bool := r.loSum.natAbs == 1000 * r.cfg.loRange.toNat

/-- Frames of an update interval. -/
def loIntervalFrames : Nat → Nat
  | 0 => 1 | 1 => 8 | 2 => 64 | _ => 512

/-- The 48 bits of a message: TYPE, SEQ, STEP and the CRC over them (R211). -/
def loBits (m : LoMsg) : List Bool :=
  let body := bitsMsb 8 (if m.step then 0x11 else 0x12) ++ bitsMsb 8 m.seq.toNat ++
    bitsMsb 24 (wrapInt 24 m.value)
  body ++ bitsMsb 8 (crc8 body)

/-- A message goes out on the LO port. -/
def sendLo (m : LoMsg) (s : State) : State :=
  let now := s.evt.period
  s.onRx fun r => { r with
    loMsg := some m, loWire := BitVec.ofNat 48 (msbNat (loBits m)), loSentAt := now }

/-- A new message, under the next SEQ; the first after RESET carries 1 (DESIGN CHOICE, log 167). -/
def newLo (step : Bool) (value : Int) (s : State) : State :=
  let seq := s.rx.loSeq + 1
  sendLo { step := step, seq := seq, value := value } (s.onRx fun r => { r with loSeq := seq })

/-- A step for the mean f_c of an interval. -/
def steerLo (mean : Rat) (s : State) : State :=
  let c := s.rx.cfg
  if ((1000 * c.deadband.toNat : Nat) : Rat) < absRat mean then
    let lim : Int := 1000 * c.loRange.toNat
    let want := s.rx.loSum + nearest (mean / (2 ^ c.loGain.toNat : Nat))
    let sum := clampInt (-lim) lim want
    let s := newLo true (sum - s.rx.loSum) s
    if sum = want then s else raise 198 0 s
  else s

/-- LO_STEER_INTERVAL: the frames of an update interval have passed. A message whose retries ran out goes
again before any new step, and one still in its retries waits for them (R212). -/
def execLoSteerInterval (n : Nat) (s : State) : Host.Outcome State Fault Refusal :=
  .next <|
    let fs := s.rx.loFrames.take n
    if s.rx.cfg.loEnable && decide (5 ≤ s.rx.acq) &&
        n == loIntervalFrames s.rx.cfg.loInterval.toNat && fs.length == n then
      let s := s.onRx fun r => { r with loFrames := [] }
      match s.rx.loMsg with
      | some m => if m.failed then sendLo m s else s
      | none => steerLo ((fs.sum : Int) / (n : Rat)) s
    else s

/-- LO_KEEPALIVE: no step has been due for a second. -/
def execLoKeepalive (s : State) : Host.Outcome State Fault Refusal :=
  .next <|
    if s.rx.cfg.loEnable && decide (5 ≤ s.rx.acq) && s.rx.loMsg.isNone &&
        usSince 1000000 s.rx.loSentAt s then newLo false 0 s else s

/-- LO_ACK: the step counts. -/
def execLoAck (s : State) : Host.Outcome State Fault Refusal :=
  .next <|
    s.onRx fun r => match r.loMsg with
      | some m => { r with loSum := r.loSum + m.value, loMsg := none }
      | none => r

/-- LO_RETRY: 10 µs without an acknowledgement. -/
def execLoRetry (s : State) : Host.Outcome State Fault Refusal :=
  .next <|
    match s.rx.loMsg with
    | some m =>
      if m.failed || !usSince 10 s.rx.loSentAt s then s
      else if m.retries < s.rx.cfg.loRetries.toNat then
        errAdd 0xB0088 1 (sendLo { m with retries := m.retries + 1 } s)
      else raise 199 0 (s.onRx fun r => { r with loMsg := some { m with failed := true } })
    | none => s

/-! ### Commits at a frame start (R226) -/

/-- The signed skew and INVERT of a lane's word. -/
def rxLaneOf (w : Word) : RxLane := { skew := half w false, invert := bit w 16 }

def takeFrontend (p : List Word) (c : RxCfg) : RxCfg :=
  let w := p.getD 0 0
  { c with
    autoIq := bit w 0, autoSkew := bit w 1, taint := w.extractLsb' 2 2, clipLimit := w.extractLsb' 8 8
    gainX := half (p.getD 1 0) false, phaseX := half (p.getD 1 0) true
    gainY := half (p.getD 2 0) false, phaseY := half (p.getD 2 0) true
    xi := rxLaneOf (p.getD 3 0), xq := rxLaneOf (p.getD 4 0)
    yi := rxLaneOf (p.getD 5 0), yq := rxLaneOf (p.getD 6 0) }

/-- The front end at its programmed values. -/
def frontStart (c : RxCfg) : FrontEnd where
  gainX := c.gainX
  phaseX := c.phaseX
  gainY := c.gainY
  phaseY := c.phaseY
  skewXi := c.xi.skew
  skewXq := c.xq.skew
  skewYi := c.yi.skew
  skewYq := c.yq.skew

def wordInt (w : Word) : Int := signed 32 w.toNat

def takeCd (p : List Word) (c : RxCfg) : RxCfg :=
  let w := p.getD 0 0
  { c with
    cdFixedMode := bit w 0, cdTrack := bit w 1, nCode := fld w 6 4
    cdRange := some (wordInt (p.getD 1 0), wordInt (p.getD 2 0))
    cdFixed := wordInt (p.getD 3 0), lambda := (p.getD 4 0).toNat }

def takeSeparator (p : List Word) (c : RxCfg) : RxCfg :=
  let w := p.getD 0 0
  { c with
    tCode := w.extractLsb' 0 2, muK := w.extractLsb' 4 4, muD := w.extractLsb' 8 4
    wheyShift := w.extractLsb' 12 3
    llrUnit := (p.getD 1 0).extractLsb' 0 5, losRms := (p.getD 1 0).extractLsb' 8 8 }

def takeCarrier (p : List Word) (c : RxCfg) : RxCfg :=
  let w := p.getD 0 0
  { c with
    loEnable := bit w 0, loGain := w.extractLsb' 1 3, loInterval := w.extractLsb' 4 2
    deadband := w.extractLsb' 8 8, loRetries := w.extractLsb' 16 3, loRange := p.getD 1 0 }

def takeThresh (p : List Word) (c : RxCfg) : RxCfg :=
  { c with
    snrLow := (p.getD 0 0).extractLsb' 0 16, snrHyst := (p.getD 0 0).extractLsb' 16 16
    dgdHigh := (p.getD 1 0).extractLsb' 0 16, pdlHigh := (p.getD 1 0).extractLsb' 16 16
    cfoHigh := (p.getD 2 0).extractLsb' 0 16, sopHigh := (p.getD 2 0).extractLsb' 16 16 }

/-- A new D takes effect; a tracking step counts (R198). -/
def applyDispersion (s : State) : State :=
  match s.rx.cdNext with
  | some d =>
    let s := switchCoeffs (!s.mem.coeffSet) (s.onRx fun r => { r with cdApplied := d.1, cdNext := none })
    if d.2 then statAdd 0xB0098 1 s else s
  | none => s

/-- In ACQUIRE the machine restarts at A1 as the command commits. -/
def restartAcquire (s : State) : State :=
  if s.pwr.mode = .acquire then toAcq 1 false s else s

/-- A command's settings take effect. -/
def applyRx (op : BitVec 16) (p : List Word) (s : State) : State :=
  let old := s.rx.cfg
  match op.toNat with
  | 0x0230 => s.onRx fun r => { r with
      cfg := takeFrontend p r.cfg, fe := frontStart (takeFrontend p r.cfg), feEst := [] }
  | 0x0231 =>
    let s := s.onRx fun r => { r with cfg := takeCd p r.cfg }
    let s := if s.rx.cfg.cdFixedMode ∧ 3 ≤ s.rx.acq then
        (applyDispersion s).onRx fun r => { r with cdNext := some ((r.cfg.cdFixed : Int), false) } else s
    let s := if s.rx.cfg.nCode = old.nCode then s else drxChanged s
    restartAcquire s
  | 0x0232 =>
    let s := s.onRx fun r => { r with cfg := takeSeparator p r.cfg }
    if s.rx.cfg.tCode = old.tCode then s
    else restartAcquire (s.onRx fun r => { r with path := retap (tapCount r.cfg.tCode) r.path })
  | 0x0233 => restartAcquire (s.onRx fun r => { r with
      cfg := { r.cfg with trBw := (p.getD 0 0).extractLsb' 0 2 } })
  | 0x0234 => s.onRx fun r => { r with cfg := takeCarrier p r.cfg }
  | _ => s.onRx fun r => { r with cfg := takeThresh p r.cfg }

/-- The accepted commands of R226 commit, in order. -/
def commitRx (s : State) : State :=
  let ps := s.rx.pend
  ps.foldl (fun s e => commitDone e.1 [] (applyRx e.2.1 e.2.2 s)) (s.onRx fun r => { r with pend := [] })

/-- Accept a command of R226: it commits at the next frame start, or at once where the domains of
code P stand still. -/
def queueRx (j : Job) (s : State) : Verdict :=
  if s.codeP then .accept (s.onRx fun r => { r with pend := r.pend ++ [(j.id, j.opcode, j.body)] })
  else .complete (applyRx j.opcode j.body s) []

def rxIqBad (w : Word) : Bool :=
  outsideInt (-200) 200 (half w false) || outsideInt (-1500) 1500 (half w true)
def rxSkewBad (w : Word) : Bool := outsideInt (-1000) 1000 (half w false)

/-- The INVERT bits of the four lanes. -/
def rxInverts (c : RxCfg) : List Bool := [c.xi.invert, c.xq.invert, c.yi.invert, c.yq.invert]

def rxFrontendBody (j : Job) (s : State) : Verdict :=
  match firstRefusal [
    (rxIqBad (j.param 1), badParam 1), (rxIqBad (j.param 2), badParam 2),
    (rxSkewBad (j.param 3), badParam 3), (rxSkewBad (j.param 4), badParam 4),
    (rxSkewBad (j.param 5), badParam 5), (rxSkewBad (j.param 6), badParam 6),
    (s.pwr.mode != .ready && rxInverts (takeFrontend j.body s.rx.cfg) != rxInverts s.rx.cfg,
      refMode s)] with
  | some r => .refuse r
  | none => queueRx j s

def execOpRxFrontend (j : Nat) (s : State) : Host.Outcome State Fault Refusal :=
  .next (runOp 0x0230 7 rxFrontendBody j s)

def rxCdBody (j : Job) (s : State) : Verdict :=
  let n := fld (j.param 0) 6 4
  let bad := fun i => !cdOk s.prof.rate (j.param 4).toNat n (wordInt (j.param i))
  match firstRefusal [
    (decide (4 < n), badParam 0),
    (outside 145000 165000 (j.param 4).toNat, badParam 4),
    (bad 1 || decide (wordInt (j.param 2) < wordInt (j.param 1)), badParam 1),
    (bad 2, badParam 2), (bad 3, badParam 3),
    (s.pwr.mode != .ready && n != s.rx.cfg.nCode, refMode s)] with
  | some r => .refuse r
  | none => queueRx j s

def execOpRxCd (j : Nat) (s : State) : Host.Outcome State Fault Refusal :=
  .next (runOp 0x0231 5 rxCdBody j s)

def rxSeparatorBody (j : Job) (s : State) : Verdict :=
  let w := j.param 0
  match firstRefusal [
    (decide (12 < fld w 7 4) || decide (12 < fld w 11 8), badParam 0),
    (outside 4 16 (fld (j.param 1) 4 0) || outside 4 64 (fld (j.param 1) 15 8), badParam 1),
    (s.pwr.mode == .traffic && fld w 1 0 != s.rx.cfg.tCode.toNat, refMode s)] with
  | some r => .refuse r
  | none => queueRx j s

def execOpRxSeparator (j : Nat) (s : State) : Host.Outcome State Fault Refusal :=
  .next (runOp 0x0232 2 rxSeparatorBody j s)

def execOpRxTiming (j : Nat) (s : State) : Host.Outcome State Fault Refusal :=
  .next (runOp 0x0233 1 queueRx j s)

def rxCarrierBody (j : Job) (s : State) : Verdict :=
  if outside 100 8000 (j.param 1).toNat then .refuse (badParam 1) else queueRx j s

def execOpRxCarrier (j : Nat) (s : State) : Host.Outcome State Fault Refusal :=
  .next (runOp 0x0234 2 rxCarrierBody j s)

def execOpRxThresh (j : Nat) (s : State) : Host.Outcome State Fault Refusal :=
  .next (runOp 0x0235 3 queueRx j s)

/-! ### A frame's end and the next one's start (R190, R193, R198, R200, R215, R225) -/

/-- The range of a front-end value, by its place: two gains with their phases, then four skews. -/
def frontRange (k : Nat) : Int := if 4 ≤ k then 1000 else if k % 2 = 0 then 200 else 1500

/-- AUTO mode estimates the value. -/
def frontAuto (c : RxCfg) (k : Nat) : Bool := if 4 ≤ k then c.autoSkew else c.autoIq

/-- One step of at most 1 toward an estimate. -/
def toward (est v : Int) : Int := v + clampInt (-1) 1 (est - v)

/-- The AUTO front end moves toward its estimates. -/
def moveFront (c : RxCfg) (e : List Int) (f : FrontEnd) : FrontEnd :=
  let f := if c.autoIq then { f with
    gainX := toward (e.getD 0 0) f.gainX, phaseX := toward (e.getD 1 0) f.phaseX
    gainY := toward (e.getD 2 0) f.gainY, phaseY := toward (e.getD 3 0) f.phaseY } else f
  if c.autoSkew then { f with
    skewXi := toward (e.getD 4 0) f.skewXi, skewXq := toward (e.getD 5 0) f.skewXq
    skewYi := toward (e.getD 6 0) f.skewYi, skewYq := toward (e.getD 7 0) f.skewYq }
  else f

/-- The applied front-end values in the order of `frontRange`. -/
def FrontEnd.values (f : FrontEnd) : List Int :=
  [f.gainX, f.phaseX, f.gainY, f.phaseY, f.skewXi, f.skewXq, f.skewYi, f.skewYq]

/-- A value stands at its range limit. -/
def atRange (l : List Int) (k : Nat) : Bool := (l.getD k 0).natAbs == (frontRange k).toNat

/-- An AUTO value stands at its range limit (R228). -/
def frontLimit (c : RxCfg) (f : FrontEnd) : Bool :=
  (List.range 8).any fun k => frontAuto c k && atRange f.values k

/-- FRONTEND_LIMIT for an estimate that has reached its limit; a skew's carries its lane. -/
def raiseFront (est was : List Int) (s : State) (k : Nat) : State :=
  if frontAuto s.rx.cfg k && atRange est k && !atRange was k then raise 187 (k - 4) s else s

/-- The AUTO front end in A4 to A6, outside whey mode and heavy clipping: an estimate stays within its
range. -/
def frontStep (m : RxMeasure) (s : State) : State :=
  if decide (4 ≤ s.rx.acq) && !s.rx.wheyMode && !s.rx.clipHeavy then
    let was := s.rx.feEst
    let est := (List.range 8).map fun k =>
      if frontAuto s.rx.cfg k then
        clampInt (-(frontRange k)) (frontRange k) (m.estimates.getD k 0) else 0
    let s := s.onRx fun r => { r with feEst := est, fe := moveFront r.cfg est r.fe }
    (List.range 8).foldl (raiseFront est was) s
  else s

/-- SNR_LOW with its hysteresis; a threshold of 0 disables it. -/
def snrLowAfter (r : Rx) (x y : Int) : Bool :=
  let t : Int := r.cfg.snrLow.toNat
  if r.cfg.snrLow = 0 then false
  else if x < t ∨ y < t then true
  else if t + r.cfg.snrHyst.toNat < x ∧ t + r.cfg.snrHyst.toNat < y then false
  else r.snrLowNow

/-- A measurement above its threshold raises its source, at most once per second. -/
def overThreshold (src : Nat) (b : Bool) (s : State) : State :=
  if b then raiseLimited (src * 2 ^ 16) src 0 s else s

/-- The measurements of the 64-frame window, at its end, and their thresholds. -/
def slowQuality (m : RxMeasure) (s : State) : State :=
  let s := s.onRx fun r => { r with window := r.window + 1 }
  if s.rx.window < 64 then s
  else
    let c := s.rx.cfg
    let s := s.onRx fun r => { r with
      window := 0
      dgdPdl := word (m.dgd.toNat + m.pdl.toNat * 2 ^ 16)
      sopPb := word (m.sop.toNat + m.pilotRatio.toNat * 2 ^ 16) }
    let s := overThreshold 194 (c.dgdHigh != 0 && decide (c.dgdHigh.toNat < m.dgd.toNat)) s
    let s := overThreshold 195 (c.pdlHigh != 0 && decide (c.pdlHigh.toNat < m.pdl.toNat)) s
    overThreshold 197 (c.sopHigh != 0 && decide (10 * c.sopHigh.toNat < m.sop.toNat)) s

/-- The measurements of A4 to A6 and their thresholds. -/
def quality (m : RxMeasure) (s : State) : State :=
  if 4 ≤ s.rx.acq then
    let x := s.rx.path
    let snrX := pilotSnr x x.noiseX
    let snrY := pilotSnr x x.noiseY
    let good := decide (800 ≤ snrX) && decide (800 ≤ snrY)
    let low := snrLowAfter s.rx snrX snrY
    let cfo := carrierKhz s.prof.rate x
    let s := s.onRx fun r => { r with
      snr := word (wrapInt 16 snrX + wrapInt 16 snrY * 2 ^ 16)
      snrRun := if r.acq = 4 then (if good then r.snrRun + 1 else 0) else r.snrRun
      timing := word (wrapInt 32 (nearest (x.steer * 10 ^ 11)))
      cfo := cfo
      loFrames := if r.cfg.loEnable && decide (5 ≤ r.acq) then (cfo :: r.loFrames).take 512
        else r.loFrames
      carrierLocked := r.carrierLocked || m.carrier
      snrLowNow := low }
    checkCfo cfo (slowQuality m (setLevel 193 low s))
  else s

/-- Tainted symbols above 25 % of the frame (R193). -/
def heavyClipping (x : RxPath) : Bool := decide (1048576 < 4 * x.taintedPeriods)

/-- The restart of R223, and the loss of sync of R222. -/
def syncCheck (s : State) : State :=
  let good := syncGood s.rx.path
  let s := s.onRx fun r => { r with
    frames := r.frames + 1
    syncFails := if r.acq = 6 then (if good then 0 else r.syncFails + 1) else 0 }
  if s.rx.acq = 3 ∧ s.rx.restarted ∧ !s.rx.cfg.cdFixedMode ∧ 8 ≤ s.rx.frames then toAcq 2 false s
  else if 4 ≤ s.rx.syncFails then lossOfFrame 3 3 s
  else s

/-- The loss of sync that the frame's end would be, had a command not held the machine in this same cycle: it
is recorded and counted (R224). -/
def heldSync (s : State) : State :=
  match heldNow s with
  | some h => if h.acq = 6 ∧ 3 ≤ h.syncFails ∧ !syncGood s.rx.path then recordLof 3 s else s
  | none => s

/-- The frame that ends: its measurements, the AUTO front end and loss of sync. -/
def endFrame (m : RxMeasure) (s : State) : State :=
  let x := s.rx.path
  let s := s.onRx fun r => { r with
    power := word ((axisRms x.energyX x.samples).toNat + (axisRms x.energyY x.samples).toNat * 2 ^ 16)
    clipHeavy := heavyClipping x }
  syncCheck (quality m (frontStep m s))

/-- The mark of a frame whose period 0 stands at a sample position: the sample count and 1/256 of a
sample at which it crossed lane XI, whose skew correction lay behind (R215). -/
def markOf (r : Rx) (rate : Nat) (pos : Rat) : Nat × BitVec 8 :=
  let n := ((pos - tenthPsSamples rate r.fe.skewXi) * 256).floor.toNat
  (n / 256, BitVec.ofNat 8 (n % 256))

/-- The decoder's number of the frame that begins: the blocks of the one before may still be on their
way. -/
def beginningFrame (d : Dec) : Nat := if d.index = 0 then d.frame else d.frame + 1

/-- The datapath at a frame's start. LLRs that the ended frame did not get are erasures. -/
def beginFrame (m : RxMeasure) (s : State) : State :=
  let rate := s.prof.rate
  let f := beginningFrame s.dec
  s.onRx fun r =>
    let x := r.path
    let lost := if x.collect then 16384 * frameBlocks (rxProf s) - x.used else 0
    let start := x.start + (frameSamples : Nat)
    let x := { x with energyX := 0, energyY := 0, samples := 0 }
    { r with path := if r.acq < 4 then x else { x with
        period := 0, start := start, used := 0, decided := none, wheySum := 0
        noiseX := 0, noiseY := 0, pilots := 0, corr := [], taintedPeriods := 0
        ratio := m.pilotRatio.toInt, collect := decide (5 ≤ r.acq)
        llrs := x.llrs ++ List.replicate lost 0
        ends := x.ends ++ List.replicate ((lost + 16383) / 16384) start
        marks := if 5 ≤ r.acq then x.marks ++ [(f, markOf r rate (start + x.phase))] else x.marks } }

/-- A poisoned coefficient counts as zero, and its set is to be replaced (R449). -/
def poisonCoeff (a : Nat) (s : State) : State :=
  let k := a % coeffWords
  let s := if coeffHalf a == s.mem.coeffSet && !s.rx.cdDead.contains k then
    s.onRx fun r => { r with cdDead := k :: r.cdDead } else s
  s.onMem fun m => { m with coeffRebuild := m.coeffRebuild <|> some (coeffHalf a) }

/-- The equaliser's reads of the set in use: the coefficients hold no error but where something has struck a
word since it was filled. -/
def readCoeffs (s : State) : State :=
  (s.mem.cells.filter fun e => e.1 / 2 ^ 24 == 9 && coeffHalf (e.1 % 2 ^ 24) == s.mem.coeffSet).foldl
    (fun s e =>
      let r := seeWord 9 (e.1 % 2 ^ 24) 9 s
      if r.1.isNone then poisonCoeff (e.1 % 2 ^ 24) r.2 else r.2) s

/-- RX_FRAME_START: the frame before has ended, its settings are replaced, and a frame begins. -/
def execRxFrameStart (m : RxMeasure) (s : State) : Host.Outcome State Fault Refusal :=
  .next <|
    if s.codeP then
      if s.rx.acq = 0 then applyDispersion (commitRx (heldSync s))
      else beginFrame m (applyDispersion (commitRx (endFrame m (readCoeffs (feedCodes m.codes s)))))
    else s

end Sys2Proof.Machine
end

