-- ==== Sys2Proof/Machine/Trellis.lean ====
section
/-!
DEFINITION. The trellis engine (R231): windowed max-log-MAP over the inner trellis (R149) and the
outer trellis (R145, R146), the interleaver between them (R148), and a slot's soft values as words
of the block store (R233).
-/

namespace Sys2Proof.Machine

/-! ### Trellises (R145, R149) -/

/-- A branch: from and to a state, with the bits it carries. -/
structure Branch where
  src : Nat
  dst : Nat
  bits : List Bool
  deriving DecidableEq, Repr

/-- Input v and output w; the state holds w(x - 1), w(x - 2). -/
def innerTrellis : List Branch :=
  (List.range 4).flatMap fun s => [false, true].map fun v =>
    let w := v != (s.testBit 1 != s.testBit 0)
    { src := s, dst := 2 * b2n w + s / 2, bits := [v, w] }

/-- Input a and outputs p1, p2; the state holds a(i - 1) to a(i - 4). -/
def outerTrellis : List Branch :=
  (List.range 16).flatMap fun s => [false, true].map fun a =>
    let p1 := a != (s.testBit 1 != s.testBit 0)
    let p2 := (a != s.testBit 3) != (s.testBit 2 != s.testBit 0)
    { src := s, dst := 8 * b2n a + s / 2, bits := [a, p1, p2] }

/-! ### Max-log metrics -/

/-- A metric below every one that a reachable state has. -/
def never : Int := -(2 ^ 40)

/-- The largest of some metrics. -/
def bestMetric (l : List Int) : Int := l.foldl max never

/-- The metric of a branch: a positive soft value makes 0 the more likely bit (R214). -/
def branchMetric (soft : List Int) (b : Branch) : Int :=
  ((soft.zip b.bits).map fun e => if e.2 then -e.1 else 0).sum

/-- State metrics over a stage in each direction, for n states. -/
def forwardStep (tr : List Branch) (n : Nat) (soft a : List Int) : List Int :=
  (List.range n).map fun t => bestMetric
    ((tr.filter fun b => b.dst == t).map fun b => a.getD b.src never + branchMetric soft b)
def backwardStep (tr : List Branch) (n : Nat) (soft z : List Int) : List Int :=
  (List.range n).map fun t => bestMetric
    ((tr.filter fun b => b.src == t).map fun b => z.getD b.dst never + branchMetric soft b)

/-- The posterior soft value of each of a stage's bits. -/
def posterior (tr : List Branch) (soft a z : List Int) : List Int :=
  let ms := tr.map fun b => (b.bits, a.getD b.src never + branchMetric soft b + z.getD b.dst never)
  (List.range soft.length).map fun k =>
    bestMetric ((ms.filter fun m => !m.1.getD k false).map fun m => m.2) -
      bestMetric ((ms.filter fun m => m.1.getD k false).map fun m => m.2)

/-- One window lane: every stage's posteriors, the state metrics at the window's end and those at
its start. -/
def sweep (tr : List Branch) (n : Nat) :
    List Int → List Int → List (List Int) → List (List Int) × List Int × List Int
  | a, z, [] => ([], a, z)
  | a, z, soft :: l =>
    let r := sweep tr n (forwardStep tr n soft a) z l
    (posterior tr soft a r.2.2 :: r.1, r.2.1, backwardStep tr n soft r.2.2)

/-- Lists of `size` stages, the last one shorter. -/
def windowsOf (size : Nat) (l : List (List Int)) : List (List (List Int)) :=
  ((List.range 16).map fun i => (l.drop (i * size)).take size).filter fun w => !w.isEmpty

/-- State metrics of n states that are all equal, and those of the zero state alone. -/
def equalMetrics (n : Nat) : List Int := List.replicate n 0
def zeroMetrics (n : Nat) : List Int := 0 :: List.replicate (n - 1) never

/-- Every window lane over windows of `size` stages, from the metrics at their starts and ends and at
the trellis's own end: the posteriors, and the metrics that the lanes leave at the boundaries. -/
def lanesPass (tr : List Branch) (n size : Nat) (last : List Int) (edges : List (List Int × List Int))
    (softs : List (List Int)) : List (List Int) × List (List Int × List Int) :=
  let ws := windowsOf size softs
  let k := ws.length
  let rs := (ws.zip (List.range k)).map fun e =>
    let b := edges.getD e.2 (equalMetrics n, equalMetrics n)
    sweep tr n (if e.2 = 0 then zeroMetrics n else b.1) (if e.2 + 1 = k then last else b.2) e.1
  (rs.flatMap fun r => r.1,
    (List.range k).map fun i =>
      ((if i = 0 then equalMetrics n else (rs.getD (i - 1) ([], [], [])).2.1),
        (rs.getD (i + 1) ([], [], [])).2.2))

/-- A pass: the boundaries start from the metrics that the previous iteration left. Before the first
there are none, and the lanes find them from metrics that are all equal (DESIGN CHOICE, log 127). -/
def pass (tr : List Branch) (n size : Nat) (last : List Int) (edges : List (List Int × List Int))
    (softs : List (List Int)) : List (List Int) × List (List Int × List Int) :=
  lanesPass tr n size last
    (if edges.isEmpty then (lanesPass tr n size last [] softs).2 else edges) softs

/-! ### An iteration (R231, R232) -/

/-- A soft value held in five bits, -15 to +15 (R214, R233). -/
def saturate5 (v : Int) : Int := clampInt (-15) 15 v

/-- The inner pass: channel LLRs and the extrinsics by outer position; the new extrinsics, which
the deinterleaver writes to position f(x), and the window metrics. -/
def innerPass (edges : List (List Int × List Int)) (llrs ext : List Int) :
    List Int × List (List Int × List Int) :=
  let e := ext.toArray
  let prior := (List.range 16384).map fun x => e.getD (interleave x) 0
  let r := pass innerTrellis 4 1024 (equalMetrics 4) edges (List.zipWith (fun p l => [p, l]) prior llrs)
  let soft := List.zipWith (fun q p => saturate5 (q.getD 0 0 - p)) r.1 prior
  (((soft.zip (List.range 16384)).foldl (fun a e => a.setIfInBounds (interleave e.2) e.1)
    (Array.replicate 16384 (0 : Int))).toList, r.2)

/-- The soft inputs of the outer stages: nothing for a(i), and 0 for a p2 that was removed. -/
def outerSofts (k m : Nat) : Nat → Nat → List Int → List (List Int)
  | 0, _, _ => []
  | n + 1, i, l =>
    if kept k m i then [0, l.getD 0 0, l.getD 1 0] :: outerSofts k m n (i + 1) (l.drop 2)
    else [0, l.getD 0 0, 0] :: outerSofts k m n (i + 1) (l.drop 1)

/-- The outer pass: from the inner extrinsics, the outer ones by position of u, the posteriors of
a(0) to a(K - 1), and the window metrics. -/
def outerPass (code : Nat) (edges : List (List Int × List Int)) (ext : List Int) :
    List Int × List Int × List (List Int × List Int) :=
  let k := outerBits code
  let m := keptBits code
  let softs := outerSofts k m k 0 ext
  let r := pass outerTrellis 16 ((k + 15) / 16) (zeroMetrics 16) edges softs
  let rows := (r.1.zip softs).zip (List.range k)
  (rows.flatMap fun e =>
      let p1 := saturate5 (e.1.1.getD 1 0 - e.1.2.getD 1 0)
      if kept k m e.2 then [p1, saturate5 (e.1.1.getD 2 0 - e.1.2.getD 2 0)] else [p1],
    r.1.map fun q => q.getD 0 0, r.2)

/-- What an iteration leaves: the extrinsics, the hard decisions on a(0) to a(K - 1), and the window
metrics of both trellises. -/
structure Iteration where
  ext : List Int
  hard : List Bool
  inner : List (List Int × List Int)
  outer : List (List Int × List Int)

/-- An inner pass followed by an outer pass. A posterior of 0 is a tie that the spec leaves open. -/
def iterate (code : Nat) (b : DecBlock) (llrs ext : List Int) : Iteration :=
  let i := innerPass b.inner llrs ext
  let o := outerPass code b.outer i.1
  { ext := o.1, inner := i.2, outer := o.2.2
    hard := (o.2.1.zip (List.range o.2.1.length)).map fun e =>
      if e.1 = 0 then Config.tieBit b.seq b.done e.2 else decide (e.1 < 0) }

/-! ### Bits and soft values in memory words -/

/-- Bits as 128-bit words, bit i of a word the i-th, the last word filled with zeros. -/
def bitWords (n : Nat) (bits : List Bool) : List (BitVec 128) :=
  (pieces 128 n bits).map fun l => BitVec.ofNat 128 (l.foldr (fun b v => b2n b + 2 * v) 0)

def wordBits (ws : List (BitVec 128)) (n : Nat) : List Bool :=
  (ws.flatMap fun w => (List.range 128).map fun i => w.getLsbD i).take n

/-- Five-bit values one after the other, as half a slot's 640 words, and back. -/
def softWords (l : List Int) : List (BitVec 128) :=
  bitWords 640 (l.flatMap fun v => (List.range 5).map fun i => (wrapInt 5 v).testBit i)
def wordSofts (ws : List (BitVec 128)) : List Int :=
  (pieces 5 16384 (wordBits ws 81920)).map fun l => signed 5 (l.foldr (fun b v => b2n b + 2 * v) 0)

end Sys2Proof.Machine
end

