-- ==== Sys2Proof/Machine/Fabric.lean ====
section
/-!
DEFINITION. The decoder fabric: the block store's slots (R233), dispatch (R236), iterations and
their account (R237, R238), the choice inside a churn (R240), the steal ring (R241, R242, R255), the
vat's writes (R244), churn dumps (R253, R254), vat poison (R256), service (R258, R259), the commands
of R260 and the management fabric (R243).
-/

namespace Sys2Proof.Machine

/-! ### Blocks -/

def findBlock (b : Quad) (s : State) : Option DecBlock := s.dec.blocks.find? fun x => x.seq = b

def modBlock (b : Quad) (f : DecBlock → DecBlock) (s : State) : State :=
  s.onDec fun d => { d with blocks := d.blocks.map fun x => if x.seq = b then f x else x }

/-- The churn whose slot the block holds; a block in transit still holds its victim's. -/
def Place.home : Place → Option Nat
  | .none => Option.none
  | .waiting c => some c
  | .running c => some c
  | .transit v _ _ => some v
  | .final c => some c

/-- Slots of churn c that are not FREE. -/
def slotsUsed (d : Dec) (c : Nat) : Nat :=
  (d.blocks.filter fun b => b.place.home == some c).length +
    (d.blocks.filter fun b => match b.place with | .transit _ t _ => t == c | _ => false).length

/-- Engines of churn c with a block, and engines that wait for a transfer. -/
def enginesBusy (d : Dec) (c : Nat) : Nat := (d.blocks.filter fun b => b.place == .running c).length
def enginesHeld (d : Dec) (c : Nat) : Nat :=
  enginesBusy d c +
    (d.blocks.filter fun b => match b.place with | .transit _ t _ => t == c | _ => false).length

def freeEngine (s : State) (c : Nat) : Bool := decide (enginesHeld s.dec c < 20)
def freeSlot (s : State) (c : Nat) : Bool := decide (slotsUsed s.dec c < 64)

/-- The dispatcher and thieves may use the churn (R259 step 1). -/
def usable (s : State) (c : Nat) : Bool := (churnAt s c).serves && (churnAt s c).draining.isEmpty

def churnBase (c : Nat) : Nat := 0xC1000 + 0x400 * c

/-! ### The block store (R233, R252) -/

/-- The slots of churn c that are not FREE, by number. -/
def heldSlots (d : Dec) (c : Nat) : List Nat :=
  d.blocks.flatMap fun b =>
    (if b.place.home == some c then [b.slot] else []) ++
      (match b.place with | .transit _ t _ => if t == c then [b.toSlot] else [] | _ => [])

/-- The free slot that churn c gives a block: the lowest. -/
def nextSlot (d : Dec) (c : Nat) : Nat :=
  ((List.range 64).find? fun k => !(heldSlots d c).contains k).getD 0

/-- The first of a slot's 1,280 words: 640 of channel LLRs, then 640 of extrinsics. -/
def slotAddr (c k : Nat) : Nat := c * 2 ^ 17 + k * 1280

/-- Checked reads of `n` words that stop at the first uncorrectable one. -/
def readUntil (g det : Nat) : Nat → Nat → State → Option (List (BitVec 128)) × State
  | _, 0, s => (some [], s)
  | a, n + 1, s =>
    let r := seeWord g a det s
    match r.1 with
    | none => (none, r.2)
    | some d => let rs := readUntil g det (a + 1) n r.2; (rs.1.map fun ds => d :: ds, rs.2)

/-- The words of slot k of churn c, as an engine or a transfer reads them. -/
def readSlot (c k : Nat) (s : State) : Option (List (BitVec 128)) × State :=
  readUntil 0 9 (slotAddr c k) 1280 s

/-! ### Finality (R237) -/

/-- What each cause counts and raises. -/
def countCause (b : DecBlock) (k : Cause) (s : State) : State :=
  match k with
  | .fault => errAdd 0xC0070 1 s
  | .overflow => raiseLimited (216 * 2 ^ 16) 216 0 (errAdd 0xC0078 1 s)
  | .wheySkip => s
  | .passed => statAdd (0xC0100 + 8 * (b.done - 1)) 1 s
  | .maxIter => raiseLimited (210 * 2 ^ 16) 210 0 (errAdd 0xC0050 1 s)
  | .deadline =>
    raiseLimited (209 * 2 ^ 16) 209 0
      ((if b.refused then errAdd 0xC0048 1 else id) (errAdd 0xC0040 1 s))

/-- A block becomes final. In a churn it waits in its slot for the vat write, unless a fault
ended it. -/
def finalize (b : Quad) (k : Cause) (s : State) : State :=
  match findBlock b s with
  | none => s
  | some x =>
    if x.cause.isSome then s
    else
      let s := countCause x k s
      let s := match x.place.home with
        | some c => statAdd (churnBase c + 0x008) 1 s
        | none => s
      modBlock b (fun x => { x with
        cause := some k
        place := if k = .fault then .none else match x.place.home with
          | some c => .final c
          | none => .none }) s

/-- Decoder cycles of an engine of churn c (R264, R472). -/
def engineCycles (c n : Nat) (s : State) : State :=
  noteMany n 0x105 c 0 (statAdd (churnBase c + 0x020) n s)

/-- The cycles that an engine spends in a pass that it abandons now (R264). -/
def abandonPass (b : DecBlock) (s : State) : State :=
  match b.place with
  | .running c => engineCycles c (min 1024 ((s.dec.now - b.startAt) * 304 / (s.prof.rate * 63))) s
  | _ => s

/-- An event of a decoder block; the address of a block that no churn took is open. -/
def noteBlock (code : Nat) (b : DecBlock) (churn : Option Nat) (s : State) : State :=
  match churn with
  | some c => note code c b.seq.toNat s
  | none => note code (drawFree s).1.toNat b.seq.toNat (drawFree s).2

/-- A fault takes a block that may already be final for another cause (R253, R256). -/
def faultBlock (b : Quad) (s : State) : State :=
  match findBlock b s with
  | none => s
  | some x =>
    let s := abandonPass x s
    if x.cause.isNone then finalize b .fault s
    else if x.cause = some .fault then s
    else modBlock b (fun x => { x with cause := some .fault, place := .none }) (errAdd 0xC0070 1 s)

/-! ### Starting work (R238, R240) -/

/-- R238 lets an engine start the block's next iteration. -/
def budgetOk (s : State) (b : DecBlock) : Bool :=
  decide (b.done + 1 ≤ s.dec.cfg.iterMin) || decide (16 ≤ s.dec.account)

/-- An engine of churn c starts the next iteration of a block. -/
def startBlock (now c : Nat) (b : Quad) (s : State) : State :=
  note 0x102 c b.toNat <| statAdd 0xC0038 1 (modBlock b (fun x => { x with
    place := .running c, refused := false, stolen := false, startAt := now })
    (s.onDec fun d => { d with account := max (-32768) (d.account - 16) }))

/-- WAITING blocks of a churn, oldest first. -/
def waitingIn (s : State) (c : Nat) : List DecBlock :=
  s.dec.blocks.filter fun b => b.place == .waiting c

/-- A free engine of churn c goes through its WAITING blocks: those the account refuses are
marked, and the first it may start is started. The flag says that one was. -/
def takeOwn (now c : Nat) : List DecBlock → State → Bool × State
  | [], s => (false, s)
  | b :: l, s =>
    if tooLate s now 0 b then takeOwn now c l s
    else if budgetOk s b then (true, startBlock now c b.seq s)
    else takeOwn now c l (modBlock b.seq (fun x => { x with refused := true }) s)

/-- The free engines of churn c choose, at most n of them. -/
def fillOwn (now c : Nat) : Nat → State → State
  | 0, s => s
  | n + 1, s =>
    if freeEngine s c then
      let r := takeOwn now c (waitingIn s c) s
      if r.1 then fillOwn now c n r.2 else r.2
    else s

/-! ### The steal ring (R241, R242) -/

/-- Hops from victim v to thief c. -/
def ringHops (v c : Nat) : Nat := (v + 32 - c) % 32

/-- The hops a transfer occupies: hop h joins churn h to churn h - 1. -/
def transferPath (v c : Nat) : List Nat := (List.range (ringHops v c)).map fun i => (v + 32 - i) % 32

/-- The hops held by transfers on the move. -/
def busyHops (d : Dec) : List Nat :=
  d.blocks.flatMap fun b => match b.place with
    | .transit v c true => transferPath v c
    | _ => []

/-- Ring cycles of a transfer. -/
def transferCycles (v c : Nat) : Nat := 160 + ringHops v c

/-- Start a waiting transfer whose hops are all free; too late, it is dropped. -/
def startTransfer (now : Nat) (s : State) (b : DecBlock) : State :=
  match b.place with
  | .transit v c false =>
    if (transferPath v c).any fun h => (busyHops s.dec).contains h then s
    else if tooLate s now (decoderCycles s (transferCycles v c)) b then
      modBlock b.seq (fun x => { x with place := .waiting v }) s
    else modBlock b.seq (fun x => { x with place := .transit v c true, startAt := now }) s
  | _ => s

/-- Waiting transfers are served in order of arrival: each in turn starts if its hops are free, so that a
younger one takes a hop that an older one, which still lacks another, also needs (R241; DESIGN CHOICE, log
172). -/
def startTransfers (now : Nat) (s : State) : State := s.dec.blocks.foldl (startTransfer now) s

/-- The block a thief would take from churn v: the oldest waiting one not stolen since it ran. -/
def stealable (s : State) (v : Nat) : Option DecBlock := (waitingIn s v).find? fun b => !b.stolen

/-- The better victim for thief c: earlier arrival, then fewer hops. -/
def betterVictim (c : Nat) (p q : Nat × DecBlock) : Nat × DecBlock :=
  if q.2.arrival < p.2.arrival ∨ (q.2.arrival = p.2.arrival ∧ ringHops q.1 c < ringHops p.1 c) then q
  else p

/-- The victim of R242 and its block. -/
def victim (s : State) (c : Nat) : Option (Nat × DecBlock) :=
  let cands := churns.filterMap fun v =>
    if v != c && usable s v then (stealable s v).map fun b => (v, b) else none
  match cands with
  | [] => none
  | p :: l => some (l.foldl (betterVictim c) p)

/-- A busy engine of churn v has a pass that ends within STEAL_GAIN cycles. -/
def gainHolds (s : State) (now v : Nat) : Bool :=
  s.dec.blocks.any fun b =>
    b.place == .running v &&
      (let run : Rat := ((now - b.startAt : Nat) : Rat)
       let pass := decoderCycles s 512
       let rest := if run < pass then pass - run else 2 * pass - run
       decide (rest ≤ decoderCycles s s.dec.cfg.stealGain.toNat))

/-- One free engine of churn c tries to steal. The flag says that it did. -/
def stealOne (now c : Nat) (s : State) : Bool × State :=
  if !freeSlot s c then (false, s)
  else match victim s c with
    | none => (false, s)
    | some (v, b) =>
      if gainHolds s now v || tooLate s now (decoderCycles s (transferCycles v c)) b then (false, s)
      else
        let k := nextSlot s.dec c
        (true, startTransfers now
          (modBlock b.seq (fun x => { x with place := .transit v c false, toSlot := k }) s))

/-- The free engines of churn c steal, at most n of them. -/
def stealFor (now c : Nat) : Nat → State → State
  | 0, s => s
  | n + 1, s =>
    if freeEngine s c && (waitingIn s c).isEmpty then
      let r := stealOne now c s
      if r.1 then stealFor now c n r.2 else s
    else s

/-- Everything free engines and free hops can take up now: transfers that wait, then each churn's
own blocks, then steals, churns in ascending order. -/
def schedule (s : State) : State :=
  let now := s.dec.now
  let s := startTransfers now s
  let s := churns.foldl (fun s c => if (churnAt s c).serves then fillOwn now c 20 s else s) s
  let s := if s.dec.cfg.stealEnable then
      churns.foldl (fun s c => if usable s c then stealFor now c 20 s else s) s
    else s
  settleFabricLevels s

/-- An event at an ADC sample count. -/
def atSample (now : Nat) (s : State) : State := s.onDec fun d => { d with now := max d.now now }

/-! ### Arrival (R235, R236) -/

/-- An accepted configuration takes effect. A change of the receive delay starts the time
measurements again (R260, R343). -/
def applyDecCfg (c : DecCfg) (s : State) : State :=
  let old := (s.dec.cfg.fixed, s.dec.appliedDeadline)
  let s := settleDecoder (s.onDec fun d => { d with cfg := c })
  if old = (s.dec.cfg.fixed, s.dec.appliedDeadline) then s else drxChanged s

/-- Accepted OP_DEC_CONFIG commands commit at the first block of a frame. -/
def commitDecCfg (s : State) : State :=
  let ps := s.dec.cfgPend
  ps.foldl (fun s p => commitDone p.1 [] (applyDecCfg p.2 s)) (s.onDec fun d => { d with cfgPend := [] })

/-- The detector has decided whey for the frame. -/
def wheyDecided (s : State) (f : Nat) : Bool := s.rx.decisions.any fun d => d.1 == f && !d.2

/-- The first churn after last_c, with wrap, that is usable and has a free slot. -/
def dispatchTo (s : State) : Option Nat :=
  ((List.range 32).map fun i => (s.dec.lastC + 1 + i) % 32).find? fun c => usable s c && freeSlot s c

/-- Place the arrived block (the pseudocode of R236): its LLRs go into a free slot of the churn, and
its extrinsics become zero. -/
def dispatch (b : DecBlock) (llrs : List Int) (s : State) : State :=
  if 2 ≤ b.index && wheyDecided s b.frame && s.dec.cfg.iterWhey == 0 then
    finalize b.seq .wheySkip (noteBlock 0x101 b none s)
  else match dispatchTo s with
    | none => finalize b.seq .overflow (noteBlock 0x101 b none s)
    | some c =>
      let s := noteBlock 0x101 b (some c) s
      let k := nextSlot s.dec c
      let s := writeWords 0 (slotAddr c k) (softWords llrs ++ List.replicate 640 0) s
      modBlock b.seq (fun x => { x with place := .waiting c, slot := k, churn := some c })
        (s.onDec fun d => { d with lastC := c })

/-- A block's arrival: the sample at which its last data symbol was sampled, at a position between two where
the spec does not round it, plus the latency of V1 to V4 (R235). -/
def arrivalOf (s : State) (pos : Rat) : Nat :=
  (openRound (pos + lineRxPs s * (s.prof.rate * 28125 : Nat) / (10 ^ 8 : Nat))).toNat

/-- The block with its arrival. -/
def newBlock (s : State) (now : Nat) (llrs : List Int) : DecBlock where
  seq := s.dec.nextSeq
  frame := s.dec.frame
  index := s.dec.index
  arrival := now
  deadline := deadlineOf s now
  limit := if 2 ≤ s.dec.index && wheyDecided s s.dec.frame then s.dec.cfg.iterWhey
    else s.dec.cfg.iterMax
  hard := Config.channelDecisions llrs

/-- A block of LLRs reaches the dispatcher: the vat entry is reserved, the account credited, and the
block placed. -/
def arrive (now arrival : Nat) (llrs : List Int) (s : State) : State :=
  let s := atSample now (if s.dec.index = 0 then commitDecCfg s else s)
  let b := newBlock s arrival llrs
  let last := decide (frameBlocks (rxProf s) ≤ s.dec.index + 1)
  let s := s.onDec fun d => { d with
    nextSeq := d.nextSeq + 1, blocks := d.blocks ++ [b]
    frame := if last then d.frame + 1 else d.frame
    index := if last then 0 else d.index + 1
    account := min (d.account + d.applied) ((d.cfg.bank * 16 : Nat) : Int) }
  schedule (dispatch b llrs s)

/-- The datapath hands over the LLRs of its next block. -/
def takeLlrs (s : State) : State :=
  s.onRx fun r => { r with path := { r.path with llrs := r.path.llrs.drop 16384, ends := r.path.ends.drop 1 } }

/-- BLOCK_ARRIVAL: at sample count `now` V4 hands over the next block, while the decoder runs in A5 and A6,
once the codes that have come give all its LLRs and its arrival has come. -/
def execBlockArrival (now : Nat) (codes : List FourCodes) (s : State) :
    Host.Outcome State Fault Refusal :=
  .next <|
    if s.codeP && decide (5 ≤ s.rx.acq) then
      let s := feedCodes codes s
      let a := arrivalOf s (s.rx.path.ends.headD 0)
      if 16384 ≤ s.rx.path.llrs.length ∧ a ≤ now then
        arrive now a (s.rx.path.llrs.take 16384) (takeLlrs s)
      else s
    else s

/-! ### Dumps (R253, R254) -/

/-- The churns a block touches. -/
def Place.touches (c : Nat) : Place → Bool
  | .none => false
  | .transit v t _ => v == c || t == c
  | p => p.home == some c

/-- Steps 1 to 3: every block the churn holds becomes final with cause FAULT. -/
def dumpChurn (c : Nat) (s : State) : State :=
  let x := churnAt s c
  if x.dumping then s
  else
    let now := s.evt.period
    let again := match x.lastDump with
      | some p => decide ((now - p).toNat < secondPeriods)
      | none => false
    let held := s.dec.blocks.filter fun b => b.place.touches c
    let s := errAdd (churnBase c + 0x028) 1 (onChurn c (fun x => { x with
      dumping := true, again := again, lastDump := some now }) s)
    let s := raise 212 c (held.foldl (fun s b => faultBlock b.seq s) s)
    schedule (settleBudget s)

/-! ### Iterations (R232, R237) -/

/-- Positions at which the sign of a channel LLR disagrees with the re-encoded bit. -/
def signErrors (llrs : List Int) (w : List Bool) : Nat :=
  ((llrs.zip w).filter fun e => if e.2 then decide (0 < e.1) else decide (e.1 < 0)).length

/-- The pre-FEC counts of a block that passed. -/
def countPrefec (llrs : List Int) (code : Nat) (info : List Bool) (s : State) : State :=
  statAdd 0xC0068 16384 (statAdd 0xC0060 (signErrors llrs (encodeBlock code info)) s)

/-- A block that passes its CRC in A5 counts in the attempt that it belongs to (R218). -/
def countAttempt (b : DecBlock) (s : State) : State :=
  if s.rx.acq = 5 ∧ s.rx.firstFrame ≤ b.frame then
    s.onRx fun r => { r with crcPassed := r.crcPassed + 1 }
  else s

/-- What the end of an iteration makes of its block, `x` with the iteration counted, from the
channel LLRs and the hard decisions on a(0) to a(K - 1). -/
def afterIteration (now c : Nat) (x : DecBlock) (llrs : List Int) (decisions : List Bool)
    (s : State) : State :=
  let code := (rxProf s).code
  if passesCrc (blockFrameBits code) decisions then
    finalize x.seq .passed (countAttempt x
      (countPrefec llrs code (decisions.take (blockFrameBits code)) s))
  else if x.limit ≤ x.done then finalize x.seq .maxIter s
  else if tooLate s now 0 x then finalize x.seq .deadline s
  else modBlock x.seq (fun x => { x with place := .waiting c }) s

/-- The block as an iteration leaves it. -/
def iterated (code : Nat) (it : Iteration) (x : DecBlock) : DecBlock :=
  { x with
    done := x.done + 1, hard := it.hard.take (blockFrameBits code)
    inner := it.inner, outer := it.outer }

/-- The engine of churn c ends an iteration of a block on the words of its slot. -/
def endIteration (now c : Nat) (x : DecBlock) (ws : List (BitVec 128)) (s : State) : State :=
  let code := (rxProf s).code
  let llrs := wordSofts (ws.take 640)
  let it := iterate code x llrs (wordSofts (ws.drop 640))
  let s := writeWords 0 (slotAddr c x.slot + 640) (softWords it.ext) s
  let s := engineCycles c 1024 (modBlock x.seq (iterated code it) s)
  schedule (afterIteration now c (iterated code it x) llrs it.hard s)

/-- `n` decoder cycles have passed since the block's present work started. -/
def workDone (n now : Nat) (x : DecBlock) (s : State) : Bool :=
  decide (decoderCycles s n ≤ ((max s.dec.now now + 1 - x.startAt : Nat) : Rat))

/-- ITERATION_END: the outer pass of a running block ends, 1,024 cycles after its iteration started
(R231). A word of its slot that cannot be corrected makes the churn dump instead. -/
def execIterationEnd (now : Nat) (b : BitVec 64) (c : Nat) (s : State) :
    Host.Outcome State Fault Refusal :=
  .next <|
    match findBlock b s with
    | some x =>
      if x.place = .running c && workDone 1024 now x s then
        let r := readSlot c x.slot (atSample now s)
        match r.1 with
        | some ws => endIteration now c x ws r.2
        | none => dumpChurn c r.2
      else s
    | none => s

/-- BLOCK_DEADLINE: the deadline of a block that does not run comes within 0.770 µs. -/
def execBlockDeadline (now : Nat) (b : BitVec 64) (s : State) : Host.Outcome State Fault Refusal :=
  .next <|
    match findBlock b s with
    | some x =>
      let stands := match x.place with
        | .waiting _ => true
        | .transit _ _ m => !m
        | _ => false
      if stands && tooLate s now 0 x then schedule (finalize b .deadline (atSample now s)) else s
    | none => s

/-- A stolen block lands in the thief's slot, and its next iteration starts if R238 lets it. -/
def landSteal (now v c : Nat) (x : DecBlock) (ws : List (BitVec 128)) (s : State) : State :=
  let s := modBlock x.seq (fun y => { y with slot := x.toSlot, churn := some c })
    (writeWords 0 (slotAddr c x.toSlot) ws s)
  let s := statAdd (churnBase v + 0x018) 1 (statAdd (churnBase c + 0x010) 1 (statAdd 0xC0058 1 s))
  let s := note 0x104 c x.seq.toNat (carry 36 20480 s)
  if budgetOk s x then startBlock now c x.seq s
  else modBlock x.seq (fun x => { x with place := .waiting c, stolen := true, refused := true }) s

/-- STEAL_TRANSFER_END: the transfer's cycles have passed (R241); the block is in the thief, and its next iteration starts if R238 lets it;
a parity error fails it and frees both slots (R255), and a word of the victim's slot that cannot be
corrected dumps the victim (R253). -/
def execStealTransferEnd (now : Nat) (b : BitVec 64) (parityError : Bool) (s : State) :
    Host.Outcome State Fault Refusal :=
  .next <|
    match findBlock b s with
    | some x =>
      match x.place with
      | .transit v c true =>
        if workDone (transferCycles v c) now x s then
          let s := atSample now s
          let r := readSlot v x.slot s
          match parityError, r.1 with
          | true, _ => schedule (raise 215 v (faultBlock b s))
          | false, none => dumpChurn v r.2
          | false, some ws => schedule (landSteal now v c x ws r.2)
        else s
      | _ => s
    | none => s

/-! ### The settling vat (R244, R256) -/

/-- The first vat word of a block's entry: entries are used in turn. -/
def entryAddr (p : Profile) (b : Quad) : Nat := b.toNat % vatEntries p * vatEntryWords p

/-- VAT_WRITE_END: the entry is written whole and the slot becomes FREE. -/
def execVatWriteEnd (now : Nat) (b : BitVec 64) (s : State) : Host.Outcome State Fault Refusal :=
  .next <|
    match findBlock b s with
    | some x =>
      match x.place with
      | .final _ =>
        let ws := bitWords (vatEntryWords (rxProf s)) (x.hard)
        let s := writeWords 1 (entryAddr (rxProf s) b) ws (atSample now s)
        schedule (modBlock b (fun x => { x with place := .none, written := true }) s)
      | _ => s
    | none => s

/-- The block that has reserved the vat entry of a word. -/
def entryOwner (s : State) (a : Nat) : Option DecBlock :=
  let e := a / vatEntryWords (rxProf s)
  s.dec.blocks.find? fun b => b.seq.toNat % vatEntries (rxProf s) == e

/-- Poison in a vat entry (R256, R449): its block fails, and whatever works on it stops. -/
def vatPoison (a : Nat) (s : State) : State :=
  match entryOwner s a with
  | none => s
  | some b =>
    if b.cause = some .fault then s else schedule (raise 224 0 (faultBlock b.seq s))

/-! ### Dumped and returned churns (R253, R254, R259) -/

/-- The words of a churn's bank (R463). -/
def invalidateBank (c : Nat) (s : State) : State :=
  invalidateRange 0 (c * 2 ^ 17) (c * 2 ^ 17 + bankWords) s

/-- A returned churn that serves ends its command (R259). -/
def endReturn (c : Nat) (s : State) : State :=
  let x := churnAt s c
  if x.serves then
    x.returning.foldl (fun s j => commitDone j [] s) (onChurn c (fun x => { x with returning := [] }) s)
  else s

/-- CHURN_ONLINE: the bank's valid bits are cleared; the churn returns to service or is held
out. -/
def execChurnOnline (c : Nat) (s : State) : Host.Outcome State Fault Refusal :=
  .next <|
    let x := churnAt s c
    if x.dumping then
      let s := onChurn c (fun x => { x with
        dumping := false, offFault := x.offFault || x.again, again := false }) (invalidateBank c s)
      let s := if x.again then raise 213 c s
        else if (churnAt s c).serves then raise 214 c s else s
      schedule (endReturn c (settleBudget s))
    else if !x.returning.isEmpty then
      let s := onChurn c (fun x => { x with offCmd := false, offFault := false }) (invalidateBank c s)
      let s := if (churnAt s c).serves then raise 214 c s else s
      schedule (endReturn c (settleBudget s))
    else s

/-! ### Service (R258, R259) -/

/-- Start group g: churns 4g to 4g + 3. -/
def startChurnGroup (g : Nat) (s : State) : State :=
  let cs := (List.range 4).map (4 * g + ·)
  let s := cs.foldl (fun s c => endReturn c (onChurn c (fun x => { x with started := true }) s)) s
  let s := settleBudget s
  let s := if g = 7 then raise 218 0 (s.onDec fun d => { d with allStarted := true }) else s
  schedule s

/-- Every churn leaves service and every held block is discarded without release. -/
def stopFabric (s : State) : State :=
  let s := s.dec.blocks.foldl (fun s b => abandonPass b s) s
  let s := s.onDec fun d => { d with
    blocks := [], index := 0, frame := if d.index = 0 then d.frame else d.frame + 1
    allStarted := false
    churn := tabMap {} (fun x => { x with
      started := false, offFault := x.offFault || (x.dumping && x.again)
      dumping := false, again := false }) d.churn }
  settleFabricLevels (settleBudget (s.onFrm fun f => { f with rxBlocks := [] }))

/-- CHURN_DRAINED: the churn holds no block, leaves service, and the command commits. -/
def execChurnDrained (c : Nat) (s : State) : Host.Outcome State Fault Refusal :=
  .next <|
    let js := (churnAt s c).draining
    if js.isEmpty || slotsUsed s.dec c != 0 then s
    else
      let s := onChurn c (fun x => { x with offCmd := true, draining := [] }) s
      js.foldl (fun s j => commitDone j [] s) (settleBudget (raise 213 c s))

/-! ### Commands (R260) -/

/-- The layouts of R263. -/
def decCfgOf (j : Job) : DecCfg where
  stealGain := (j.param 0).extractLsb' 16 16
  stealEnable := bit (j.param 0) 12
  fixed := bit (j.param 0) 11
  budgetAuto := bit (j.param 0) 10
  iterWhey := fld (j.param 0) 9 8
  iterMin := fld (j.param 0) 7 4 + 1
  iterMax := fld (j.param 0) 3 0 + 1
  budget := fld (j.param 1) 31 16
  deadline := fld (j.param 1) 15 0
  bank := fld (j.param 2) 10 0

def decConfigBody (j : Job) (s : State) : Verdict :=
  let c := decCfgOf j
  match firstRefusal [
    (decide (2 < c.iterWhey) || decide (c.iterMax < c.iterMin), badParam 0),
    (outside 16 256 c.budget || outside 100 6000 c.deadline, badParam 1),
    (c.bank == 0, badParam 2),
    (s.pwr.mode != .ready && s.pwr.mode != .maintenance &&
      (c.fixed != s.dec.cfg.fixed || c.deadline != s.dec.cfg.deadline), refMode s)] with
  | some r => .refuse r
  | none =>
    if s.pwr.mode = .ready then .complete (applyDecCfg c s) []
    else .accept (s.onDec fun d => { d with cfgPend := d.cfgPend ++ [(j.id, c)] })

def execOpDecConfig (j : Nat) (s : State) : Host.Outcome State Fault Refusal :=
  .next (runOp 0x0240 3 decConfigBody j s)

def decChurnBody (j : Job) (s : State) : Verdict :=
  let c := fld (j.param 0) 4 0
  let x := churnAt s c
  if bit (j.param 0) 8 then
    if x.serves then .complete s []
    else .accept (onChurn c (fun x => { x with returning := x.returning ++ [j.id] }) s)
  else if !(churns.any fun o => o != c && usable s o) then .refuse (badParam 0)
  else if x.serves then .accept (onChurn c (fun x => { x with draining := x.draining ++ [j.id] }) s)
  else .complete (raise 213 c (onChurn c (fun x => { x with offCmd := true }) s)) []

def execOpDecChurn (j : Nat) (s : State) : Host.Outcome State Fault Refusal :=
  .next (runOp 0x0241 1 decChurnBody j s)

/-! ### The management fabric (R243) -/

/-- The shares of words 0 to 8. -/
def sharesOf (j : Job) : List Nat := (List.range 9).map fun i => fld (j.param i) 9 0

def fabricCreditsBody (j : Job) (s : State) : Verdict :=
  if 792 < (sharesOf j).sum then .refuse (badParam 8)
  else .accept (s.onDec fun d => { d with sharesPend := d.sharesPend ++ [(j.id, sharesOf j)] })

def execOpFabricCredits (j : Nat) (s : State) : Host.Outcome State Fault Refusal :=
  .next (runOp 0x0120 9 fabricCreditsBody j s)

/-- A request's master holds credit. -/
def holdsCredit (credits : List Nat) (r : FabricReq) : Bool := decide (0 < credits.getD r.master 0)

/-- The oldest of some requests, by the cycle on which each entered the fabric; the first of equals. -/
def oldest : List FabricReq → Option FabricReq
  | [] => none
  | r :: l => some (l.foldl (fun a b => if b.entered < a.entered then b else a) r)

/-- A leaf's oldest request of a cycle, which it forwards, and the ones that stay (R243). -/
def leafOut (cycle : Nat) (l : List FabricReq) : Option FabricReq × List FabricReq :=
  match oldest (l.filter fun r => decide (r.entered ≤ (cycle : Int))) with
  | some r => (some r, l.erase r)
  | none => (none, l)

/-- The leaves of a cycle: leaf P forwards to leaf Q, and leaf Q and the cores' leaf to the top node, each its
oldest request (R243). A leaf forwards one a cycle, and what has reached the top node waits there for its
port (DESIGN CHOICE, log 171). -/
def forward (cycle : Nat) (d : Dec) : Dec :=
  let p := leafOut cycle d.atP
  let q := leafOut cycle (d.atQ ++ p.1.toList)
  let c := leafOut cycle d.atCores
  { d with atP := p.2, atQ := q.2, atCores := c.2, requests := d.requests ++ q.1.toList ++ c.1.toList }

/-- A request enters the fabric at its master's node. -/
def enterFabric (d : Dec) (r : FabricReq) : Dec :=
  if r.master = 0 then { d with requests := d.requests ++ [r] }
  else if r.master = 7 ∨ r.master = 8 then { d with atP := d.atP ++ [r] }
  else if 2 ≤ r.master ∧ r.master ≤ 5 then { d with atCores := d.atCores ++ [r] }
  else { d with atQ := d.atQ ++ [r] }

/-- What a port grants on a cycle at the top node: the oldest request of a master with credit, else the oldest. -/
def grantOf (cycle port : Nat) (d : Dec) : Option FabricReq :=
  let rs := d.requests.filter fun r => r.port == port && decide (r.entered ≤ (cycle : Int))
  oldest (rs.filter (holdsCredit d.credits)) <|> oldest rs

/-- A port carries its beat of a cycle: the request leaves, and its master pays a credit. -/
def grantBeat (cycle : Nat) (d : Dec) (port : Nat) : Dec :=
  match grantOf cycle port d with
  | some r => { d with
      requests := d.requests.erase r
      credits := d.credits.set r.master (d.credits.getD r.master 0 - 1)
      granted := d.granted ++ [(cycle, r)] }
  | none => d

/-- Every target port carries at most one beat on a cycle. -/
def grantCycle (d : Dec) (cycle : Nat) : Dec :=
  let d := forward cycle d
  ((d.requests.map fun r => r.port).eraseDups).foldl (grantBeat cycle) d

/-- The 792 cycles of a window in which these requests entered. -/
def grantWindow (requests : List FabricReq) (d : Dec) : Dec :=
  (List.range 792).foldl grantCycle (requests.foldl enterFabric { d with granted := [] })

/-- The requests that wait at the fabric's nodes. -/
def waitingReqs (d : Dec) : List FabricReq := d.requests ++ d.atP ++ d.atQ ++ d.atCores

/-- The requests that wait count their cycle from the next window's start. -/
def nextWindow (d : Dec) : Dec :=
  let shift := List.map fun (r : FabricReq) => { r with entered := r.entered - 792 }
  { d with
    requests := shift d.requests, atP := shift d.atP, atQ := shift d.atQ, atCores := shift d.atCores }

/-- An event of a request: its master, its privilege and its target (R472). -/
def requestEvent (code : BitVec 12) (times : Nat) (r : FabricReq) : List PmcEvent :=
  if times = 0 then [] else
    [{ code := code, master := BitVec.ofNat 4 r.master, priv := r.priv, addr := r.addr, id := 0
       times := times }]

/-- The cycles of the window on which a request waited before cycle `c`. -/
def waitedUntil (c : Nat) (r : FabricReq) : Nat := ((c : Int) - max 0 r.entered).toNat

/-- What the programmable counters see of a window that has ended: beats granted and cycles waited. -/
def windowEvents (d : Dec) : List PmcEvent :=
  d.granted.flatMap (fun g => requestEvent 0x201 1 g.2 ++ requestEvent 0x202 (waitedUntil g.1 g.2) g.2) ++
    (waitingReqs d).flatMap fun r => requestEvent 0x202 (waitedUntil 792 r) r

/-- FABRIC_CREDIT_WINDOW: the window of 792 cycles, about 1 us, in which the requests entered ends. New shares commit, and every
credit is set back to its share. -/
def execFabricCreditWindow (s : State) (requests : List FabricReq := []) :
    Host.Outcome State Fault Refusal :=
  .next <|
    if notReset s && (!s.codeS || usSince 1 s.dec.windowAt s) then
      let now := s.evt.period
      let s := s.onDec fun d => { grantWindow requests d with windowAt := now }
      let s := (noteEvents (windowEvents s.dec) s).onDec nextWindow
      let ps := s.dec.sharesPend
      let s := ps.foldl (fun s p => commitDone p.1 [] (s.onDec fun d => { d with shares := p.2 }))
        (s.onDec fun d => { d with sharesPend := [] })
      s.onDec fun d => { d with credits := d.shares }
    else s

end Sys2Proof.Machine
end

