-- ==== Sys2Proof/Machine/Integrity.lean ====
section
/-!
DEFINITION. Memory integrity: what poison does in each memory (R449), the scrubber and its laps
(R454 to R456), recovery passes (R457), injected errors (R458), narrow writes (R452) and the
group registers' writes (R450, R456, R460).
-/

namespace Sys2Proof.Machine

/-! ### Consequences (R449) -/

/-- What the memory does when word `a` of group `g` reads poisoned. -/
def consequence (g a : Nat) (s : State) : State :=
  match g with
  | 0 => dumpChurn (a / 2 ^ 17) s
  | 1 => vatPoison a s
  | 2 => coreFault 0 1 s
  | 3 => coreFault 1 1 s
  | 4 => coreFault 2 1 s
  | 5 => coreFault 3 1 s
  | 6 => keyStoreFault a s
  | 9 => poisonCoeff a s
  | _ => s

/-- COEFF_SET_REBUILT: the other set is switched in and the poisoned one invalidated. -/
def execCoeffSetRebuilt (s : State) : Host.Outcome State Fault Refusal :=
  .next <|
    match s.mem.coeffRebuild with
    | some p =>
      if s.codeP then
        (clearCoeffs p (switchCoeffs (!p) s)).onMem fun m => { m with coeffRebuild := none }
      else s
    | none => s

/-! ### Readers -/

/-- The detector code of a memory's own reader (R463). -/
def ownDetector (g : Nat) : Nat := if 2 ≤ g ∧ g ≤ 5 then g else 9

/-- Two bits of a code word of the group, at places that the spec leaves open. -/
def openPair (g : Nat) (v : BitVec 512) : BitVec 137 :=
  let d := groupData g
  let n := d + groupCheck g
  let i := (v.extractLsb' 0 64).toNat % n
  let j := (i + 1 + (v.extractLsb' 64 64).toNat % (n - 1)) % n
  let at' := fun k => 1#137 <<< (if k < d then k else 128 + (k - d))
  at' i ^^^ at' j

/-- An upset beyond repair of a stored word, whose bits are open. -/
def upsetWord (g a : Nat) (s : State) : State :=
  let d := drawFree s
  let c := cellAt d.2 g a
  let mask := BitVec.ofNat 137 (2 ^ groupData g - 1 + (2 ^ groupCheck g - 1) * 2 ^ 128)
  let f := (d.1.extractLsb' 128 137) &&& mask
  let u := { c with flips := f }
  setCell g a (if checkWord g a u = .uncorrectable then u else { c with flips := openPair g d.1 }) d.2

/-- DATAPATH_UE_READ: a reader finds a word beyond repair, or one that is not the word at its address
(R444). A word already poisoned gives its consequence only; an invalid one reads zero. -/
def execDatapathUeRead (g addr : Nat) (s : State) : Host.Outcome State Fault Refusal :=
  .next <|
    let c := cellAt s g addr
    if !(addrOk g addr && groupClocked s g && c.valid) then s
    else if c.poison then consequence g addr s
    else
      let s := if checkWord g addr c = .uncorrectable then s else upsetWord g addr s
      consequence g addr (poisonWord g addr (ownDetector g) false s)

/-! ### Narrow writes (R452) -/

/-- A narrow write is discarded: the word stays poisoned, and the master acts on it (R453). -/
def discardWrite (g a det : Nat) (s : State) : State :=
  consequence g a (raise 68 (memData g det a) (errAdd (memgBase g + 0x30) 1 s))

/-- An entry drains into its word: read, checked, merged and written as a full word. -/
def drainInto (g : Nat) (e : MergeEntry) (s : State) : State :=
  let a := e.addr
  let c := cellAt s g a
  let s := touched g 1 s
  if !c.valid then writeWord g a (e.apply g 0) s
  else if c.poison then discardWrite g a e.master s
  else match checkWord g a c with
    | .good => writeWord g a (e.apply g (readData g a c)) s
    | .correctable =>
      let s := noteError 0x301 g a e.master (errAdd (memgBase g + 0x20) 1 s)
      let s := if logging s g then logCe g a e.master true s else s
      writeWord g a (e.apply g (readData g a c)) s
    | .uncorrectable => discardWrite g a e.master (poisonWord g a e.master true s)

/-- The bits of the bytes that a narrow write names. -/
def enabledBits (b : BitVec 8) : BitVec 128 :=
  (List.range 8).foldl (fun v k => if b.getLsbD k then v ||| (0xFF#128 <<< (8 * k)) else v) 0

/-- The core stores and DMA writes of groups 2 to 5 reach their port in issue order. -/
def portWrites (g : Nat) (ws : List NarrowWrite) (s : State) : State :=
  ws.foldl (fun s w =>
    if addrOk g w.addr && decide (2 ≤ w.master) && decide (w.master ≤ 6) then
      onMerge g (addNarrow w.addr w.master (w.data.setWidth 128) (enabledBits w.bytes)) s
    else s) s

/-- A master has a write that waits behind the eight entries. -/
def masterStalled (g m : Nat) (s : State) : Bool := ((mergeList g s).drop 8).any fun e => e.master == m

/-- The reads of groups 2 to 5 that cores, DMA, the SPI mailbox and the dispatcher make through the port
(R463). A stalled master makes none; a poisoned word has its consequence (R446, R449). -/
def portReads (g : Nat) : List PortRead → State → State
  | [], s => s
  | r :: l, s =>
    if addrOk g r.addr && decide (1 ≤ r.master) && decide (r.master ≤ 8) && r.master != 7 &&
        !masterStalled g r.master s then
      let x := readPort g r.addr r.master s
      let s := x.2.onMem fun m => { m with loaded := m.loaded ++ [x.1.map fun d => d.setWidth 64] }
      portReads g l (if x.1.isNone then consequence g r.addr s else s)
    else portReads g l s

/-- MERGE_DRAIN: the stores, DMA writes and reads that the port of groups 2 to 5 takes first, and then the
entry of the word drains and leaves the buffer. The key store's writes come from its own commands. -/
def execMergeDrain (g addr : Nat) (writes : List NarrowWrite) (reads : List PortRead) (s : State) :
    Host.Outcome State Fault Refusal :=
  .next <|
    if !(decide (2 ≤ g) && decide (g ≤ 6) && addrOk g addr && groupClocked s g) then s
    else
      let s := if g = 6 then s
        else portReads g reads ((portWrites g writes s).onMem fun m => { m with loaded := [] })
      match narrowEntry g addr s with
      | some e => drainInto g e (dropMerge g addr s)
      | none => s

/-! ### The scrubber (R454 to R456) -/

/-- The scrubber's check of one word. -/
def scrubWord (g a : Nat) (s : State) : State :=
  let c := cellAt s g a
  if !c.valid || c.poison then s
  else
   let s := touched g 1 s
   match checkWord g a c with
    | .good => s
    | .correctable =>
      let s := if logging s g then logCe g a 7 false s else s
      writeBack g a (noteError 0x301 g a 7 (errAdd (memgBase g + 0x20) 1 s))
    | .uncorrectable => consequence g a (poisonWord g a 7 false s)

/-- The pace of a group's scrubber: a read takes so many 76ths of a TIMESTAMP period (R27, R456). -/
def pace : Nat → Nat
  | 0 => 224 | 1 => 112 | 6 => 1152 | 7 => 5120 | 8 => 5120 | 9 => 256 | 10 => 256 | 11 => 1152 | _ => 288

/-- The lap has run long enough for the scrubber's next read. -/
def scrubDue (s : State) (g : Nat) : Bool :=
  let m := memGrp s g
  decide ((m.scrubAddr + 1) * pace g ≤ (lapPeriods s g + 1) * 76)

/-- The pass has run long enough for its next read, at four times the scrubber's pace (R457). -/
def passDue (s : State) (g : Nat) (p : Pass) : Bool :=
  decide ((p.addr + 1) * pace g ≤ ((s.evt.period - p.start).toNat + 1) * 76 * 4)

/-- SCRUB_READ: the scrubber takes its next read; the last one ends the lap. -/
def execScrubRead (g : Nat) (s : State) : Host.Outcome State Fault Refusal :=
  .next <|
    if decide (g < 12) && groupRuns s g && (memGrp s g).pass.isNone && scrubDue s g then
      let n := (memGrp s g).scrubAddr
      let s := (readAddrs g n).foldl (fun s a => scrubWord g a s) s
      if n + 1 < groupReads g then onGrp g (fun m => { m with scrubAddr := n + 1 }) s
      else endLap g s
    else s

/-- The watchdog's condition: the lap in progress has reached the limit and it has not raised. -/
def lapOver (s : State) (g : Nat) : Bool :=
  !(memGrp s g).lapLong && decide ((memGrp s g).lapLimit.toNat ≤ lapUs s g)

/-- SCRUB_LAP_LONG, once for each lap. -/
def lapWatchdog (g : Nat) (s : State) : State :=
  if lapOver s g then raise 67 g (onGrp g (fun m => { m with lapLong := true }) s) else s

def execScrubLapLong (g : Nat) (s : State) : Host.Outcome State Fault Refusal :=
  .next <| if g < 12 ∧ groupRuns s g then lapWatchdog g s else s

/-! ### Register writes (R450, R456, R460) -/

/-- MEMG_LAP_LIMIT_WRITE: clamped, and in force at once. -/
def writeLapLimit (g : Nat) (w : Word) (s : State) : State :=
  if portsOpen s && decide (g < 12) then
    let v := fld w 19 0
    let v := if v < 100 then 100 else if 1000000 < v then 1000000 else v
    lapWatchdog g (onGrp g (fun m => { m with lapLimit := BitVec.ofNat 20 v }) s)
  else s

def execMemgLapLimitWrite (g : Nat) (w : Word) (s : State) : Host.Outcome State Fault Refusal :=
  .next (writeLapLimit g w s)

/-- LOG_CLEAR: the table is emptied and LOG_OVERFLOW cleared. -/
def clearLog (g : Nat) (s : State) : State :=
  onGrp g (fun m => { m with log := [], logOverflow := false }) s

/-- A field of MEMG_STATUS is written in every mode but RESET. -/
def memgWrite (g : Nat) (f : State → State) (s : State) : State :=
  if portsOpen s && decide (g < 12) then f s else s

def execMemgLogClear (g : Nat) (s : State) : Host.Outcome State Fault Refusal :=
  .next (memgWrite g (clearLog g) s)

def execMemgLogOverflowClear (g : Nat) (s : State) : Host.Outcome State Fault Refusal :=
  .next (memgWrite g (onGrp g fun m => { m with logOverflow := false }) s)

def execMemgClearLaps (g : Nat) (s : State) : Host.Outcome State Fault Refusal :=
  .next (memgWrite g (onGrp g fun m => { m with clearLaps := true }) s)

/-- A write of MEMG_STATUS (R462). -/
def writeMemgStatus (g : Nat) (w : Word) (s : State) : State :=
  memgWrite g (fun s =>
    let s := when (bit w 8) (onGrp g fun m => { m with logOverflow := false }) s
    let s := when (bit w 9) (clearLog g) s
    when (bit w 10) (onGrp g fun m => { m with clearLaps := true }) s) s

/-! ### Recovery passes (R457) -/

/-- A pass ends and its command completes. -/
def endPass (g : Nat) (status : BitVec 8) (s : State) : State :=
  match (memGrp s g).pass with
  | none => s
  | some p =>
    let us := (s.evt.period - p.start).toNat / 250
    let s := finish p.job status 0 [word p.read, word p.ce, word p.ue, word p.invalidated, word us] s
    let s := onGrp g (fun m => { m with pass := none }) s
    raise 70 g (if groupRuns s g then resumeLap g s else s)

/-- OP_RESET has completed the pass's command: the pass ends there (R405, R457). -/
def cutPass (g : Nat) (s : State) : State :=
  if (memGrp s g).pass.isSome then
    let s := onGrp g (fun m => { m with pass := none }) s
    raise 70 g (if groupRuns s g then resumeLap g s else s)
  else s

/-- A word of the group that CLEAR invalidates. -/
def clearable (s : State) (g a : Nat) : Bool :=
  g == 9 || g == 10 || (g == 1 && (entryOwner s a).isNone)

/-- A pass's check of one word: correctable errors, uncorrectable ones found, the state. -/
def passWord (g a : Nat) (s : State) : Nat × Nat × State :=
  let c := cellAt s g a
  let s := touched g 1 s
  if !c.valid then (0, 0, s)
  else if c.poison then (0, 0, consequence g a s)
  else match checkWord g a c with
    | .good => (0, 0, s)
    | .correctable => (1, 0, foundCe g a 10 s)
    | .uncorrectable => (0, 1, consequence g a (poisonWord g a 10 false s))

/-- The pass reads a word, counts what it finds, and with CLEAR invalidates it if it is poisoned. -/
def passStep (g a : Nat) (q : Pass × State) : Pass × State :=
  let r := passWord g a q.2
  let inv := q.1.clear && (cellAt r.2.2 g a).poison && clearable r.2.2 g a
  ({ q.1 with
      read := q.1.read + 1, ce := q.1.ce + r.1, ue := q.1.ue + r.2.1
      invalidated := q.1.invalidated + b2n inv },
    if inv then invalidateRange g a (a + 1) r.2.2 else r.2.2)

/-- RECOVERY_PASS_READ: the pass takes its next read. -/
def execRecoveryPassRead (g : Nat) (s : State) : Host.Outcome State Fault Refusal :=
  .next <|
    match (memGrp s g).pass with
    | none => s
    | some p =>
      if groupRuns s g && decide (p.addr < groupReads g) && passDue s g p then
        let r := (readAddrs g p.addr).foldl (fun q a => passStep g a q) (p, s)
        onGrp g (fun m => { m with pass := m.pass.map fun _ => { r.1 with addr := p.addr + 1 } }) r.2
      else s

/-- RECOVERY_PASS_END: the last word has been read, or the lap limit has passed twice. -/
def execRecoveryPassEnd (g : Nat) (s : State) : Host.Outcome State Fault Refusal :=
  .next <|
    match (memGrp s g).pass with
    | none => s
    | some p =>
      if groupReads g ≤ p.addr then endPass g stOk s
      else if 2 * (memGrp s g).lapLimit.toNat ≤ (s.evt.period - p.start).toNat / 250 then
        endPass g stTimeout s
      else s

def memRecoverBody (j : Job) (s : State) : Verdict :=
  let g := fld (j.param 0) 3 0
  match firstRefusal [
    (decide (11 < g), badParam 0),
    (!groupRuns s g, refMode s),
    ((memGrp s g).pass.isSome, refBusy)] with
  | some r => .refuse r
  | none =>
    let p : Pass := { job := j.id, addr := 0, clear := bit (j.param 0) 8, start := s.evt.period }
    .work (onGrp g (fun m => { m with pass := some p }) (clearLog g (pauseLap g s)))

def execOpMemRecover (j : Nat) (s : State) : Host.Outcome State Fault Refusal :=
  .next (runOp 0x0801 1 memRecoverBody j s)

/-! ### Injected errors (R458, R459) -/

/-- The four data-mask words as one mask, and with it the check-bit mask. -/
def injectMask (j : Job) : BitVec 137 :=
  BitVec.ofNat 137 ((j.param 2).toNat + (j.param 3).toNat * 2 ^ 32 + (j.param 4).toNat * 2 ^ 64 +
    (j.param 5).toNat * 2 ^ 96 + fld (j.param 6) 8 0 * 2 ^ 128)

/-- A mask word carries a bit above the width of the group's data. -/
def maskWide (g i : Nat) (w : Word) : Bool := w != 0 && decide (groupData g ≤ 32 * i)

def memInjectBody (j : Job) (s : State) : Verdict :=
  let g := fld (j.param 0) 3 0
  let a := fld (j.param 1) 23 0
  match firstRefusal [
    (decide (11 < g), badParam 0),
    (!addrOk g a, badParam 1),
    (maskWide g 0 (j.param 2), badParam 2),
    (maskWide g 1 (j.param 3), badParam 3),
    (maskWide g 2 (j.param 4), badParam 4),
    (maskWide g 3 (j.param 5), badParam 5),
    (decide (2 ^ groupCheck g ≤ (j.param 6).toNat), badParam 6),
    (g == 6, refDenied)] with
  | some r => .refuse r
  | none => .complete (injectWord g a (injectMask j) s) []

def execOpMemInject (j : Nat) (s : State) : Host.Outcome State Fault Refusal :=
  .next (runOp 0x0802 7 memInjectBody j s)

end Sys2Proof.Machine
end

