-- ==== Sys2Proof/Machine/Boot.lean ====
section
/-!
DEFINITION. Reset and boot: the causes of RESET (R490 to R493), its end (R492), image sources
and checks (R495 to R498), mailbox loads (R388, R499), entry into STANDBY (R500, R507), the
firmware commands (R501) and the supply and temperature monitors (R489, R490).
-/

namespace Sys2Proof.Machine

/-! ### Entry into RESET (R491, R493) -/

/-- All device state is cleared but the causes, the fuses and what stands outside the device:
the levels on its pins, what it has sent, the boot flash, and the comparators of R490. -/
def cleared (s : State) : State :=
  let r := State.reset
  { r with
    pending := s.pending
    free := s.free
    evt := { r.evt with gpioPin := s.evt.gpioPin, perst := s.evt.perst, sent := s.evt.sent }
    cmd := { r.cmd with written := s.cmd.written }
    bus := { r.bus with readData := s.bus.readData, spiData := s.bus.spiData }
    pmu := { r.pmu with bwMessages := messagesSent s.evt }
    tx := { r.tx with alert := s.tx.alert }
    cry := { r.cry with zeroisePin := s.cry.zeroisePin, tamperPin := s.cry.tamperPin }
    pwr := { r.pwr with
      thermalWarn := s.pwr.thermalWarn, supplyLow := s.pwr.supplyLow
      causePowerOn := s.pwr.causePowerOn, causePin := s.pwr.causePin
      causeSupply := s.pwr.causeSupply, causeThermal := s.pwr.causeThermal
      causeCommand := s.pwr.causeCommand, rail := s.pwr.rail
      fusedAdvance := s.pwr.fusedAdvance, tripped := s.pwr.tripped, flash := s.pwr.flash
      qspi := s.pwr.qspi } }

/-- RESET is entered, with its cause recorded. -/
def enterReset (f : Pwr → Pwr) (s : State) : State := cleared (s.onPwr f)

/-- POWER_ON clears every other field of DEV_RESET_CAUSE (R507). -/
def execPowerOn (s : State) : Host.Outcome State Fault Refusal :=
  .next (enterReset (fun p => { p with
    causePowerOn := true, causePin := false, causeSupply := false, causeThermal := false
    causeCommand := false, rail := 0, tripped := false }) s)

/-- RESET_N_LOW: low for 1 us. -/
def execResetNLow (s : State) : Host.Outcome State Fault Refusal :=
  .next (enterReset (fun p => { p with causePin := true }) s)

/-- SUPPLY_FAULT: the rail's index is recorded. -/
def execSupplyFault (rail : BitVec 4) (s : State) : Host.Outcome State Fault Refusal :=
  .next (enterReset (fun p => { p with causeSupply := true, rail := rail }) s)

/-- THERMAL_TRIP. -/
def execThermalTrip (s : State) : Host.Outcome State Fault Refusal :=
  .next (enterReset (fun p => { p with causeThermal := true, tripped := true }) s)

/-- RESET_COMMAND_ENTRY: 10 us after the completion of OP_RESET has been written (R405). -/
def execResetCommandEntry (s : State) : Host.Outcome State Fault Refusal :=
  .next <|
    if s.cmd.resetWritten && usSince 10 s.cmd.resetAt s then enterReset (fun p => { p with causeCommand := true }) s else s

/-! ### Monitors (R489, R490) -/

/-- A condition with hysteresis: set where `on` holds, cleared where `off` does. -/
def latched (on off was : Bool) : Bool := on || was && !off

/-- THERMAL_WARN: the hottest sensor in 0.1 °C against 115 and 110 °C. -/
def execThermalWarn (hottest : Int) (s : State) : Host.Outcome State Fault Refusal :=
  .next <|
    let hot := latched (decide (1150 ≤ hottest)) (decide (hottest ≤ 1100)) s.pwr.thermalWarn
    setLevel 3 hot (s.onPwr fun p => { p with thermalWarn := hot })

/-- The trip levels of rails 0 to 9 in mV (R487). -/
def tripLevels : List Nat := [660, 740, 830, 1100, 690, 1100, 830, 1650, 1620, 1550]

/-- A rail stands within 20 mV above its trip level, or within 60 mV for VDDIO_MGMT. -/
def nearTrip (rails : Vector Nat 10) : Bool :=
  (List.range 10).any fun i =>
    let trip := tripLevels.getD i 0
    let v := rails.toList.getD i 0
    decide (trip ≤ v) && decide (v ≤ trip + if i = 9 then 60 else 20)

/-- SUPPLY_LOW: the rails' levels in mV. -/
def execSupplyLow (rails : Vector Nat 10) (s : State) : Host.Outcome State Fault Refusal :=
  .next <|
    let low := nearTrip rails
    setLevel 6 low (s.onPwr fun p => { p with supplyLow := low })

/-- AVS_LOW: VDD_CORE in mV, held for 100 us where it is low, against the published target. -/
def execAvsLow (core : Nat) (s : State) : Host.Outcome State Fault Refusal :=
  .next <|
    let t := s.pwr.avsTarget.toNat
    let low := latched (decide (core + 25 < t)) (decide (t ≤ core + 15)) s.pwr.avsLow
    if s.pwr.avsValid then setLevel 5 low (s.onPwr fun p => { p with avsLow := low }) else s

/-- The target may be updated: at most once per 100 ms. -/
def avsDue (s : State) : Bool := s.pwr.avsValid && s.pwr.avsAt.all fun p => usSince 100000 p s

/-- AVS_UPDATE: the target moves toward what the fused data give for the hottest sensor, at most 5 mV,
within 700 to 800 mV. -/
def execAvsUpdate (hottest : Int) (s : State) : Host.Outcome State Fault Refusal :=
  .next <|
    let old : Int := s.pwr.avsTarget.toNat
    let new := (clampInt (old - 5) (old + 5) (clampInt 700 800 (Config.avsTarget hottest))).toNat
    if !avsDue s || new = s.pwr.avsTarget.toNat then s
    else
      let now := s.evt.period
      raise 4 new (s.onPwr fun p => { p with avsTarget := BitVec.ofNat 10 new, avsAt := some now })

/-! ### Images (R497, R498) -/

/-- An image as its source delivers it. -/
structure ImageRead where
  readOk : Bool
  header : List Byte
  body : List Byte

/-- The first n bytes of a flash area; erased bytes read 0xFF. -/
def flashBytes (n : Nat) (l : List Byte) : List Byte := l.take n ++ List.replicate (n - l.length) 0xFF

/-- The little-endian header field of n bytes at an offset. -/
def headerField (h : List Byte) (off n : Nat) : Nat := leNat ((h.drop off).take n)

/-- Header bytes from `lo` up to, not including, `hi` are zero. -/
def zeroBytes (h : List Byte) (lo hi : Nat) : Bool := ((h.drop lo).take (hi - lo)).all (· == 0)

/-- The minimum security version in the fuses. -/
def fusedMinimum (s : State) : Nat := min 32 (Config.fusedSecurity.toNat + s.pwr.fusedAdvance)

/-- Check 2: MAGIC, FORMAT and the zero fields. -/
def formOk (h : List Byte) : Bool :=
  h.take 4 == [0x5A, 0x4C, 0x56, 0x59] && headerField h 4 4 == 1 &&
    decide (headerField h 20 4 ≤ 1) && zeroBytes h 24 48 && zeroBytes h 145 160 &&
    zeroBytes h 257 4000 && (headerField h 20 4 == 1 || zeroBytes h 48 145)

/-- Check 3: the body's length. -/
def lengthOk (n : Nat) : Bool := decide (16 ≤ n) && decide (n ≤ 786432) && n % 16 == 0

def signingKey (h : List Byte) : List Byte := (h.drop 160).take 97

/-- Checks 2 to 5, on the header alone: the fail code, 0 when they pass. -/
def headerFail (s : State) (h : List Byte) : Nat :=
  if !formOk h then 2
  else if !lengthOk (headerField h 16 4) then 3
  else if headerField h 12 4 < fusedMinimum s then 4
  else if sha384 (signingKey h) != Config.keyDigest false &&
      sha384 (signingKey h) != Config.keyDigest true then 5
  else 0

/-- Check 6: the signature. -/
def signatureOk (h body : List Byte) : Bool :=
  ecdsaVerify (signingKey h) (sha384 (h.take 4000 ++ body)) (h.drop 4000)

/-- All checks on an image as its source delivered it. A source that ends early has not
delivered it. -/
def imageFail (s : State) (r : ImageRead) : Nat :=
  if r.header.length ≠ 4096 then 1
  else
    let f := headerFail s r.header
    if f ≠ 0 then f
    else if !r.readOk || r.body.length < headerField r.header 16 4 then 1
    else if signatureOk r.header (r.body.take (headerField r.header 16 4)) then 0 else 6

/-- The image that a verified header and body make. -/
def imageOf (src : ImageSource) (h body : List Byte) : Image where
  source := src
  version := word (headerField h 8 4)
  security := headerField h 12 4
  bodyLength := headerField h 16 4
  enrolKey := if headerField h 20 4 = 1 then some ((h.drop 48).take 97) else none
  body := body.take (headerField h 16 4)

/-! ### Sources (R492, R495, R496) -/

/-- What a flash slot holds. -/
def slotBytes (src : ImageSource) (s : State) : List Byte :=
  match src with
  | .slotA => s.pwr.flash.slotA
  | .slotB => s.pwr.flash.slotB
  | .mailbox => []

/-- Where a slot begins in the boot flash, and where the boot record stands (R496). -/
def slotBase : ImageSource → BitVec 24
  | .slotB => 0x100000
  | _ => 0

def recordBase : BitVec 24 := 0x200000

/-- Instructions go to the boot flash, in order. -/
def sendFlash (ops : List FlashOp) (s : State) : State :=
  s.onPwr fun p => { p with qspi := ops.reverse ++ p.qspi }

/-- A fast read with quad output, with 8 dummy cycles; a page program or a sector erase, each followed by
polls of the status (R496). One entry stands for the pages or the sectors that `n` bytes take, and one for
the polls (DESIGN CHOICE, log 173). -/
def flashRead (a : BitVec 24) (n : Nat) : List FlashOp := [{ opcode := 0x6B, addr := a, dummy := 8, count := n }]
def flashPoll : FlashOp := { opcode := 0x05, addr := 0, count := 1 }
def flashProgram (a : BitVec 24) (n : Nat) : List FlashOp :=
  [{ opcode := 0x02, addr := a, count := n }, flashPoll]
def flashErase (a : BitVec 24) (n : Nat) : List FlashOp :=
  [{ opcode := 0x20, addr := a, count := n }, flashPoll]

/-- Write a flash slot, the rest of it erased. -/
def setSlot (src : ImageSource) (l : List Byte) (s : State) : State :=
  s.onPwr fun p => { p with flash :=
    match src with
    | .slotA => { p.flash with slotA := l }
    | .slotB => { p.flash with slotB := l }
    | .mailbox => p.flash }

/-- The image in a flash slot as it is read. -/
def readImage (src : ImageSource) (r : FlashRead) (s : State) : ImageRead :=
  let bytes := slotBytes src s
  let header := flashBytes 4096 bytes
  { readOk := r == .whole
    header := if r = .headerError then [] else header
    body := flashBytes (min 786432 (headerField header 16 4)) (bytes.drop 4096) }

/-- The reads of a slot's image: the header, and the body where checks 2 to 5 pass (R498). -/
def imageReads (src : ImageSource) (r : FlashRead) (s : State) : List FlashOp :=
  let h := (readImage src r s).header
  flashRead (slotBase src) 4096 ++
    if h.length = 4096 ∧ headerFail s h = 0 then flashRead (slotBase src + 4096) (headerField h 16 4) else []

/-- The boot record that prefers slot B, or slot A. -/
def recordOf (b : Bool) : List Byte :=
  let r := [0x5A, 0x42, 0x52, 0x43, if b then 1 else 0] ++ List.replicate 7 0
  r ++ natLe 4 (~~~ crcBits 0xFFFFFFFF (byteBits r)).toNat

/-- The slot that a boot record prefers; one that does not verify prefers slot A. -/
def preferB (r : List Byte) : Bool :=
  r.take 4 == [0x5A, 0x42, 0x52, 0x43] && zeroBytes r 5 12 && r.getD 4 0 == 1 &&
    decide (12 ≤ r.length) &&
    leNat ((r.drop 12).take 4) == (~~~ crcBits 0xFFFFFFFF (byteBits (r.take 12))).toNat

/-- The order in which BOOT tries its sources. -/
def sourceOrder (sel : BitVec 2) (b : Bool) : List ImageSource :=
  let slots : List ImageSource := if b then [.slotB, .slotA] else [.slotA, .slotB]
  match sel.toNat with
  | 0 => slots
  | 1 => [.mailbox]
  | 2 => slots ++ [.mailbox]
  | _ => []

/-- RESET_END: every memory is invalidated and BOOT begins, with a read of the boot record where a slot is
allowed; after a thermal trip not before every
sensor reads 110 °C or less. `flash` is what a programmer outside has put into the boot flash. -/
def execResetEnd (bootSel i2cPins : BitVec 2) (flash : Option Flash) (s : State) :
    Host.Outcome State Fault Refusal :=
  .next <|
    if s.pwr.mode = .reset && !(s.pwr.tripped && s.pwr.thermalWarn) then
      let s := s.onPwr fun p => { p with flash := flash.getD p.flash, tripped := false }
      let order := sourceOrder bootSel (preferB s.pwr.flash.record)
      let s := if bootSel.getLsbD 0 then s else sendFlash (flashRead recordBase 16) s
      let s := s.onMem fun m => { m with cells := [], coeffs := [] }
      let s := s.onBus fun b => { b with i2cPins := i2cPins }
      let s := setMode .boot (s.onPwr fun p => { p with
        bootSel := bootSel, bootOrder := order, bootFirst := order.head? })
      setLevel 165 s.tx.alert (setLevel 6 s.pwr.supplyLow (setLevel 3 s.pwr.thermalWarn s))
    else s

/-- A slot is erased (R501). -/
def eraseFlash (src : ImageSource) (s : State) : State :=
  sendFlash (flashErase (slotBase src) 0x100000) (setSlot src [] s)

/-- Record the outcome of an attempt on a source (R512). -/
def setFail (src : ImageSource) (code : Nat) (p : Pwr) : Pwr :=
  match src with
  | .slotA => { p with failA := BitVec.ofNat 4 code }
  | .slotB => { p with failB := BitVec.ofNat 4 code }
  | .mailbox => { p with failMbox := BitVec.ofNat 4 code }

def ImageSource.code : ImageSource → Nat
  | .slotA => 1 | .slotB => 2 | .mailbox => 3

/-- An image has verified: it is copied to all four cores, and their data spaces are initialised (R500). -/
def verifyImage (i : Image) (s : State) : State :=
  let body := bodyWords i.body
  ((List.range 4).foldl (fun s c => loadCore c body s) s).onPwr fun p => { setFail i.source 0 p with
    source := BitVec.ofNat 4 i.source.code, verified := some i }

/-! ### Mailbox loads (R388, R499) -/

/-- The mailbox answers a chunk: the response, DONE and MBOX_DONE. -/
def answerChunk (code : Nat) (s : State) : State :=
  let s := setResponse (natLe 4 code) s
  raise 20 0 (s.onCmd fun c => { c with mbBusy := false, mbDone := true })

/-- A load fails: the next post begins a new one. -/
def failLoad (code : Nat) (s : State) : State :=
  (s.onPwr (setFail .mailbox code)).onCmd fun c => { c with load := none }

/-- The request buffer's bytes. -/
def requestBytes (s : State) : List Byte := (List.range 4096).map fun i => tabGet 0 s.cmd.mbRequest i

/-- BOOT takes a mailbox load now (R495, R500). -/
def loadOpen (s : State) : Bool := s.pwr.bootOrder == [.mailbox] && s.pwr.verified.isNone

/-- The whole body has arrived and its signature is being verified. -/
def loadWhole (s : State) : Bool :=
  s.cmd.load.any fun l => decide (l.bodyLength ≤ l.body.length)

/-- A chunk: the header, then the body in order. -/
def takeChunk (s : State) : State :=
  let bytes := requestBytes s
  match s.cmd.load with
  | none =>
    let f := headerFail s bytes
    if f ≠ 0 then answerChunk (0x80 + f) (failLoad f s)
    else answerChunk 0 (s.onCmd fun c => { c with
      load := some { header := bytes, body := [], bodyLength := headerField bytes 16 4 } })
  | some l =>
    let body := l.body ++ bytes.take (l.bodyLength - l.body.length)
    let s := s.onCmd fun c => { c with load := some { l with body := body } }
    if body.length < l.bodyLength then answerChunk 0 s else s

/-- A post in BOOT. -/
def postChunk (s : State) : State :=
  if !loadOpen s then s
  else if s.cmd.mbBusy then raise 39 0 (s.onCmd fun c => { c with mbOverrun := true })
  else takeChunk (s.onCmd fun c => { c with mbBusy := true, mbDone := false, mbOverrun := false })

/-- A write of a byte to 0x2000. -/
def postRequest (s : State) : State :=
  match s.pwr.mode with
  | .reset => s
  | .boot => if jtagOnly s then s else postChunk s
  | _ => postCommand s

/-- MBX_POST: a write to 0x2000. -/
def execMbxPost (s : State) : Host.Outcome State Fault Refusal := .next (postRequest s)

/-- MBX_WRITE: bytes from an address upward; the one that falls on 0x2000 posts the request. -/
def execMbxWrite (addr : BitVec 16) (bytes : List Byte) (s : State) :
    Host.Outcome State Fault Refusal :=
  .next <|
    if mailboxResponds s then
      let s := storeRequest addr.toNat bytes s
      if addr.toNat ≤ 0x2000 ∧ 0x2000 < addr.toNat + bytes.length then postRequest s else s
    else s

/-- MBX_LOAD_TIMEOUT: no post for 10 s during a load. -/
def execMbxLoadTimeout (s : State) : Host.Outcome State Fault Refusal :=
  .next <|
    if s.pwr.mode = .boot ∧ s.cmd.load.isSome ∧ !loadWhole s then
      setResponse (natLe 4 0x87) (failLoad 7 s)
    else s

/-! ### Attempts (R498, R500) -/

/-- A flash slot's attempt ends. -/
def slotAttempt (src : ImageSource) (rest : List ImageSource) (how : FlashRead) (s : State) : State :=
  let r := readImage src how s
  let f := imageFail s r
  let s := sendFlash (imageReads src how s) s
  if f = 0 then verifyImage (imageOf src r.header r.body) s
  else s.onPwr fun p => { setFail src f p with bootOrder := rest }

/-- A mailbox load's signature has been checked. -/
def mailboxAttempt (s : State) : State :=
  match s.cmd.load with
  | some l =>
    if !loadWhole s then s
    else if signatureOk l.header l.body then
      answerChunk 1 (verifyImage (imageOf .mailbox l.header l.body)
        (s.onCmd fun c => { c with load := none }))
    else answerChunk 0x86 (failLoad 6 s)
  | none => s

/-- BOOT_SOURCE_ATTEMPT_END. -/
def execBootSourceAttemptEnd (r : FlashRead) (s : State) : Host.Outcome State Fault Refusal :=
  .next <|
    if s.pwr.mode ≠ .boot ∨ s.pwr.verified.isSome then s
    else match s.pwr.bootOrder with
      | [] => s
      | .mailbox :: _ => mailboxAttempt s
      | src :: rest => slotAttempt src rest r s

/-! ### Entry into STANDBY (R500, R507) -/

/-- The scrubbers whose domain runs start or go on. -/
def resumeLaps (s : State) : State :=
  (List.range 12).foldl (fun s g =>
    if groupRuns s g && (memGrp s g).pass.isNone then resumeLap g s else s) s

/-- The fail codes that BOOT_FALLBACK carries (R513). -/
def fallbackData (p : Pwr) : Nat := p.failA.toNat * 2 ^ 8 + p.failB.toNat * 2 ^ 12

/-- The image was supplied by a slot other than the first source tried. -/
def fellBack (s : State) (i : Image) : Bool := i.source != .mailbox && s.pwr.bootFirst != some i.source

/-- BOOT_COMPLETE: the device enters STANDBY. -/
def execBootComplete (s : State) : Host.Outcome State Fault Refusal :=
  .next <|
    match s.pwr.verified with
    | none => s
    | some i =>
      if s.pwr.mode ≠ .boot then s
      else
        let s := s.onPwr fun p => { p with image := some i, verified := none, avsValid := true }
        let s := (s.onEvt fun e => { e with period := 0 }).onTx fun t => { t with
          resetActive := false }
        let s := setMode .standby (writePlainMaps s.prof s)
        let s := setLevel 120 true (startCandidates s)
        let s := if fellBack s i then raise 2 (fallbackData s.pwr) s else s
        let s := resumeLaps (deliverWaiting s)
        if pinsAsserted s then triggerZeroise (fun y => { y with
          zPin := y.zPin || y.zeroisePin, zTamper := y.zTamper || y.tamperPin }) s
        else s

/-! ### Firmware commands (R501) -/

/-- The slot that a bit names. -/
def slotOf (b : Bool) : ImageSource := if b then .slotB else .slotA

/-- The verification of a firmware command is recorded. -/
def setStageFail (f : Nat) (s : State) : State :=
  s.onPwr fun p => { p with stageFail := BitVec.ofNat 4 f }

/-- The image in the parameter words 1 onward. -/
def stagedImage (j : Job) : ImageRead :=
  let bytes := wordBytes (j.params.drop 1)
  { readOk := true, header := bytes.take 4096, body := bytes.drop 4096 }

def fwStageBody (j : Job) (s : State) : Verdict :=
  let b := bit (j.param 0) 0
  if !j.pointer then .refuse (badParam 0)
  else if (s.pwr.image.map fun i => i.source) = some (slotOf b) then .refuse refBusy
  else
    let f := imageFail s (stagedImage j)
    let s := setStageFail f s
    if f ≠ 0 then .refuseWith refAuth8 s
    else .work ((eraseFlash (slotOf b) s).onPwr fun p => { p with
      staging := p.staging ++ [(j.id, b, wordBytes (j.params.drop 1))] })

def execOpFwStage (j : Nat) (s : State) : Host.Outcome State Fault Refusal :=
  .next (runOp 0x0901 1 fwStageBody j s)

/-- The slot after its programming: the image, or a failed one with its header erased (R501). -/
def staged (e : FlashEnd) (bytes : List Byte) : List Byte :=
  if e = .done then bytes else List.replicate 4096 0xFF ++ bytes.drop 4096

/-- What goes to the flash until programming ends: the image and its read-back, and after a failure the
erasure of the header (R501). -/
def stagingOps (src : ImageSource) (e : FlashEnd) (n : Nat) : List FlashOp :=
  flashProgram (slotBase src) n ++ flashRead (slotBase src) n ++
    if e = .done then [] else flashErase (slotBase src) 4096

/-- FW_STAGED: programming and read-back end. -/
def execFwStaged (e : FlashEnd) (s : State) : Host.Outcome State Fault Refusal :=
  .next <|
    match s.pwr.staging with
    | [] => s
    | (j, b, bytes) :: rest =>
      let st := if e = .done then stOk else stTimeout
      let s := sendFlash (stagingOps (slotOf b) e bytes.length) (setSlot (slotOf b) (staged e bytes) s)
      raise 8 (b2n b + st.toNat * 2 ^ 8)
        (finish j st 0 [] (s.onPwr fun p => { p with staging := rest }))

def fwActivateBody (r : FlashRead) (j : Job) (s : State) : Verdict :=
  let b := bit (j.param 0) 0
  let img := readImage (slotOf b) r s
  let f := imageFail s img
  let s := sendFlash (imageReads (slotOf b) r s) (setStageFail f s)
  if f ≠ 0 then .refuseWith refAuth8 s
  else
    let sec := headerField img.header 12 4
    let s := sendFlash (flashErase recordBase 16 ++ flashProgram recordBase 16)
      (s.onPwr fun p => { p with flash := { p.flash with record := recordOf b } })
    let s := if bit (j.param 0) 1 then s.onPwr fun p => { p with
        fusedAdvance := max p.fusedAdvance (min 32 sec - Config.fusedSecurity.toNat) } else s
    .complete s []

def execOpFwActivate (j : Nat) (r : FlashRead) (s : State) : Host.Outcome State Fault Refusal :=
  .next (runOp 0x0902 1 (fwActivateBody r) j s)

end Sys2Proof.Machine
end

