-- ==== Sys2Proof/Machine/Deframer.lean ====
section
/-!
DEFINITION. The vat's releases as the deframer takes them (R245, R247, R248, R256), and a frame
deframed: overhead and predictions (R44, R57, R58, R60), epochs (R115), the two-way measurement
(R327 to R329), acquisition on overheads (R216, R217, R222), and delivery (R83, R84, R89, R128).
-/

namespace Sys2Proof.Machine

/-! ### The received overhead -/

/-- The overhead bytes of a frame whose blocks carry these bits, descrambled. -/
def overheadOf (bits : List Bool) : List Byte := bitsBytes (scramble (bits.take 16384))

def ohNat (oh : List Byte) (i n : Nat) : Nat := beNat ((oh.drop i).take n)
def ohByte (oh : List Byte) (i : Nat) : Byte := oh.getD i 0

/-- The block was released good (R247). -/
def RxBlock.good (b : RxBlock) : Bool := b.cause == .passed

/-- Blocks 0 and 1 were released good and OH_VERSION is 0x01 (R58). -/
def overheadGood (bs : List RxBlock) (oh : List Byte) : Bool :=
  (bs.take 2).length == 2 && (bs.take 2).all (fun b => b.good) && ohByte oh 9 == 1

/-- A time field. -/
def ohTime (oh : List Byte) (i : Nat) : Nat :=
  ohNat oh i 6 * second + ohNat oh (i + 6) 4 * 2 ^ 32 + ohNat oh (i + 10) 2 * 2 ^ 16

/-- One bit per circuit. -/
def ohCircuits (oh : List Byte) (i : Nat) : BitVec 1024 :=
  ((byteBits ((oh.drop i).take 128)).zip (List.range 1024)).foldl
    (fun v e => if e.1 then v ||| (1#1024 <<< e.2) else v) 0

/-! ### Releases (R245, R247, R248) -/

/-- DATA_VALID of the frame that a released block belongs to: received, else predicted. -/
def releaseValid (s : State) (frame : Nat) : Bool :=
  let bs := s.frm.rxBlocks.filter fun b => b.frame == frame
  let oh := overheadOf ((bs.take 2).flatMap fun b => b.bits)
  if overheadGood bs oh then (ohByte oh 8).getLsbD 7 else s.frm.rxValid

/-- A block counted in DEC_FAILED. -/
def countFailed (s : State) : State := raiseLimited (208 * 2 ^ 16) 208 0 (errAdd 0xC0028 1 s)

/-- The counts of R248 for a released block. -/
def countRelease (b : RxBlock) (s : State) : State :=
  let s := statAdd 0xC0020 1 s
  if b.index < 2 then (if b.good then s else countFailed s)
  else if !releaseValid s b.frame then statAdd 0xC0030 1 s
  else if b.good then s else countFailed s

/-- A frame that got no further blocks is dropped when the next frame's first block comes. -/
def dropBroken (n : Nat) (bs : List RxBlock) : List RxBlock :=
  bs.filter fun b => (bs.filter fun x => x.frame == b.frame).length == n

/-- Hand a released block to the deframer. -/
def pushBlock (b : RxBlock) (s : State) : State :=
  let n := frameBlocks (rxProf s)
  countRelease b (s.onFrm fun f => { f with
    rxBlocks := (if b.index = 0 then dropBroken n f.rxBlocks else f.rxBlocks) ++ [b] })

/-- The entry's bits as the vat reads them, and whether a word is poisoned. -/
def readEntry (b : DecBlock) (s : State) : Option (List Bool) × State :=
  if b.written && b.cause != some .fault then
    let r := seeWords 1 9 (entryAddr (rxProf s) b.seq) (vatEntryWords (rxProf s)) s
    (r.1.map fun ws => wordBits ws (blockFrameBits (rxProf s).code), r.2)
  else (some (b.hard), s)

/-- The head block may be released now. -/
def releasable (s : State) (now : Nat) (b : DecBlock) : Bool :=
  b.cause.isSome && b.place == .none && (!s.dec.cfg.fixed || decide (b.deadline ≤ now))

/-- BLOCK_RELEASE: the head block leaves the vat. -/
def execBlockRelease (now : Nat) (s : State) : Host.Outcome State Fault Refusal :=
  .next <|
    match s.dec.blocks with
    | b :: _ =>
      if releasable s now b then
        let r := readEntry b (atSample now s)
        let s := if r.1.isNone then raise 224 0 (faultBlock b.seq r.2) else r.2
        let s := s.onDec fun d => { d with blocks := d.blocks.filter fun x => x.seq ≠ b.seq }
        let cause := if r.1.isNone then .fault else b.cause.getD .fault
        let size := blockFrameBits (rxProf s).code
        let bits := (r.1.getD (b.hard) ++ List.replicate size false).take size
        let s := if cause = .passed then s else noteBlock 0x103 b b.churn s
        settleFabricLevels (pushBlock
          { seq := b.seq, frame := b.frame, index := b.index, cause := cause, bits := bits } s)
      else s
    | [] => s

/-! ### What a frame holds, as received or as predicted (R58) -/

/-- The values the receiver uses for one frame. -/
structure RxFrame where
  id : Nat
  good : Bool
  bits : List Bool
  blocks : List RxBlock
  oh : List Byte
  count : Quad
  sel : Bool
  next : Bool
  valid : Bool
  epoch : BitVec 1024
  fail : BitVec 1024
  predicted : Bool

/-- MAP_SEL of a frame with failed overhead and FRAME_COUNT `count`. -/
def predictedSel (f : Frm) (count : Quad) : Bool :=
  if count.toNat % 8 = 0 then
    match f.lastGood with
    | some g => if g.1 + 1 = count.toNat / 8 then g.2 else f.rxSel
    | none => f.rxSel
  else f.rxSel

/-- One frame from its N blocks. With no frame before it, a frame with failed overhead predicts from the
reset values (FRAME_COUNT 1, MAP_SEL A, DATA_VALID 0), and the next good count is held to a jump against
that (R58; DESIGN CHOICE, log 102). -/
def readFrame (s : State) (bs : List RxBlock) : RxFrame :=
  let f := s.frm
  let bits := scramble (bs.flatMap fun b => b.bits)
  let oh := bitsBytes (bits.take 16384)
  let good := overheadGood bs oh
  let flags := ohByte oh 8
  let count := if good then BitVec.ofNat 64 (ohNat oh 0 8) else f.rxCount + 1
  { id := (bs.head?.map fun b => b.frame).getD 0, good := good, bits := bits, blocks := bs, oh := oh
    count := count
    sel := if good then flags.getLsbD 6 else predictedSel f count
    next := if good then flags.getLsbD 5 else f.rxNext
    valid := if good then flags.getLsbD 7 else f.rxValid
    epoch := if good then ohCircuits oh 128 else f.rxEpoch
    fail := if good then ohCircuits oh 256 else f.rxFail
    predicted := !good }

/-- The received values and the events they raise (R58, R60, R64, R70). -/
def takeFrame (x : RxFrame) (s : State) : State :=
  let f := s.frm
  let any := f.rxAny
  let s := if x.good then s else raise 244 0 s
  let s := if x.good && any && x.count != f.rxCount + 1 then raise 247 0 s else s
  let s := if any && x.sel != f.rxSel then raise 241 0 s else s
  let s := if any && f.rxValid && !x.valid then raise 245 0 s else s
  let s := if any && !f.rxValid && x.valid then raise 246 0 s else s
  s.onFrm fun f => { f with
    rxAny := true, rxCount := x.count, rxSel := x.sel, rxNext := x.next, rxValid := x.valid
    rxEpoch := x.epoch, rxFail := x.fail, rxPredicted := x.predicted
    rxNamed := if x.good then some x.sel else f.rxNamed
    lastGood := if x.good then some (x.count.toNat / 8, x.next) else f.lastGood
    mgmt := if x.good then (x.oh.drop 514).take (min 1022 (ohNat x.oh 512 2)) else f.mgmt }

/-! ### The two-way measurement (R327 to R329) -/

/-- D_RX in ps: V1 to V4, the applied deadline, and what the deframer adds. -/
def dRxPs (s : State) : Nat :=
  (openRound (lineRxPs s)).toNat + s.dec.appliedDeadline * 10000 +
    Config.frameStart s.prof.rate s.prof.code s.prof.patX s.prof.patY

/-- The fraction of a sample of a frame's mark, in ps (R215). -/
def markPs (s : State) (frame : Nat) : Rat :=
  match s.rx.path.marks.find? fun m => m.1 == frame with
  | some m => (m.2.2.toNat * 32000 : Nat) / ((256 * 9 * s.prof.rate : Nat) : Rat)
  | none => 0

/-- The arrival time of the frame whose start-of-frame lies `age` steps of 25 ps back: the counter captured
at that instant, and the mark for the fraction of a sample (R327). -/
def arrivalTime (s : State) (frame age : Nat) : Nat :=
  (((counterAt s ((rootNow s : Int) - age) : Int) - psTime (dRxPs s + fld s.tim.planes 31 16) +
    nearest (markPs s frame * (2 ^ 32 : Nat) / 1000)) % (timeModulus : Int)).toNat

/-- A difference of two times as a signed time. -/
def timeDiff (a b : Nat) : Int :=
  let d := ((a : Int) - b) % (timeModulus : Int)
  if (timeModulus : Int) ≤ 2 * d then d - timeModulus else d

/-- A signed time in ns. -/
def timeNsRat (d : Int) : Rat := (d : Rat) / (2 ^ 32 : Nat)

/-- The frame is usable (R329). -/
def frameUsable (x : RxFrame) (s : State) : Bool :=
  x.good && (ohByte x.oh 76).getLsbD 7 &&
    s.tim.sent.any fun e => e.1 == BitVec.ofNat 64 (ohNat x.oh 44 8)

/-- The frame's measurement, or TIME_UNUSABLE; the far end's flags. -/
def measure (x : RxFrame) (t2 : Nat) (s : State) : State :=
  let s := s.onTim fun t => { t with
    frames := t.frames + 1
    farTimeValid := if x.good then (ohByte x.oh 76).getLsbD 6 else t.farTimeValid
    farServoLocked := if x.good then (ohByte x.oh 76).getLsbD 5 else t.farServoLocked }
  if frameUsable x s then
    let there := timeNsRat (timeDiff t2 (ohTime x.oh 32))
    let back := timeNsRat (timeDiff (ohTime x.oh 64) (ohTime x.oh 52))
    let asym : Rat := ((signed 32 s.tim.asym.toNat : Int) : Rat) / 1000
    s.onTim fun t => { t with
      usable := { offset := (there - back - asym) / 2, delay := (there + back) / 2
                  far := t.farTimeValid && t.farServoLocked, index := t.frames - 1 } :: t.usable }
  else statAdd 0x60068 1 s

/-- When the frame crossed the receive reference plane, in 25 ps of root time. -/
def receivedAt (s : State) (age : Nat) : Int :=
  (rootNow s : Int) - age - ((dRxPs s + fld s.tim.planes 31 16) / 25 : Nat)

/-- The frame to echo from now on (R330). -/
def takeEcho (x : RxFrame) (t2 age : Nat) (s : State) : State :=
  if x.good then
    s.onFrm fun f => { f with
      echo := some { count := x.count, txTime := ohTime x.oh 32, arrival := t2, at' := receivedAt s age } }
  else s

/-! ### Acquisition (R216 to R218, R222) and the whey detector (R203) -/

/-- The overhead's result in A5 and A6. Where a command has held the machine in this same cycle, the end of
acquisition raises ACQ_COMPLETE and TRAFFIC is not entered (R503), and a loss of frame is recorded and
counted (R224). A command that comes after the frame in the queue falls in a later cycle (DESIGN CHOICE,
log 166). -/
def overheadStep (x : RxFrame) (s : State) : State :=
  match heldNow s with
  | some h =>
    if x.id < h.firstFrame then s
    else if h.acq = 5 ∧ x.good ∧ 7 ≤ h.ohGood then acqComplete s
    else if h.acq = 6 ∧ !x.good ∧ 15 ≤ h.ohBad then recordLof 4 s
    else s
  | none =>
  if x.id < s.rx.firstFrame then s
  else if s.rx.acq = 5 then
    let s := s.onRx fun r => { r with
      ohGood := if x.good then r.ohGood + 1 else 0 }
    if 8 ≤ s.rx.ohGood then acquired s else s
  else if s.rx.acq = 6 then
    let s := s.onRx fun r => { r with ohBad := if x.good then 0 else r.ohBad + 1 }
    if 16 ≤ s.rx.ohBad then lossOfFrame 4 3 s else s
  else s

/-- The detector's decision against the decoded DATA_VALID. -/
def checkDetector (x : RxFrame) (s : State) : State :=
  let wrong := x.good && s.rx.decisions.any fun d => d.1 == x.id && d.2 != x.valid
  let s := s.onRx fun r => { r with
    decisions := r.decisions.filter fun d => x.id < d.1
    path := { r.path with marks := r.path.marks.filter fun m => x.id < m.1 } }
  if wrong then raiseLimited (200 * 2 ^ 16) 200 0 (errAdd 0xB0090 1 s) else s

/-! ### Rows (R42, R59) -/

/-- The rows with the frame bit at which each starts, and its length. -/
def placedRows (w : Nat) : Nat → List Word → List (Word × Nat × Nat)
  | _, [] => []
  | p, r :: rs =>
    let n := if isTag r then 128 else if isSlot r || isIdle r then w else 0
    (r, p, n) :: placedRows w (p + n) rs

/-- The rows of one circuit. -/
def rowsOf (l : List (Word × Nat × Nat)) (c : Nat) : List (Word × Nat × Nat) :=
  l.filter fun e => (isTag e.1 || isSlot e.1) && rowCircuit e.1 == c

/-- Frame bits p to p + n - 1 overlap a block released failed. -/
def overlapsFailed (b : Nat) (x : RxFrame) (p n : Nat) : Bool :=
  x.blocks.any fun k => !k.good && decide (p < (k.index + 1) * b) && decide (k.index * b < p + n)

def sliceBits (x : RxFrame) (e : Word × Nat × Nat) : List Bool := (x.bits.drop e.2.1).take e.2.2

/-! ### One circuit (R83, R84, R89, R112, R128) -/

/-- What the tag check of a circuit gave. -/
inductive TagCheck where
  | absent
  | checked (plain : List Bool) (passed : Bool)

/-- A key-absent reception (R112). -/
def noKey (c : Nat) (s : State) : TagCheck × State :=
  let s := errAdd (ctxBase c + 0x18) 1 s
  (.absent, if (ctxAt s c).rxNoKey then s
    else raise 294 c (onCtx c (fun x => { x with rxNoKey := true }) s))

/-- Decrypt and check one circuit of the frame. -/
def checkTag (x : RxFrame) (l : List (Word × Nat × Nat)) (c : Nat) (s : State) : TagCheck × State :=
  let e := x.epoch.getLsbD c
  if keyAbsent s c e then noKey c s
  else
    let r := readKey c e s
    match r.1 with
    | none => noKey c (keyStoreFault (keyAddr c e) r.2)
    | some key =>
      let mine := rowsOf l c
      let tag := BitVec.ofNat 128 (msbNat ((mine.filter fun e => isTag e.1).flatMap (sliceBits x)))
      let cipher := (mine.filter fun e => isSlot e.1).flatMap (sliceBits x)
      let o := openBits key (!s.cry.linkRole) c x.count e cipher tag
      (.checked o.1 o.2, onCtx c (fun x => { x with rxNoKey := false }) r.2)

/-- The counts and the run of R128. -/
def countTag (c : Nat) (touched : Bool) (t : TagCheck) (s : State) : State :=
  match t with
  | .absent => s
  | .checked _ passed =>
    if touched then (if passed then s else errAdd (ctxBase c + 0x10) 1 s)
    else if passed then tagPassed c s else tagFailed c s

/-- BLOCK_COUNT where R84 lets the received value be used. -/
def authenticCount (x : RxFrame) (l : List (Word × Nat × Nat)) (c slots : Nat) (t : TagCheck)
    (p : Profile) : Option Nat :=
  match t, (rowsOf l c).find? fun e => isSlot e.1 with
  | .checked plain true, some first =>
    let n := msbNat (plain.take 16)
    if overlapsFailed (blockFrameBits p.code) x first.2.1 64 || decide (containerBlocks slots p.rate < n)
    then none else some n
  | _, _ => none

/-- The container's blocks and PHASE. -/
def parseContainer (plain : List Bool) (n : Nat) : Nat × List (BitVec 257) :=
  (msbNat ((plain.drop 16).take 8), (pieces 257 n (plain.drop 64)).map bitsBlock)

/-- Error fill of the right length; a circuit without an earlier frame since its creation predicts 0 blocks
(R84; DESIGN CHOICE, log 182). -/
def fillError (x : RxFrame) (l : List (Word × Nat × Nat)) (c slots : Nat) (t : TagCheck) (s : State) :
    State :=
  match authenticCount x l c slots t s.prof with
  | some n => deliverErrorFill c n false s
  | none => deliverErrorFill c (circAt s c).prevCount true s

/-- The previous frame's BLOCK_COUNT for the next prediction, where a frame that delivers client fill
carries one that R84 lets the device use. -/
def noteCount (x : RxFrame) (l : List (Word × Nat × Nat)) (c slots : Nat) (t : TagCheck) (s : State) :
    State :=
  match authenticCount x l c slots t s.prof with
  | some n => onCirc c (fun y => { y with prevCount := n }) s
  | none => s

/-- What a created circuit that reaches row 3 of R83 delivers. -/
def deliverRows (x : RxFrame) (l : List (Word × Nat × Nat)) (c slots : Nat) (touched : Bool)
    (t : TagCheck) (s : State) : State :=
  if clientLoop s c then s
  else if x.fail.getLsbD c then deliverFill c (noteCount x l c slots t s)
  else if touched then fillError x l c slots t s
  else match t with
    | .checked plain true =>
      let r := parseContainer plain (min (msbNat (plain.take 16)) (containerBlocks slots s.prof.rate))
      deliverData c r.1 r.2 (carry 33 (slots * slotBits s.prof.rate / 8) s)
    | _ => fillError x l c slots t s

/-- FAR_CLIENT_FAIL follows the circuit's bit. -/
def farFail (x : RxFrame) (c : Nat) (s : State) : State :=
  let was := (circAt s c).farFail
  let b := x.fail.getLsbD c
  let s := onCirc c (fun y => { y with farFail := b }) s
  if b && !was then raise 258 c s else if was && !b then raise 259 c s else s

/-- A carried circuit in a frame that row 1 of R83 lets through. -/
def receiveCircuit (x : RxFrame) (l : List (Word × Nat × Nat)) (c : Nat) (s : State) : State :=
  let y := circAt s c
  let slots := ((rowsOf l c).filter fun e => isSlot e.1).length
  if y.created && y.slotCount != slots then (if clientLoop s c then s else deliverFill c s)
  else
    let touched := (rowsOf l c).any fun e =>
      overlapsFailed (blockFrameBits (rxProf s).code) x e.2.1 e.2.2
    let t := checkTag x l c s
    let s := countTag c touched t.1 t.2
    if y.created then deliverRows x l c slots touched t.1 s
    else if y.unterminated then s
    else raise 265 c (onCirc c (fun y => { y with unterminated := true }) s)

/-- Created circuits whose egress takes line data, in ascending order. -/
def createdCircuits (s : State) : List Nat :=
  (s.circ.filter fun e => e.2.created && !clientLoop s e.1).map fun e => e.1

/-- Row 1 of R83: client fill on every created circuit. -/
def fillFrame (s : State) : State := (createdCircuits s).foldl (fun s c => deliverFill c s) s

/-- Begin or end the discarding of R89: a circuit no longer carried here may begin again. -/
def endUnterminated (cs : List Nat) (s : State) : State :=
  (s.circ.filter fun e => e.2.unterminated && !cs.contains e.1).foldl
    (fun s e => onCirc e.1 (fun y => { y with unterminated := false }) s) s

/-- Delivery of one frame under the rows its map gives. -/
def deliverFrame (x : RxFrame) (rows : List Word) (s : State) : State :=
  let l := placedRows (slotBits s.prof.rate) 16384 (rows.drop 1)
  let cs := (rows.filter isTag).map rowCircuit
  let s := endUnterminated cs s
  let others := (createdCircuits s).filter fun c => !cs.contains c
  let s := cs.foldl (fun s c => receiveCircuit x l c s) s
  others.foldl (fun s c => deliverFill c s) s

/-- The comparisons of R57: whether the frame matches. -/
def mapMatches (x : RxFrame) (s : State) : Bool × State :=
  if !x.good then (true, s)
  else
    let a := ohNat x.oh 10 2 == s.prof.slots
    let c := ohNat x.oh 12 4 == (mapCrcOf s x.sel).toNat
    let s := if a then s else raise 243 0 s
    (a && c, if c then s else raise 242 0 s)

/-- Epochs and CLIENT_FAIL bits of the circuits the frame's map carries (R45, R100, R115). -/
def carriedBitsOf (x : RxFrame) (rows : List Word) (s : State) : State :=
  let cs := (rows.filter isTag).map rowCircuit
  cs.foldl (fun s c => farFail x c (if x.good then rxEpochSeen c (x.epoch.getLsbD c) s else s)) s

/-- The receive sequencer and delivery. Where its local map is poisoned a frame leaves RX_EPOCH as it was
(R115; DESIGN CHOICE, log 103). -/
def sequenceFrame (x : RxFrame) (inTraffic : Bool) (s : State) : State :=
  let m := mapMatches x s
  let r := sequencerRead x.sel m.2
  match r.1 with
  | none => fillFrame r.2
  | some ws =>
    let rows := mapRows ws
    let s := carriedBitsOf x rows (r.2.onRx fun q => { q with header := some (headerProfile s.prof ws) })
    if inTraffic && s.pwr.mode == .traffic && x.valid && m.1 then deliverFrame x rows s else fillFrame s

/-- FRAME_DEFRAMED: the N blocks of a frame have been released. `age` is the time since its
start-of-frame in steps of 25 ps; `drains` the 66-bit blocks that each circuit's host-lane
transmitter has read since the frame before. -/
def execFrameDeframed (age : Nat) (drains : List (Nat × Nat)) (s : State) :
    Host.Outcome State Fault Refusal :=
  .next <|
    let n := frameBlocks (rxProf s)
    let bs := s.frm.rxBlocks.take n
    if s.codeP && bs.length == n && bs.all (fun b => some b.frame == bs.head?.map fun h => h.frame) then
      let s := drains.foldl (fun s d => drainEgress d.1 d.2 s) (s.onFrm fun f => { f with
        rxBlocks := f.rxBlocks.drop n })
      let x := readFrame s bs
      let inTraffic := s.pwr.mode == .traffic
      let t2 := arrivalTime s x.id age
      let s := note 0x502 x.count.toNat 0 (when (!x.valid) (note 0x503 x.count.toNat 0) s)
      let s := checkDetector x (takeEcho x t2 age (measure x t2 (takeFrame x s)))
      sequenceFrame x inTraffic (overheadStep x s)
    else s

end Sys2Proof.Machine
end

