-- ==== Sys2Proof/Machine/Modes.lean ====
section
/-!
DEFINITION. Mode transitions: OP_MODE_SET and OP_RESET (R405, R502, R503), the READY start-up
(R504), the wind-down (R505), zeroisation's end (R131, R132), OP_KEY_LOAD with its way out of
ZEROISED (R125, R126, R506) and self-test (R508).
-/

namespace Sys2Proof.Machine

/-! ### READY start-up (R504) -/

/-- The known-answer tests have run (R109). -/
def katDone (passed : Bool) (s : State) : State :=
  let s := s.onCry fun y => { y with katFailed := !passed }
  if passed then s else raise 295 0 s

/-- The domains of code P start: DEV_START is empty and the output is QUIET with its request
clear (R173). The clipping windows begin anew, and the frame that the stop cut off is counted in none
(R166, log 113). -/
def startCodeP (s : State) : State :=
  if s.pwr.pRunning then s
  else
    let s := s.onPwr fun p => { p with pRunning := true, start := 0 }
    let now := s.evt.period
    let s := s.onRx fun r => { r with clipAt := now }
    resumeLaps (enterOut .quiet 0 (s.onTx fun t => { t with
      request := false, upReady := false, clipAt := now, clips := []
      clipSum := { xi := 0, xq := 0, yi := 0, yq := 0 }, before := [], now := {} }))

/-- READY_ENTRY: the entry actions of READY. -/
def execReadyEntry (katPassed : Bool) (s : State) : Host.Outcome State Fault Refusal :=
  .next <|
    if s.pwr.readyEntryDue then
      let s := startCodeP (s.onPwr fun p => { p with readyEntryDue := false })
      let s := invalidate 9 (invalidate 1 (invalidate 0 s))
      katDone katPassed ((s.onMem fun m => { m with coeffRebuild := none, coeffs := [] }).onRx
        fun r => { r with cdDead := [] })
    else s

/-- Set a bit of DEV_START. -/
def startBit (i : Nat) (s : State) : State :=
  s.onPwr fun p => { p with start := p.start ||| (1#32 <<< i) }

/-- READY_UNIT_START: a converter or a churn group starts at its time. -/
def execReadyUnitStart (u : StartUnit) (s : State) : Host.Outcome State Fault Refusal :=
  .next <|
    if s.pwr.starting && s.codeP then
      match u with
      | .converter i => if decide (i < 8) && unitDue i s then startBit i s else s
      | .churnGroup g =>
        if decide (g < 8) && unitDue (16 + g) s && !bit s.pwr.start (16 + g) then
          startChurnGroup g (startBit (16 + g) s)
        else s
    else s

/-- The converter's sampling synthesiser is locked: DACs 0 to 3, ADCs 4 to 7. -/
def converterLocked (s : State) (i : Nat) : Bool :=
  if i < 4 then s.tx.synthLocked else s.rx.adcLocked

/-- CONVERTER_CALIBRATION_END. -/
def execConverterCalibrationEnd (i : Nat) (s : State) : Host.Outcome State Fault Refusal :=
  .next <|
    if decide (i < 8) && s.codeP && bit s.pwr.start i && converterLocked s i then startBit (8 + i) s
    else s

/-- The OP_MODE_SET in progress completes. -/
def endTransition (s : State) : State :=
  match s.pwr.modeJob with
  | some j => finishOk j [] (s.onPwr fun p => { p with modeJob := none })
  | none => s

/-- READY_DONE: every converter has calibrated. -/
def execReadyDone (s : State) : Host.Outcome State Fault Refusal :=
  .next <|
    if s.pwr.starting && s.codeP && fld s.pwr.start 15 8 == 255 then
      endTransition (raise 1 0 (s.onPwr fun p => { p with starting := false }))
    else s

/-! ### Wind-down (R505) -/

/-- Step 1 from acceptance: the request is cleared and held clear. A start-up ends here. -/
def startWindDown (s : State) : State :=
  if s.pwr.windDown.isSome then s
  else (setRequest false s).onPwr fun p => { p with starting := false, windDown := some .output }

/-- The bits of DEV_START in the order in which their units start. -/
def startOrder : List Nat :=
  [0, 16, 24, 25, 17, 26, 27, 18, 28, 1, 29, 19, 30, 31, 20, 2, 21, 22, 23, 3, 4, 5, 6, 7]

/-- A unit stops. A stopped converter is no longer calibrated, and a pair's lanes return to L0. -/
def stopUnit (b : Nat) (s : State) : State :=
  let gone : Word := (1#32 <<< b) ||| (if b < 8 then 1#32 <<< (8 + b) else 0)
  let s := s.onPwr fun p => { p with start := p.start &&& ~~~gone }
  if 24 ≤ b then
    let s := s.onPwr fun p => { p with
      pairs := p.pairs.map fun q => (q.1, q.2.filter fun l => l / 2 != b - 24) }
    stopLane (2 * (b - 24) + 1) (stopLane (2 * (b - 24)) s)
  else s

/-- The unit that stops when `left` still run. -/
def stopNext (left : Nat) (s : State) : State :=
  let s := stopUnit (startOrder.getD (left - 1) 0) s
  s.onPwr fun p => { p with windDown := some (if left ≤ 1 then .unitsStopped else .units (left - 1)) }

/-- Step 1 has ended: the output is QUIET and its hooks have run. -/
def outputStopped (s : State) : Bool := s.tx.out == .quiet && s.tx.hooks.isNone

/-- The unit that stops when `left` still run is due: the reverse of the start-up, at its spacing. -/
def stopDue (left : Nat) (s : State) : Bool :=
  usSince (1750 - startTime (startOrder.getD (left - 1) 0)) s.pwr.windAt s

/-- WIND_DOWN_UNIT_STOP: the dispatcher stops with the first. -/
def execWindDownUnitStop (s : State) : Host.Outcome State Fault Refusal :=
  .next <|
    match s.pwr.windDown with
    | some .output =>
      let now := s.evt.period
      if outputStopped s then stopNext 24 (stopFabric (s.onPwr fun p => { p with windAt := now })) else s
    | some (.units n) => if stopDue n s then stopNext n s else s
    | _ => s

/-- Step 3: the domains of code P stop. A filter update whose frame start has not come stays pending until
frames resume (R164; DESIGN CHOICE, log 108), as an untimed key switch does (R113, log 111). -/
def stopCodeP (s : State) : State :=
  let s := commitDecCfg (commitRx s)
  let s := stopSkim (stopFabric (stopReceive (stopLanes (stopFrames s))))
  let s := (s.onTx fun t => { t with synthLocked := false, upReady := false }).onPwr fun p =>
    { p with pRunning := false, start := 0 }
  (List.range 12).foldl (fun s g =>
    if groupCodeP g then endPass g stTimeout (pauseLap g s) else s) s

/-- STANDBY_ENTRY: steps 3 and 4, 50 us after the last unit. A wind-down of OP_RESET ends at step 3, and one that a
zeroisation overtook leaves the device in ZEROISED. -/
def execStandbyEntry (s : State) : Host.Outcome State Fault Refusal :=
  .next <|
    if s.pwr.windDown = some .unitsStopped && usSince 1800 s.pwr.windAt s then
      let s := stopCodeP s
      if s.cmd.resetJob.isSome then s.onPwr fun p => { p with windDown := some .done }
      else
        let s := s.onPwr fun p => { p with windDown := none }
        endTransition (if s.pwr.mode = .ready then enterMode false .standby s else s)
    else s

/-! ### OP_MODE_SET (R502, R503) -/

/-- The mode that a target code names, where a command may name it. -/
def targetMode (n : Nat) : Option Mode :=
  match n with
  | 2 => some .standby
  | 3 => some .ready
  | 4 => some .acquire
  | 6 => some .maintenance
  | _ => none

/-- The transitions of R502 by command. -/
def listed (old new : Mode) : Bool :=
  [(Mode.standby, Mode.ready), (.ready, .standby), (.ready, .acquire), (.ready, .maintenance),
   (.acquire, .ready), (.traffic, .ready), (.maintenance, .ready)].contains (old, new)

/-- The transition itself, at the commit. -/
def transition (j : Job) (old new : Mode) (s : State) : Verdict :=
  match new with
  | .standby => .work ((startWindDown s).onPwr fun p => { p with modeJob := some j.id })
  | .ready =>
    let s := enterReady false s
    if old = .standby then .work (s.onPwr fun p => { p with modeJob := some j.id })
    else .complete s []
  | _ => .complete (enterMode false new s) []

def modeSetBody (j : Job) (s : State) : Verdict :=
  match targetMode (fld (j.param 0) 2 0) with
  | none => .refuse (badParam 0)
  | some m =>
    if m = s.pwr.mode then .complete s []
    else if !listed s.pwr.mode m then .refuse (refMode s)
    else if s.pwr.starting || s.pwr.windDown.isSome then .refuse refBusy
    else transition j s.pwr.mode m s

def execOpModeSet (j : Nat) (s : State) : Host.Outcome State Fault Refusal :=
  .next (runOp 0x0103 1 modeSetBody j s)

/-! ### OP_RESET (R405) -/

/-- The work of a committed command that the reset cuts off: slots keep what has been programmed, and no
further transaction, word or test follows. A recovery pass ends with its command (R457). -/
def cutWork (j : Nat) (s : State) : State :=
  let s := s.onPwr fun p => { p with
    staging := p.staging.filter fun q => q.1 ≠ j
    bist := p.bist.filter fun q => q.1 ≠ j }
  let s := s.onTx fun t => { t with
    hostQueue := t.hostQueue.filter fun q => q.job ≠ some j
    optResetJobs := t.optResetJobs.filter fun q => q.1 ≠ j }
  (List.range 12).foldl (fun s g =>
    if ((memGrp s g).pass.map fun p => p.job) = some j then cutPass g s else s) s

/-- What becomes of another outstanding command. -/
def cutOff (j : Job) (s : State) : State :=
  if j.stage = .decided then s
  else if j.committed then cutWork j.id (finish j.id stOk 0x40000000 [] s)
  else cancel j.id stAborted 0 s

def resetBody (j : Job) (s : State) : Verdict :=
  let others := s.cmd.jobs.filter fun x => x.id ≠ j.id
  let s := others.foldl (fun s x => cutOff x s) (s.onCmd fun c => { c with resetJob := some j.id })
  let s := s.onPwr fun p => { p with
    modeJob := none, readyEntryDue := false, starting := p.starting && p.pRunning }
  .complete (if s.codeP then startWindDown s else s) []

def execOpReset (j : Nat) (s : State) : Host.Outcome State Fault Refusal :=
  .next (runOp 0x0104 0 resetBody j s)

/-! ### Zeroisation ends (R131 steps 4 and 5, R132) -/

/-- ZEROISE_COMPLETE: overwrite and read-back end; `nonzero` says that the read-back found a
word that was not zero. A pin held low starts the erasure again. -/
def execZeroiseComplete (nonzero : Bool) (s : State) : Host.Outcome State Fault Refusal :=
  .next <|
    if s.cry.zeroising && s.codeS then
      let officer := s.cry.zCommand
      let s := zeroGroup 6 (clearKeys s)
      let s := s.onCry fun y => { y with
        zReadback := y.zReadback || nonzero, zeroising := y.zeroisePin || y.tamperPin }
      let s := if s.pwr.mode = .zeroised then s else enterMode officer .zeroised s
      abortOfficer (raiseBy officer 288 0 s)
    else s

/-! ### OP_KEY_LOAD (R125, R126) -/

/-- The key takes its slot, and the context leaves KEY_FAULT. -/
def loadKey (c : Nat) (b : Bool) (key : List Byte) (s : State) : State :=
  let s := onCtx c (fun x => { x.withSlot b .loaded with
    fault := false
    erase := if (x.erase.map fun o => o.slot) = some b then none else x.erase }) s
  raiseBy true 272 c (writeWords 6 (keyAddr c b) (keyWords key) s)

/-- ZEROISED ends with a key load; the units that run keep running (R506). -/
def leaveZeroised (s : State) : State :=
  if s.pwr.mode = .zeroised then
    let s := enterReady true s
    if s.codeP then raiseBy true 1 0 s else s
  else s

def keyLoadBody (j : Job) (s : State) : Verdict :=
  let c := fld (j.param 0) 9 0
  let b := bit (j.param 0) 16
  let unwrapped := s.cry.officer.bind fun o => keyUnwrap o.2 (paramBytes j 4 48)
  if pinsAsserted s then .refuse refDenied
  else match unwrapped with
    | none => .refuse refAuth8
    | some r =>
      if !recordOk c b r then .refuse refAuth8
      else if slotInUse s c b then .refuse refBusy
      else .complete (leaveZeroised (noteKeys j [c] (loadKey c b (r.take 32) s))) [keyCheck (r.take 32)]

def execOpKeyLoad (j : Nat) (s : State) : Host.Outcome State Fault Refusal :=
  .next (runOp 0x0410 13 keyLoadBody j s)

/-! ### Self-test (R508) -/

def bistBody (j : Job) (s : State) : Verdict :=
  let m := (j.param 0).extractLsb' 0 5
  match firstRefusal [
    (m == 0, badParam 0),
    (m.getLsbD 3 && (s.skim.capture == .armed || s.skim.capture == .triggered), refBusy)] with
  | some r => .refuse r
  | none =>
    let s := if s.rx.acq = 0 then s else toAcq 0 false s
    .work (s.onPwr fun p => { p with bist := p.bist ++ [(j.id, m)] })

def execOpBist (j : Nat) (s : State) : Host.Outcome State Fault Refusal :=
  .next (runOp 0x0810 1 bistBody j s)

/-- The group that a memory test of the mask tests. -/
def bistGroup : Nat → Nat
  | 0 => 0 | 1 => 1 | 2 => 9 | _ => 10

/-- A mode in which the acquisition machine runs. -/
def acqMode (m : Mode) : Bool := m == .acquire || m == .traffic || m == .maintenance

/-- BIST_DONE: the oldest self-test ends. -/
def execBistDone (failed : BitVec 5) (firstFail : Word) (s : State) :
    Host.Outcome State Fault Refusal :=
  .next <|
    match s.pwr.bist with
    | [] => s
    | (j, m) :: rest =>
      let f := failed &&& m
      let s := (List.range 4).foldl (fun s i =>
        if m.getLsbD i then invalidate (bistGroup i) s else s) s
      let s := s.onPwr fun p => { p with bist := rest }
      let s := if rest.isEmpty && acqMode s.pwr.mode && s.rx.acq = 0 then toAcq 1 false s else s
      let first := if f.toNat % 16 = 0 then 0 else firstFail
      finishOk j [f.setWidth 32, first] (raise 9 f.toNat s)

end Sys2Proof.Machine
end

