-- ==== Sys2Proof/Machine/Telemetry.lean ====
section
/-!
DEFINITION. The telemetry converter: sequences and the start bit (R357 to R359), over-range and
disturbance (R360, R361), the test DAC (R362) and the decimating engine (R363).
-/

namespace Sys2Proof.Machine

/-- A sequence takes effect: the window restarts, and every result reads 0 (R359). -/
def loadSequence (seq : List MonEntry) (log2 : Nat) (s : State) : State :=
  s.onMon fun m => { m with
    seq := seq, log2 := log2, pend := none, result := [], dec := [], sums := [], fill := 0 }

/-- A pass starts; an accepted sequence commits first. After 1 µs of idle time the first
conversion is not disturbed. -/
def startPass (s : State) : State :=
  let s := match s.mon.pend with
    | some p => commitDone p.1 [] (loadSequence p.2.1 p.2.2 s)
    | none => s
  let now := s.evt.period
  let rested := !s.mon.running && decide (250 ≤ (now - s.mon.lastEnd).toNat)
  s.onMon fun m => { m with
    running := true, passPending := false, active := 0, overRange := m.overRange && !rested
    lastEnd := if m.running then m.lastEnd else now }

/-- A write of 1 to MONADC_CTRL.START (R358). -/
def monStart (s : State) : State :=
  if !s.codeS || s.mon.seq.isEmpty then s
  else if !s.mon.running then startPass s
  else if !s.mon.passPending then s.onMon fun m => { m with passPending := true }
  else statAdd 0x800D0 1 s

def execMonadcStartWrite (s : State) : Host.Outcome State Fault Refusal := .next (monStart s)

/-- MONADC_RESULT of a conversion (R376). -/
def resultWord (tag : BitVec 4) (e : MonEntry) (code : BitVec 12) (overRange under disturbed : Bool) : Word :=
  word (tag.toNat * 2 ^ 28 + e.input.toNat * 2 ^ 22 + 2 ^ 18 + b2n disturbed * 2 ^ 17 +
    b2n under * 2 ^ 16 + b2n overRange * 2 ^ 15 + code.toNat)

/-- MONADC_DEC at the end of a window (R363, R376). -/
def meanWord (tag : BitVec 4) (log2 : Nat) (m : MonSum) : Word :=
  word (tag.toNat * 2 ^ 28 + 2 ^ 23 + b2n m.disturbed * 2 ^ 22 + b2n m.overRange * 2 ^ 21 +
    m.sum * 2 ^ (8 - log2))

/-- The engine adds entry i's code to its sum. -/
def decimate (i : Nat) (code : BitVec 12) (overRange disturbed : Bool) (s : State) : State :=
  s.onMon fun m => { m with sums := tabMod {} m.sums i fun x => {
    sum := x.sum + code.toNat, overRange := x.overRange || overRange
    disturbed := x.disturbed || disturbed } }

/-- The entries of a sequence whose decimation flag is set. -/
def flaggedEntries (seq : List MonEntry) : List Nat :=
  (List.range seq.length).filter fun i => match seq[i]? with
    | some e => e.decimate
    | none => false

/-- The window's last pass ends: the means are written, and the window restarts. -/
def endWindow (s : State) : State :=
  let is := flaggedEntries s.mon.seq
  let s := s.onMon fun m => { m with
    fill := 0, sums := []
    dec := is.foldl (fun d i => tabSet 0 d i (meanWord m.tag m.log2 (tabGet {} m.sums i))) m.dec }
  if is.isEmpty then s else raise 131 0 s

/-- A pass ends (R357, R358, R363). -/
def endMonPass (s : State) : State :=
  let s := raise 128 0 (statAdd 0x800C0 1 (s.onMon fun m => { m with
    tag := m.tag + 1, active := 0, fill := m.fill + 1 }))
  let s := if s.mon.fill = 2 ^ s.mon.log2 then endWindow s else s
  if s.mon.passPending then startPass s else s.onMon fun m => { m with running := false }

/-! ### Conversions (R353 to R356, R360 to R362) -/

/-- The divider of an input (R353). -/
def divider (input : Nat) : Nat :=
  if input = 19 then 4 else if input = 13 ∨ input = 15 ∨ input = 17 ∨ input = 18 then 2 else 1

/-- The full scale at an entry's input in volts (R354). -/
def fullScale (e : MonEntry) : Rat := (12 / 10) * (divider e.input.toNat : Nat) / (2 ^ e.gain.toNat : Nat)

/-- A conversion of S_CODE occupies s + 13 converter cycles of 8 TIMESTAMP periods (R356). -/
def convPeriods (sCode : Nat) : Nat := 8 * (2 ^ (sCode + 2) - 1 + 13)

/-- The test DAC's output in volts, once it has settled; the spec states none while it is off, or in the
10 µs after a command changed it (R362). -/
def testDacVolts (s : State) : Option Rat :=
  if bit s.mon.testDac 10 && decide (2500 ≤ (s.evt.period - s.mon.dacSet).toNat) then
    some ((fld s.mon.testDac 9 0 : Nat) * (12 / 10) / 1024)
  else none

/-- The test DAC drives an AIN ball through its 10 kΩ (R362). -/
def injectedInto (s : State) (input : Nat) : Bool :=
  bit s.mon.testDac 10 && bit s.mon.testDac 16 && input == 20 + fld s.mon.testDac 15 12

/-- A ball that the test DAC drives through 10 kΩ against what stands outside (R362). -/
def injectedVolts (dac : Rat) (v : InputSource) : Rat :=
  match v.ohms with
  | some r => (dac * r + v.value * 10000) / (r + 10000)
  | none => dac

/-- What an input holds, in volts, or in degrees of a temperature sensor. Inputs 37 to 39 are the device's
own, and the operand is what the converter finds above what stands there; so it does wherever the test DAC
has not settled (R353, R362; DEDUCED, log 187). -/
def inputValue (s : State) (input : Nat) (v : InputSource) : Rat :=
  if input = 37 then (testDacVolts s).getD 0 + v.value
  else if input = 39 then 6 / 10 + v.value
  else if injectedInto s input then
    match testDacVolts s with
    | some d => injectedVolts d v
    | none => v.value
  else v.value

/-- A number held to 0 to 4,095. -/
def heldCode (n : Int) : BitVec 12 := BitVec.ofInt 12 (clampInt 0 4095 n)

/-- A conversion's code before disturbance, and whether the input is above full scale or below ground
(R354, R355, R360). -/
def convert (e : MonEntry) (x : Rat) : BitVec 12 × Bool × Bool :=
  if e.input.toNat < 8 then (heldCode (nearest ((x + 64) * 16)), false, false)
  else if fullScale e < x then (4095, true, false)
  else if x < 0 then (0, false, true)
  else (heldCode (nearest (4096 * x / fullScale e)), false, false)

/-- A disturbed conversion with less than 992 ns of sampling time errs by up to 8 LSB: a free value
(R361). -/
def disturbCode (e : MonEntry) (code : BitVec 12) (s : State) : BitVec 12 × State :=
  if s.mon.overRange && decide (e.sCode.toNat < 3) then
    let r := drawFree s
    (heldCode ((code.toNat : Int) + (r.1.toNat % 17 : Nat) - 8), r.2)
  else (code, s)

/-- The effects of the result of the entry converting now. -/
def takeConversion (i : Nat) (e : MonEntry) (code : BitVec 12) (overRange under : Bool) (s : State) :
    State :=
  let disturbed := s.mon.overRange
  let s := s.onMon fun m => { m with
    result := tabSet 0 m.result i (resultWord (m.tag + 1) e code overRange under disturbed)
    overRange := overRange || under
    lastEnd := m.lastEnd + BitVec.ofNat 64 (convPeriods e.sCode.toNat), active := i + 1 }
  let s := if overRange || under then
      raiseLimited (129 * 2 ^ 16 + i) 129 i (errAdd 0x800C8 1 s) else s
  let s := if code < e.low || e.high < code then
      raiseLimited (130 * 2 ^ 16 + i) 130 i (errAdd 0x800D8 1 s) else s
  let s := if e.decimate then decimate i code (overRange || under) disturbed s else s
  if i + 1 = s.mon.seq.length then endMonPass s else s

/-- CONVERSION_END: the entry converting now has had its cycles. -/
def execConversionEnd (i input : Nat) (v : InputSource) (s : State) : Host.Outcome State Fault Refusal :=
  .next <|
    match s.mon.seq[s.mon.active]? with
    | some e =>
      if s.codeS && s.mon.running && i == s.mon.active && input == e.input.toNat &&
          decide (convPeriods e.sCode.toNat ≤ (s.evt.period - s.mon.lastEnd).toNat) then
        let c := convert e (inputValue s input v)
        let r := if c.2.1 || c.2.2 then (c.1, s) else disturbCode e c.1 s
        takeConversion i e r.1 c.2.1 c.2.2 r.2
      else s
    | none => s

/-! ### Commands (R374) -/

/-- Entry i of OP_MON_SEQUENCE. -/
def monEntryOf (j : Job) (i : Nat) : MonEntry where
  input := (j.param (1 + 2 * i)).extractLsb' 0 6
  gain := (j.param (1 + 2 * i)).extractLsb' 8 2
  sCode := (j.param (1 + 2 * i)).extractLsb' 12 3
  decimate := bit (j.param (1 + 2 * i)) 16
  low := (j.param (2 + 2 * i)).extractLsb' 0 12
  high := (j.param (2 + 2 * i)).extractLsb' 16 12

/-- An input that does not exist, or a gain on a temperature input (R353, R355). -/
def monEntryBad (e : MonEntry) : Bool := decide (39 < e.input.toNat) || (decide (e.input.toNat < 8) && e.gain != 0)

def monSequenceBody (j : Job) (s : State) : Verdict :=
  let n := fld (j.param 0) 4 0
  let d := fld (j.param 0) 11 8
  let es := (List.range n).map (monEntryOf j)
  match firstRefusal [
    (decide (n < 1) || decide (16 < n) || decide (8 < d), badParam 0),
    (decide (j.body.length < 1 + 2 * n), badParam j.body.length),
    (es.any monEntryBad, badParam (1 + 2 * (es.findIdx monEntryBad))),
    (s.mon.pend.isSome, refBusy)] with
  | some r => .refuse r
  | none =>
    if s.mon.running then .accept (s.onMon fun m => { m with pend := some (j.id, es, d) })
    else .complete (loadSequence es d s) []

def execOpMonSequence (j : Nat) (s : State) : Host.Outcome State Fault Refusal :=
  .next (runOp 0x0701 1 monSequenceBody j s)

def monTestdacBody (j : Job) (s : State) : Verdict :=
  let now := s.evt.period
  .complete (s.onMon fun m => { m with testDac := j.param 0, dacSet := now }) []

def execOpMonTestdac (j : Nat) (s : State) : Host.Outcome State Fault Refusal :=
  .next (runOp 0x0702 1 monTestdacBody j s)

end Sys2Proof.Machine
end

