-- ==== Sys2Proof/Machine/Registers.lean ====
section
/-!
DEFINITION. What a read of each register returns (R539 to R543): the register tables of every
block, and the pairs and triples that R468 latches.
-/

namespace Sys2Proof.Machine

/-- A register word from fields: values and their lowest bits. -/
def fields (l : List (Nat × Nat)) : Word := word (l.foldl (fun n f => n + f.1 * 2 ^ f.2) 0)

/-- A flag in a bit. -/
def flag (b : Bool) (i : Nat) : Nat × Nat := (b2n b, i)

/-- Bits 0 to n - 1 as a number. -/
def bitsOf (n : Nat) (f : Nat → Bool) : Nat := (List.range n).foldl (fun v i => v + b2n (f i) * 2 ^ i) 0

/-- A signed value as a register word. -/
def intWord (v : Int) : Word := BitVec.ofInt 32 v

/-- The low n bits of a signed value, as a 64-bit count. -/
def intQuad (n : Nat) (v : Int) : Quad := BitVec.ofNat 64 (wrapInt n v)

/-! ### Pairs and triples (R468) -/

/-- `q` is the first word of one of the `step`-spaced counts from `lo` up to `hi`. -/
def inRun (lo hi step q : Nat) : Bool := decide (lo ≤ q) && decide (q < hi) && (q - lo) % step == 0

/-- A _LO register, by block and offset in the block. -/
def pairHead (b o : Nat) : Bool :=
  match b with
  | 0x00 => inRun 0x20 0x30 8 o
  | 0x01 => inRun 0x10 0x40 8 o || inRun 0x100 0x180 0x20 o || inRun 0x200 0x280 0x20 o
  | 0x03 => inRun 0x18 0x38 8 o
  | 0x04 => o == 0x10 || o == 0x20 || o == 0x38 || inRun 0x100 0x1100 0x20 o ||
      inRun 0x4000 0x4620 0x10 o
  | 0x05 => o == 0x10 || (decide (0x1000 ≤ o) && decide (o < 0x2800) &&
      (inRun 0x18 0x40 8 (o % 0x200) || inRun 0x108 0x200 0x10 (o % 0x200)))
  | 0x06 => o == 0x14 || inRun 0x58 0x80 8 o
  | 0x07 => inRun 0x04 0x1C 8 o || inRun 0x28 0x40 8 o
  | 0x08 => inRun 0xC0 0xE0 8 o
  | 0x09 => inRun 0x28 0x60 8 o
  | 0x0A => inRun 0x10 0x30 8 o || o == 0x38
  | 0x0B => inRun 0x40 0xA0 8 o
  | 0x0C => inRun 0x20 0x80 8 o || inRun 0x100 0x180 8 o ||
      (decide (0x1000 ≤ o) && decide (o < 0x9000) && inRun 0x08 0x30 8 (o % 0x400))
  | 0x0D => inRun 0x10 0x20 8 o
  | 0x0E => inRun 0x10 0x20 8 o ||
      (decide (0x1000 ≤ o) && decide (o < 0x9000) && inRun 0x08 0x20 8 (o % 0x20))
  | 0x10 => inRun 0x08 0x40 8 (o % 0x40)
  | 0x20 => inRun 0x20 0x58 8 (o % 0x1000)
  | _ => false

/-- Word 0 of a time triple. -/
def tripleHead (b o : Nat) : Bool :=
  match b with
  | 0x06 => [0x20, 0x2C, 0x48].contains o
  | 0x09 => [0x10, 0x1C].contains o
  | _ => false

/-- How many words the count at an address has: 3, 2, or 0 where no count starts there. -/
def headWords (a : Nat) : Nat :=
  if tripleHead (a / 0x10000) (a % 0x10000) then 3
  else if pairHead (a / 0x10000) (a % 0x10000) then 2 else 0

/-- The count that a high word belongs to, and which of its words it is. -/
def highOf (a : Nat) : Option (Nat × Nat) :=
  if 4 ≤ a ∧ 2 ≤ headWords (a - 4) then some (a - 4, 1)
  else if 8 ≤ a ∧ headWords (a - 8) = 3 then some (a - 8, 2) else none

/-- A counter's value as PMU_VIEW presents it (R469). -/
def viewed (s : State) (a : Nat) : Quad :=
  match blockOf a with
  | some b => if s.pmu.view.getLsbD b then tabGet 0 s.pmu.shadow a else counter s a
  | none => counter s a

/-- The value of a pair. -/
def pairValue (s : State) (a : Nat) : Quad :=
  let o := a % 0x10000
  match a / 0x10000 with
  | 0x01 =>
    if o < 0x100 then viewed s a
    else if o < 0x200 then (sqAt s (o / 0x20 - 8)).base else (cqAt s (o / 0x20 - 16)).base
  | 0x04 =>
    if o = 0x10 then s.pmu.snapTs
    else if o = 0x20 then s.pmu.overflow
    else if 0x100 ≤ o ∧ o < 0x1100 ∧ o % 0x40 = 0x20 then
      (pmcAt s (o / 0x40 - 4)).cfg.preset.setWidth 64
    else viewed s a
  | 0x05 =>
    if 0x1000 ≤ o ∧ 0x100 ≤ o % 0x200 then
      ((memGrp s (o / 0x200 - 8)).log[o % 0x200 / 16 - 16]?.map fun r => r.stamp).getD 0
    else viewed s a
  | 0x06 =>
    if o = 0x14 then BitVec.ofNat 64 (s.tim.baseLo.toNat + s.tim.baseHi.toNat * 2 ^ 32)
    else viewed s a
  | 0x07 =>
    if o = 0x04 then intQuad 40 s.dpll.y
    else if o = 0x0C then intQuad 40 (openRound s.dpll.estimate)
    else if o = 0x14 then BitVec.ofNat 64 (s.dpll.ncoLo.toNat + s.dpll.ncoHi.toNat * 2 ^ 32)
    else viewed s a
  | 0x09 => if o = 0x28 then s.skim.syncSample else viewed s a
  | 0x0D => if o = 0x10 then s.frm.txCount else s.frm.rxCount
  | 0x0E => if o = 0x10 then s.cry.seq else viewed s a
  | _ => viewed s a

/-- The words of the count whose word 0 stands at `a`. -/
def countWords (s : State) (a : Nat) : List Word :=
  if headWords a = 3 then
    match a with
    | 0x60020 => tripleWords s.tim.counter
    | 0x6002C => tripleWords s.tim.cap
    | 0x60048 => signedTripleWords s.tim.advice
    | 0x90010 => tripleWords s.skim.trigTime
    | _ => tripleWords s.skim.syncTime
  else quadWords (pairValue s a)

/-! ### DEV (R509 to R512) -/

def devRegister (s : State) (o : Nat) : Word :=
  let p := s.pwr
  match o with
  | 0x00 => fields [(0x2460, 0), (Config.siliconRevision.toNat, 16)]
  | 0x04 => fields [flag p.supplyLow 9, flag p.avsLow 8, flag p.thermalWarn 7, flag p.pRunning 6,
      flag (p.windDown.isSome && p.windDown != some .done) 5, flag p.starting 4, (p.mode.code, 0)]
  | 0x08 => fields [(p.rail.toNat, 8), flag p.causeCommand 4, flag p.causeThermal 3,
      flag p.causeSupply 2, flag p.causePin 1, flag p.causePowerOn 0]
  | 0x0C => fields [(fusedMinimum s, 24), (p.stageFail.toNat, 20), (p.failMbox.toNat, 16),
      (p.failB.toNat, 12), (p.failA.toNat, 8), (p.bootSel.toNat, 4), (p.source.toNat, 0)]
  | 0x10 => fields [flag p.avsValid 16, (p.avsTarget.toNat, 0)]
  | 0x14 => p.start
  | _ => 0

/-! ### CMD (R408 to R410) -/

def CoreState.code : CoreState → Nat
  | .inService => 0 | .restarting => 1 | .offline => 2

/-- Zilvy runs and fetch is allowed (R385, R405, R419, R551). -/
def fetchAllowed (s : State) : Bool :=
  s.codeS && s.cmd.resetJob.isNone && !s.evt.d3hot && s.evt.busMaster && !s.evt.perst

def cmdRegister (s : State) (o : Nat) : Word :=
  let core := fun c => tabGet {} s.cmd.core c
  match o with
  | 0x00 => fields [flag (s.codeS && coreMask s == 0) 17, flag (fetchAllowed s) 16,
      (bitsOf 4 fun c => (core c).state == .restarting, 12), ((coreMask s).toNat, 8),
      (bitsOf 4 (cqStalled s), 4), (bitsOf 4 fun r => (sqAt s r).enable, 0)]
  | 0x04 => word (s.cmd.jobs.filter Job.live).length
  | 0x08 => word ((List.range 4).foldl (fun n c =>
      n + ((core c).state.code + (core c).lastCause.toNat * 16) * 2 ^ (8 * c)) 0)
  | 0x0C => (mboxStatus s).setWidth 32
  | _ =>
    if 0x100 ≤ o ∧ o < 0x180 then
      let q := sqAt s (o / 0x20 - 8)
      match o % 0x20 with
      | 0x08 => fields [flag q.fetchError 5, flag q.enable 4, (q.size.toNat, 0)]
      | 0x0C => q.tail.setWidth 32
      | 0x10 => q.head.setWidth 32
      | _ => 0
    else if 0x200 ≤ o ∧ o < 0x280 then
      let q := cqAt s (o / 0x20 - 16)
      match o % 0x20 with
      | 0x08 => fields [flag (cqStalled s (o / 0x20 - 16)) 5, flag q.enable 4, (q.size.toNat, 0)]
      | 0x0C => q.tail.setWidth 32
      | 0x10 => q.head.setWidth 32
      | _ => 0
    else 0

/-! ### ICU (R435 to R438) -/

/-- The time left on a group's hold-off timer in 250 ns (R435). -/
def holdoffLeft (e : Evt) (n : Nat) : Nat :=
  match (grpAt e n).timer with
  | some (load, at_) =>
    (openRound (((load.toNat * 125 : Nat) - ((e.period - at_).toNat * 2 : Nat) : Int) / (125 : Rat))).toNat
  | none => 0

def icuGroupRegister (s : State) (n q : Nat) : Word :=
  let e := s.evt
  let each := fun (f : Src → Bool) => word (bitsOf 16 fun i => f (srcAt e (16 * n + i)))
  match q with
  | 0x00 | 0x04 | 0x08 => each fun r => r.e
  | 0x0C | 0x10 | 0x14 => each fun r => r.p
  | 0x18 => fields [(bitsOf 16 fun i => levelSource e.gpioMode (16 * n + i), 0),
      (bitsOf 16 fun i => !sourceDefined (16 * n + i), 16)]
  | 0x1C => each fun r => r.s
  | 0x20 => fields [((grpAt e n).route.toNat, 16), ((grpAt e n).holdoff.toNat, 0)]
  | 0x24 => claimWord e n
  | 0x2C => spuriousWord s n
  | 0x30 => word (holdoffLeft e n)
  | 0x34 => word (grpAt e n).logmask.toNat
  | _ => 0

def icuRegister (s : State) (o : Nat) : Word :=
  let e := s.evt
  match o with
  | 0x00 => word (bitsOf 25 (groupRequests e))
  | 0x04 => word (bitsOf 25 fun n => (grpAt e n).timer.isSome)
  | 0x08 => word (bitsOf 25 fun n => (grpAt e n).asserting)
  | 0x10 => e.gpioMode
  | _ =>
    if 0x1000 ≤ o ∧ o < 0x1000 + 0x40 * 25 then icuGroupRegister s (o / 0x40 - 64) (o % 0x40)
    else if 0x3000 ≤ o ∧ o < 0x3200 then
      word ((List.range 4).foldl (fun v b => v + (srcAt e (o - 0x3000 + b)).c.toNat * 2 ^ (8 * b)) 0)
    else 0

/-! ### EVLOG (R439 to R441) -/

def evlogRegister (s : State) (o : Nat) : Word :=
  let e := s.evt
  match o with
  | 0x00 => fields [flag (e.discarded != 0) 18, flag (logFull e) 17, flag (aboveWatermark e) 16,
      (unread e, 0)]
  | 0x04 => fields [(e.watermark.toNat, 16), flag e.overwrite 0]
  | 0x08 => e.logWrite.setWidth 32
  | 0x0C => e.logRead.setWidth 32
  | 0x10 => e.lastSeq
  | _ => 0

/-! ### PMU (R483 to R485) -/

def pmuStatus (s : State) : Word :=
  fields [((s.pmu.pmc.filter fun e => e.2.pending.isSome).length, 17), flag (sampleHalf s.pmu) 16,
    (unreadSamples s.pmu, 8), flag (s.pmu.view != 0) 7, flag (snapMask s.pmu != 0) 0]

/-- A programmable counter's configuration registers. -/
def pmcRegister (p : Pmc) (q : Nat) : Word :=
  let c := p.cfg
  match q with
  | 0x08 => fields [(p.gen.toNat, 24), (c.configPriv.toNat, 22), flag c.enable 20, flag c.int 19,
      flag c.sample 18, flag c.reload 17, (c.event.toNat, 0)]
  | 0x0C => fields [flag c.range1En 25, flag c.range0En 24, (c.classMask.toNat, 16),
      (c.privMask.toNat, 10), (c.masterMask.toNat, 0)]
  | 0x10 => c.base0
  | 0x14 => c.limit0
  | 0x18 => c.base1
  | 0x1C => c.limit1
  | _ => 0

def pmuRegister (s : State) (o : Nat) : Word :=
  match o with
  | 0x00 => pmuStatus s
  | 0x08 => s.pmu.view.setWidth 32
  | 0x0C => s.pmu.snapOvf.setWidth 32
  | 0x30 => s.pmu.sampleWrite.setWidth 32
  | 0x34 => s.pmu.sampleRead.setWidth 32
  | 0x40 => s.pmu.bwSeq
  | 0x44 => fields [flag s.pmu.bwInt 31, (s.pmu.window.toNat, 0)]
  | _ =>
    if 0x100 ≤ o ∧ o < 0x1100 then pmcRegister (pmcAt s (o / 0x40 - 4)) (o % 0x40)
    else if 0x2000 ≤ o ∧ o < 0x4000 then
      (tabGet [] s.pmu.samples (o / 0x20 - 0x100)).getD (o % 0x20 / 4) 0
    else if 0x4000 ≤ o ∧ o < 0x4620 ∧ o % 0x20 = 8 then word (viewed s (0x40000 + o)).toNat
    else 0

/-! ### MEMI (R460 to R463) -/

/-- The engine of a group pauses: its clock domain is stopped, or a pass runs (R454, R457). -/
def scrubPaused (s : State) (g : Nat) : Bool := !groupRuns s g || (memGrp s g).pass.isSome

/-- The registers of a group. LOGGING and SCRUB_PAUSED show the regime and the pause in force from the exit
from RESET on, hence 1 in BOOT, though R460 and R462 give the fields Reset 0 (R447, R454; DESIGN CHOICE,
log 162). -/
def memgRegister (s : State) (g q : Nat) : Word :=
  let m := memGrp s g
  match q with
  | 0x00 => fields [(m.log.length, 16), flag m.logOverflow 8, flag (scrubPaused s g) 4,
      flag m.lapLong 3, flag m.pass.isSome 2, flag (logging s g) 1, flag (poisonPresent s g) 0]
  | 0x04 => m.lapLimit.setWidth 32
  | 0x08 => m.lapLast.setWidth 32
  | 0x0C => m.lapMin.setWidth 32
  | 0x10 => m.lapMax.setWidth 32
  | _ =>
    if 0x100 ≤ q then
      match m.log[q / 16 - 16]? with
      | some r =>
        match q % 16 with
        | 0x00 => r.addr.setWidth 32
        | 0x04 => fields [(r.detector.toNat, 16), flag r.boot 15, flag true 14, flag r.write 13,
            flag r.ue 12, (r.syndrome.toNat, 0)]
        | _ => 0
      | none => 0
    else 0

def memiRegister (s : State) (o : Nat) : Word :=
  match o with
  | 0x00 => fields [(bitsOf 12 (poisonPresent s), 0), (bitsOf 12 (logging s), 16)]
  | 0x04 => fields [(bitsOf 12 fun g => (memGrp s g).pass.isSome, 0), (bitsOf 12 (scrubPaused s), 16)]
  | 0x08 => s.mem.poisonRead
  | _ =>
    if 0x1000 ≤ o ∧ o < 0x2800 then memgRegister s (o / 0x200 - 8) (o % 0x200) else 0

/-! ### TIME (R349 to R351) -/

def Servo.code : Servo → Nat
  | .off => 0 | .wait => 1 | .tracking => 2 | .locked => 3 | .hold => 4

def timeStatus (s : State) : Word :=
  let t := s.tim
  fields [(t.servo.code, 29), flag t.bwClamped 17, flag t.captured 16,
    (bitsOf 4 fun k => (pulseAt s k).mode == .periodic, 12),
    (bitsOf 4 fun k => (pulseAt s k).mode != .off, 8), flag t.farServoLocked 7,
    flag t.farTimeValid 6, flag t.measuring 5, flag (absRat t.corr == corrLimit s) 4,
    flag t.adviceValid 3, flag t.refusing 2, flag (sentLocked s) 1, flag t.valid 0]

def timeRegister (s : State) (o : Nat) : Word :=
  let t := s.tim
  match o with
  | 0x00 => timeStatus s
  | 0x04 => t.config
  | 0x08 => t.limits
  | 0x0C => t.planes
  | 0x10 => t.asym
  | 0x1C => intWord (corrUnits t.corr)
  | 0x38 => t.offset
  | 0x3C => t.pathDelay
  | 0x40 => word (dTxPs s)
  | 0x44 => word (dRxPs s)
  | _ => 0

/-! ### DPLL (R318 to R320) -/

def DpllState.code : DpllState → Nat
  | .freerun => 0 | .acquire => 1 | .locked => 2 | .switching => 3 | .holdover => 4 | .nco => 5

def SelMode.code : SelMode → Nat
  | .auto => 0 | .manual => 1 | .nco => 2 | .forcedHoldover => 3

def RefState.code : RefState → Nat
  | .disabled => 0 | .failed => 1 | .qualifying => 2 | .qualified => 3 | .suspect => 4

def dpllStatus (s : State) : Word :=
  let d := s.dpll
  fields [(d.current.getD 31, 27), (d.target.getD 31, 22), (d.state.code, 19), flag d.wtrRunning 18,
    flag d.disagree 17, flag (decide (60 ≤ d.history)) 16,
    flag (d.mode == .manual && d.current == some d.manual.toNat) 15, flag d.fallback 14,
    flag d.slewLimited 13, flag d.revertive 12, (bitsOf 4 fun o => (outAt s o).armed.isSome, 8),
    (bitsOf 4 fun o => (outAt s (4 + o)).armed.isSome, 4), (d.mode.code, 2)]

def refStatus (c : Cand) : Word :=
  fields [(wrapInt 24 (clampInt (-8388607) 8388607 c.offset), 8), flag c.pulse 7, flag c.valid 6,
    flag c.freqOk 5, flag c.activityOk 4, (c.state.code, 0)]

def dpllRegister (s : State) (o : Nat) : Word :=
  match o with
  | 0x00 => dpllStatus s
  | 0x1C => intWord (clampInt (-2147483648) 2147483647 s.dpll.phase)
  | 0x20 => word (min 65535 s.dpll.history)
  | _ => if inRun 0x100 0x168 4 o then refStatus (candAt s ((o - 0x100) / 4)) else 0

/-! ### MONADC and SKIM (R375 to R379) -/

def monStatus (m : Mon) : Word :=
  fields [flag (bit m.testDac 10 && bit m.testDac 16) 25, flag (bit m.testDac 10) 24, (m.fill, 16),
    (m.tag.toNat, 12), (m.active, 8), (m.seq.length, 3), flag m.pend.isSome 2, flag m.passPending 1,
    flag m.running 0]

def monRegister (s : State) (o : Nat) : Word :=
  if o = 0 then monStatus s.mon
  else if inRun 0x40 0x80 4 o then tabGet 0 s.mon.result ((o - 0x40) / 4)
  else if inRun 0x80 0xC0 4 o then tabGet 0 s.mon.dec ((o - 0x80) / 4)
  else 0

def Capture.code : Capture → Nat
  | .idle => 0 | .armed => 1 | .triggered => 2 | .frozen => 3

def skimRegister (s : State) (o : Nat) : Word :=
  let k := s.skim
  match o with
  | 0x00 => fields [(k.capture.code, 30), flag k.wrapped 29, flag k.aborted 28, (k.cause.toNat, 22),
      flag k.syncPending 21, (k.index, 0)]
  | 0x04 => fields [flag k.corrected 0, (k.c, 4), (k.fir, 8), (k.shift, 12)]
  | 0x08 => word k.trigIndex
  | 0x0C => word k.syncIndex
  | _ => 0

/-! ### TXDSP and RXDSP (R183 to R185, R227, R228) -/

def OutState.code : OutState → Nat
  | .quiet => 0 | .rampUp => 1 | .on => 2 | .rampDown => 3

/-- DATA_VALID of the frame now being sent. -/
def txDataValid (s : State) : Bool := s.frm.sending && !s.frm.txWhey

def txRegister (s : State) (o : Nat) : Word :=
  let t := s.tx
  match o with
  | 0x00 => fields [((nearest (phiNow s * 65535)).toNat, 16), flag t.synthLocked 7,
      flag t.hooks.isSome 6, flag t.update.isSome 5, flag t.sampled 4, (t.out.code, 2), flag t.alert 1,
      flag (txDataValid s) 0]
  | 0x04 => fields [flag t.request 0]
  | 0x30 => fields [(t.lastStatus.toNat, 8), flag t.lastFailed 2, flag t.resetActive 1,
      flag ((t.wire.map fun w => w.onWire).getD false) 0]
  | _ => 0

/-- A sample was clipped in the last 1 ms (R228). -/
def clippingNow (s : State) : Bool := s.rx.clippedAt.any fun p => !usSince 1000 p s

def rxStatus (s : State) : Word :=
  let r := s.rx
  fields [(r.acq, 28), (r.lastLof.toNat, 24), flag (frontLimit r.cfg r.fe) 12, flag (lineclkValid r) 11,
    flag (loAtLimit r) 10, flag ((r.loMsg.map fun m => m.step && m.failed).getD false) 9,
    flag r.snrLowNow 8, flag r.clipHeavy 7, flag (clippingNow s) 6, flag r.wheyMode 5,
    flag r.carrierLocked 4, flag r.timingLocked 3, flag r.adcLocked 2, flag r.signal 1, flag r.los 0]

/-- A skew in 0.1 ps as a signed byte in 1 ps. -/
def skewByte (v : Int) : Nat := wrapInt 8 (openRound ((v : Rat) / 10))

/-- An IQ gain and phase as a register word. -/
def iqWord (gain phase : Int) : Word := fields [(wrapInt 16 gain, 0), (wrapInt 16 phase, 16)]

def rxRegister (s : State) (o : Nat) : Word :=
  let r := s.rx
  match o with
  | 0x00 => rxStatus s
  | 0x04 => r.power
  | 0x08 => r.snr
  | 0x0C => intWord r.cdEst
  | 0x10 => intWord (openRound r.cdApplied)
  | 0x14 => cdLatency r.cfg.nCode
  | 0x18 => r.dgdPdl
  | 0x1C => intWord r.cfo
  | 0x20 => intWord r.loSum
  | 0x24 => r.sopPb
  | 0x28 => r.timing
  | 0x2C => fields [(skewByte r.fe.skewXi, 0), (skewByte r.fe.skewXq, 8), (skewByte r.fe.skewYi, 16),
      (skewByte r.fe.skewYq, 24)]
  | 0x30 => iqWord r.fe.gainX r.fe.phaseX
  | 0x34 => iqWord r.fe.gainY r.fe.phaseY
  | _ => 0

/-! ### DEC (R261 to R265) -/

def decStatus (s : State) : Word :=
  let d := s.dec
  fields [(d.blocks.length, 20), flag (vatNearFull s) 11, flag (accountNegative d) 10, flag d.clamped 9,
    flag d.cfg.fixed 8, flag d.allStarted 7, (churnsInService s, 1),
    flag (s.codeP && churnsInService s != 0) 0]

def churnStatus (s : State) (c : Nat) : Word :=
  let x := churnAt s c
  fields [flag x.offCmd 20, flag x.offFault 19, flag x.dumping 18, flag x.started 17,
    flag (usable s c) 16, (enginesBusy s.dec c, 8), (slotsUsed s.dec c, 0)]

def decRegister (s : State) (o : Nat) : Word :=
  let d := s.dec
  match o with
  | 0x00 => decStatus s
  | 0x04 => fields [(d.cfg.stealGain.toNat, 16), flag d.cfg.stealEnable 12, flag d.cfg.fixed 11,
      flag d.cfg.budgetAuto 10, (d.cfg.iterWhey, 8), (d.cfg.iterMin - 1, 4), (d.cfg.iterMax - 1, 0)]
  | 0x08 => fields [(d.cfg.budget, 16), (d.cfg.deadline, 0)]
  | 0x0C => word d.cfg.bank
  | 0x10 => fields [(wrapInt 16 d.account, 16), (d.applied, 0)]
  | 0x14 => fields [(d.appliedDeadline, 16), (deadlineLimit s.prof, 0)]
  | _ => if 0x1000 ≤ o ∧ o < 0x9000 ∧ o % 0x400 = 0 then churnStatus s (o / 0x400 - 4) else 0

/-! ### FRM and CIRC (R68, R69, R98 to R100) -/

def frmRegister (s : State) (o : Nat) : Word :=
  let f := s.frm
  match o with
  | 0x00 => fields [flag (f.sending && f.txWhey) 8, flag (poisonPresent s 8) 7, flag (poisonPresent s 7) 6,
      flag f.rxPredicted 5, flag f.rxValid 4, flag f.rxSel 3, flag f.switch.isSome 2, flag f.txNext 1,
      flag f.txSel 0]
  | 0x04 => f.crcA
  | 0x08 => f.crcB
  | _ => 0

/-- A named map holds the circuit. -/
def carriedBy (s : State) (m : Option Bool) (c : Nat) : Bool :=
  (m.map fun b => carries (storedRows s b) c).getD false

def circRegister (s : State) (o : Nat) : Word :=
  let c := o / 0x40
  let x := circAt s c
  match o % 0x40 with
  | 0x00 => fields [(x.lastCount.toNat, 16), flag x.fillPredicted 10, flag x.dark 9,
      flag (x.recoveryLocked && !x.localTiming) 8, flag x.egressFill 7, flag x.farFail 6,
      flag x.ingressFail 5, flag (carriedBy s (rxMap s) c) 4, flag (carriedBy s (switchTarget s) c) 3,
      flag (carriedBy s (some s.frm.txMap) c) 2, flag x.created 0]
  | 0x04 => x.config
  | _ => 0

/-! ### CRY (R136 to R139) -/

def cryStatus (s : State) : Word :=
  let y := s.cry
  fields [(y.switches.length, 8), flag y.katFailed 7, flag y.challenge.isSome 6, flag y.officer.isSome 5,
    flag y.tamperPin 4, flag y.zeroisePin 3, flag (s.pwr.mode == .zeroised) 2]

def ctxState (s : State) (c : Nat) : Word :=
  let x := ctxAt s c
  fields [(x.run.toNat, 16), flag x.lag 11, flag (scheduled s c) 10, (x.bits, 0)]

def cryRegister (s : State) (o : Nat) : Word :=
  let y := s.cry
  match o with
  | 0x00 => cryStatus s
  | 0x04 => fields [flag y.zReadback 3, flag y.zCommand 2, flag y.zTamper 1, flag y.zPin 0]
  | 0x08 => fields [flag y.linkRole 16, (y.tagLimit.toNat, 0)]
  | _ => if 0x1000 ≤ o ∧ o < 0x9000 ∧ o % 0x20 = 0 then ctxState s (o / 0x20 - 128) else 0

/-! ### HLANE (R290 to R292) -/

def laneStatus (x : Lane) : Word :=
  fields [(x.state, 28), (x.lastCause.toNat, 24), (x.startIndex.toNat, 20), flag x.checkerLocked 12,
    flag (x.pattern != 0) 11, flag (x.loopback != 0) 10, flag x.freezeLong 9, flag x.frozen 8,
    flag x.levelLow 7, flag x.densityLow 6, flag x.aligned 5, flag x.amLock 4, flag x.snrOk 3,
    flag x.cdr 2, flag x.signal 1, flag x.txOn 0]

def laneRegister (s : State) (o : Nat) : Word :=
  let x := laneAt s (o / 0x1000)
  match o % 0x1000 with
  | 0x00 => laneStatus x
  | 0x04 => fields [(x.ctlePreset.toNat, 16), flag x.enabled 9, flag x.rate 8, flag x.rxInvert 7,
      flag x.txInvert 6, flag x.rxPrecode 5, flag x.txPrecode 4]
  | 0x08 => fields [(wrapInt 8 x.cPre, 0), (wrapInt 8 x.cPost, 8), (64 - x.cPre.natAbs - x.cPost.natAbs, 16)]
  | 0x0C => fields [(x.peak.toNat, 0), (x.startPeak.toNat, 8), (x.snrMin.toNat, 16)]
  | 0x10 => fields [(x.tdMin.toNat, 0), (x.loMin.toNat, 8), (x.freezeLimit.toNat, 16)]
  | 0x14 => fields [(x.snr.toNat, 0), (x.cdrOffset.toNat, 16)]
  | 0x18 => x.deskew.setWidth 32
  | 0x1C => fields [(x.loopback.toNat, 0), (x.pattern.toNat, 4), (x.checker.toNat, 8)]
  | _ => 0

/-! ### The whole map (R541, R542) -/

/-- A register that is not part of a pair or triple; 0 where the map names none. -/
def single (s : State) (a : Nat) : Word :=
  let o := a % 0x10000
  match a / 0x10000 with
  | 0x00 => devRegister s o
  | 0x01 => cmdRegister s o
  | 0x02 => icuRegister s o
  | 0x03 => evlogRegister s o
  | 0x04 => pmuRegister s o
  | 0x05 => memiRegister s o
  | 0x06 => timeRegister s o
  | 0x07 => dpllRegister s o
  | 0x08 => monRegister s o
  | 0x09 => skimRegister s o
  | 0x0A => txRegister s o
  | 0x0B => rxRegister s o
  | 0x0C => decRegister s o
  | 0x0D => frmRegister s o
  | 0x0E => cryRegister s o
  | 0x10 => circRegister s o
  | 0x20 => laneRegister s o
  | _ => 0

/-- The value registers of counters 56 to 63 read 0 to the PCIe host (R471). -/
def blindTo (m a : Nat) : Bool :=
  m == 0 && decide (0x40F00 ≤ a) && decide (a < 0x41100) && decide (a % 0x40 < 8)

/-- The words of a count as a master reads them. -/
def wordsFor (m : Nat) (s : State) (a : Nat) : List Word := if blindTo m a then [0, 0] else countWords s a

/-- The live word at an address, without the effects of a read. -/
def peek (s : State) (a : Nat) : Word :=
  if headWords a ≠ 0 then (countWords s a).getD 0 0
  else match highOf a with
    | some (h, i) => (countWords s h).getD i 0
    | none => single s a

end Sys2Proof.Machine
end

