-- ==== Sys2Proof/Machine/Bus.lean ====
section
/-!
DEFINITION. Accesses to the register map by the PCIe host, the I²C target port and the cores:
high-word latches (R468), reads that change state (R435), diagnostic windows (R544, R545), the
writable registers (R549), the I²C port's reach (R546, R547) and OP_CRY_READ (R136). Masters
are 0 the PCIe host, 1 the I²C port and 2 to 5 the cores.
-/

namespace Sys2Proof.Machine

def latchAt (s : State) (m : Nat) : Latch := tabGet {} s.bus.latch m

/-- Hold the remaining words of a count for a master. -/
def loadLatch (m a : Nat) (ws : List Word) (s : State) : State :=
  s.onBus fun b => { b with latch := tabSet {} b.latch m { addr := some a, words := ws } }

/-- The group whose ICU register stands at an address, and its offset in the group. -/
def icuGroupAt (a : Nat) : Option (Nat × Nat) :=
  if 0x21000 ≤ a ∧ a < 0x21000 + 0x40 * 25 then some ((a - 0x21000) / 0x40, a % 0x40) else none

/-- The effect of a read of a register that clears when read. -/
def readEffect (a : Nat) (s : State) : State :=
  match icuGroupAt a with
  | some (n, 0x24) => claimRead n s
  | some (n, 0x2C) => clearCounter (cntSpurious n) s
  | _ => s

/-- A read of a register: a count's low word loads the master's latch, and a high word comes
from the latch while it holds that count (R468). -/
def readRegister (m a : Nat) (s : State) : Word × State :=
  if headWords a ≠ 0 then
    let ws := wordsFor m s a
    (ws.getD 0 0, loadLatch m a (ws.drop 1) s)
  else
    match highOf a with
    | some (h, i) =>
      (if (latchAt s m).addr = some h then (latchAt s m).words.getD (i - 1) 0
        else (wordsFor m s h).getD i 0, s)
    | none => (single s a, readEffect a s)

/-! ### Diagnostic windows (R544, R545) -/

/-- The group, code word and 32-bit half that a window address reads. -/
def windowAt (a : Nat) : Option (Nat × Nat × Nat) :=
  if 0x300000 ≤ a ∧ a < 0x320000 then some (11, (a - 0x300000) / 8, a / 4 % 2)
  else if 0x320000 ≤ a ∧ a < 0x321000 then some (7, (a - 0x320000) / 4, 0)
  else if 0x321000 ≤ a ∧ a < 0x322000 then some (8, (a - 0x321000) / 4, 0)
  else if 0x400000 ≤ a ∧ a < 0x500000 then some (10, (a - 0x400000) / 8, a / 4 % 2)
  else none

/-- The skim window is closed while a capture writes (R369). -/
def windowClosed (s : State) (g : Nat) : Bool :=
  g == 10 && (s.skim.capture == .armed || s.skim.capture == .triggered)

/-- A read of poison through a window: recorded, counted and raised (R446). -/
def poisonRead (g a det : Nat) (s : State) : State :=
  raiseLimited 69 69 (memData g det a) (statAdd 0x50010 1
    (s.onMem fun m => { m with poisonRead := word (g + a * 2 ^ 8) }))

/-- The detector code of a master's window reads (R463). -/
def windowDetector (m : Nat) : Nat := if m = 1 then 11 else if m = 0 then 0 else m

/-- The completion of the PCIe host's read carries EP; no other port has the bit (R446). -/
def markPoisoned (m : Nat) (s : State) : State :=
  s.onBus fun b => { b with poisoned := b.poisoned || m == 0 }

/-- A 32-bit read of a window. -/
def readWindow (m g a half : Nat) (s : State) : Word × State :=
  if windowClosed s g then (0, s)
  else
    let r := seeWord g a (windowDetector m) s
    match r.1 with
    | some d => (d.extractLsb' (32 * half) 32, r.2)
    | none => (0xFFFFFFFF, markPoisoned m (poisonRead g a (windowDetector m) r.2))

/-! ### What a master may read (R136, R493, R547) -/

/-- The I²C port may read the address. -/
def i2cReads (s : State) (a : Nat) : Bool :=
  match icuGroupAt a with
  | some (n, q) => (q != 0x24 && q != 0x2C) || (grpAt s.evt n).route == 1
  | none => [0x0, 0x2, 0x3, 0x5, 0x8].contains (a / 0x10000) || decide (0x300000 ≤ a)

/-- The read reaches the map; the CRY block accepts officer commands alone (R19, R136). -/
def readReaches (s : State) (m a : Nat) : Bool :=
  portsOpen s && decide (m < 6) &&
    a / 0x10000 != 0xE &&
    (if m = 0 then true else if m = 1 then i2cReads s a else coreInService s (m - 2))

/-- A read of the word at an address by a master. -/
def busRead (m addr : Nat) (s : State) : Word × State :=
  let a := addr / 4 * 4
  if readReaches s m a then
    match windowAt a with
    | some (g, w, half) => readWindow m g w half s
    | none => readRegister m a s
  else (0, s)

/-- Successive single-word reads in ascending address order (R540). -/
def busReadWords (m : Nat) : Nat → Nat → State → List Word × State
  | 0, _, s => ([], s)
  | n + 1, a, s =>
    let r := busRead m (a % 2 ^ 24) s
    let rs := busReadWords m n (a + 4) r.2
    (r.1 :: rs.1, rs.2)

/-- A read TLP: its words go to the reader, with EP where one of them was poisoned. -/
def readTlp (m : Nat) (span : ReadSpan) (s : State) : State :=
  let s := if m = 0 ∧ portsOpen s then carry 35 (4 * span.words) s else s
  let r := busReadWords m span.words span.addr.toNat (s.onBus fun b => { b with poisoned := false })
  r.2.onBus fun b => { b with readData := r.1 }

/-- LOW_WORD_READ: a read of registers by a master. -/
def execLowWordRead (master : Nat) (span : ReadSpan) (s : State) : Host.Outcome State Fault Refusal :=
  .next (readTlp master span s)

/-- DIAG_WINDOW_READ: the host reads a window. -/
def execDiagWindowRead (addr : BitVec 24) (s : State) : Host.Outcome State Fault Refusal :=
  .next (readTlp 0 { addr := addr } s)

/-! ### Writes (R409, R549) -/

/-- DEV_RESET_CAUSE: write 1 to clear (R511). -/
def writeResetCause (w : Word) (s : State) : State :=
  s.onPwr fun p => { p with
    causePowerOn := p.causePowerOn && !bit w 0, causePin := p.causePin && !bit w 1
    causeSupply := p.causeSupply && !bit w 2, causeThermal := p.causeThermal && !bit w 3
    causeCommand := p.causeCommand && !bit w 4 }

/-- One half of a ring's base; bits [11:0] are reserved. -/
def baseAfter (q : Quad) (hi : Bool) (w : Word) : Quad :=
  if hi then w.append (q.extractLsb' 0 32)
  else (q.extractLsb' 32 32).append (w &&& 0xFFFFF000)

/-- A write to a ring's registers (R409). -/
def writeRing (o : Nat) (w : Word) (s : State) : State :=
  if 0x100 ≤ o ∧ o < 0x180 then
    let r := o / 0x20 - 8
    match o % 0x20 with
    | 0x00 => onSq r (fun q => if q.enable then q else { q with base := baseAfter q.base false w }) s
    | 0x04 => onSq r (fun q => if q.enable then q else { q with base := baseAfter q.base true w }) s
    | 0x08 => writeSqCtrl r w s
    | 0x0C => writeSqTail r w s
    | _ => s
  else if 0x200 ≤ o ∧ o < 0x280 then
    let r := o / 0x20 - 16
    match o % 0x20 with
    | 0x00 => onCq r (fun q => if q.enable then q else { q with base := baseAfter q.base false w }) s
    | 0x04 => onCq r (fun q => if q.enable then q else { q with base := baseAfter q.base true w }) s
    | 0x08 => writeCqCtrl r w s
    | 0x10 => writeCqHead r w s
    | _ => s
  else s

/-- A write to a group's registers other than ICU_CFG (R425, R435). -/
def writeIcuGroup (n q : Nat) (w : Word) (s : State) : State :=
  match q with
  | 0x00 => writeEnables n plainE w s
  | 0x04 => writeEnables n setE w s
  | 0x08 => writeEnables n clrE w s
  | 0x0C => writePendings n plainP w s
  | 0x10 => writePendings n setP w s
  | 0x14 => writePendings n clrP w s
  | 0x28 => completeWrite n w s
  | 0x34 => writeLogmask n w s
  | _ => s

def writeIcu (a : Nat) (w : Word) (s : State) : State :=
  match icuGroupAt a with
  | some (n, q) => if q = 0x20 then writeIcuCfg n w s else writeIcuGroup n q w s
  | none => if a = 0x20010 then writeGpioMode w s else s

def writeEvlog (o : Nat) (w : Word) (s : State) : State :=
  match o with
  | 0x04 => writeEvlogCtrl w s
  | 0x0C => writeEvlogRead w s
  | _ => s

/-- A write to the PMU's registers (R469, R470, R475, R483). -/
def writePmu (o : Nat) (w : Word) (s : State) : State :=
  match o with
  | 0x04 => writeSnap w s
  | 0x08 => writeView w s
  | 0x0C => s.onPmu fun p => { p with snapOvf := p.snapOvf &&& ~~~(w.extractLsb' 0 17) }
  | 0x20 => s.onPmu fun p => { p with overflow := p.overflow &&& ~~~((0 : Word).append w) }
  | 0x24 => s.onPmu fun p => { p with overflow := p.overflow &&& ~~~(w.append (0 : Word)) }
  | 0x34 => writeSampleRead w s
  | _ => s

def writeMemi (o : Nat) (w : Word) (s : State) : State :=
  if 0x1000 ≤ o ∧ o < 0x2800 then
    match o % 0x200 with
    | 0x00 => writeMemgStatus (o / 0x200 - 8) w s
    | 0x04 => writeLapLimit (o / 0x200 - 8) w s
    | _ => s
  else s

/-- A whole-word write by the host to a writable register; every other address ignores it
(R541, R549). -/
def hostWrite (a : Nat) (w : Word) (s : State) : State :=
  if portsOpen s then
    match a / 0x10000 with
    | 0x0 => if a = 0x08 then writeResetCause w s else s
    | 0x1 => writeRing (a % 0x10000) w s
    | 0x2 => writeIcu a w s
    | 0x3 => writeEvlog (a % 0x10000) w s
    | 0x4 => writePmu (a % 0x10000) w s
    | 0x5 => writeMemi (a % 0x10000) w s
    | 0x6 => if a = 0x60014 then writeBaseLo w s else if a = 0x60018 then writeBaseHi w s else s
    | 0x7 => if a = 0x70014 then writeNcoLo w s else if a = 0x70018 then writeNcoHi w s else s
    | 0x8 => if a = 0x80004 ∧ bit w 0 then monStart s else s
    | 0xA => if a = 0xA0004 then writeTxOutput w s else s
    | _ => s
  else s

/-- Successive single-word writes in ascending address order (R540). -/
def hostWriteWords : Nat → List Word → State → State
  | _, [], s => s
  | a, w :: ws, s => hostWriteWords ((a + 4) % 2 ^ 24) ws (hostWrite a w s)

/-- Every byte enable of the TLP is set. -/
def wholeWords (ws : List Word) (enables : List (BitVec 4)) : Bool :=
  enables == List.replicate ws.length 0xF

/-- REGISTER_WRITE: a write TLP; one whose byte enables are not all set is ignored (R540). -/
def execRegisterWrite (addr : BitVec 24) (ws : List Word) (enables : List (BitVec 4)) (s : State) :
    Host.Outcome State Fault Refusal :=
  let s := if portsOpen s then carry 34 (4 * ws.length) s else s
  .next (if wholeWords ws enables then hostWriteWords (addr.toNat / 4 * 4) ws s else s)

/-! ### The I²C target port (R546, R547) -/

/-- A word written by the I²C port. -/
def i2cWord (a : Nat) (w : Word) (s : State) : State :=
  match a / 0x10000 with
  | 0x0 => if a = 0x08 then writeResetCause w s else s
  | 0x2 =>
    match icuGroupAt a with
    | some (n, q) => if (grpAt s.evt n).route = 1 then writeIcuGroup n q w s else s
    | none => s
  | 0x3 => writeEvlog (a % 0x10000) w s
  | _ => s

/-- Write consecutive words, the address advancing by 4 after each. -/
def i2cWords : Nat → List Byte → State → State
  | a, b0 :: b1 :: b2 :: b3 :: l, s =>
    i2cWords ((a + 4) % 2 ^ 24) l (i2cWord a (word (leNat [b0, b1, b2, b3])) s)
  | a, _, s => s.onBus fun b => { b with i2cAddr := BitVec.ofNat 24 a }

/-- The port's address: 0b10011, then I2C_A1 and I2C_A0 (R534). -/
def i2cTarget (s : State) : BitVec 7 := (0b10011#5).append s.bus.i2cPins

/-- The port answers a transaction to this target address (R493, R495, R534). -/
def i2cAnswers (target : BitVec 7) (s : State) : Bool := portsOpen s && target == i2cTarget s

/-- I2C_WRITE: whole words from the address; a last word cut short is discarded. -/
def execI2cWrite (addr : I2cAddress) (bytes : List Byte) (s : State) :
    Host.Outcome State Fault Refusal :=
  .next <|
    if i2cAnswers addr.target s then i2cWords (addr.addr.toNat / 4 * 4) bytes s else s

/-- I2C_SET_ADDRESS. -/
def execI2cSetAddress (addr : I2cAddress) (s : State) : Host.Outcome State Fault Refusal :=
  .next <|
    if i2cAnswers addr.target s then
      s.onBus fun b => { b with i2cAddr := BitVec.ofNat 24 (addr.addr.toNat / 4 * 4) }
    else s

/-- Read n words from an address on: the words, and the state with the address advanced. -/
def i2cReadWords : Nat → Nat → State → List Word × State
  | 0, a, s => ([], s.onBus fun b => { b with i2cAddr := BitVec.ofNat 24 a })
  | n + 1, a, s =>
    let r := busRead 1 a s
    let rs := i2cReadWords n ((a + 4) % 2 ^ 24) r.2
    (r.1 :: rs.1, rs.2)

/-- I2C_READ: words from the set address, with the side effects of each read. -/
def execI2cRead (span : I2cSpan) (s : State) : Host.Outcome State Fault Refusal :=
  .next <|
    if i2cAnswers span.target s then
      let r := i2cReadWords span.words s.bus.i2cAddr.toNat s
      r.2.onBus fun b => { b with readData := r.1, poisoned := false }
    else s

/-! ### OP_CRY_READ (R136) -/

/-- Read words in ascending order through a core's latch. -/
def cryWords (m : Nat) : Nat → Nat → State → List Word × State
  | 0, _, s => ([], s)
  | n + 1, a, s =>
    let r := readRegister m a s
    let rs := cryWords m n (a + 4) r.2
    (r.1 :: rs.1, rs.2)

def cryReadBody (j : Job) (s : State) : Verdict :=
  let off := (j.param 0).toNat
  let n := (j.param 1).toNat
  match firstRefusal [
    (off % 4 != 0 || decide (0x10000 ≤ off), badParam 0),
    (n == 0 || decide (256 < n) || decide (0x10000 < off + 4 * n), badParam 1)] with
  | some r => .refuse r
  | none =>
    let r := cryWords (2 + j.core.getD 0) n (0xE0000 + off) s
    .answer r.2 r.1

def execOpCryRead (j : Nat) (s : State) : Host.Outcome State Fault Refusal :=
  .next (runOp 0x0404 2 cryReadBody j s)

end Sys2Proof.Machine
end

