-- ==== Sys2Proof/Machine/Wave.lean ====
section
/-!
DEFINITION. The transmit DSP's samples: the lane responses (R159 to R163), resampling at 9/8 of the
symbol rate (R156), lanes (R157), the digital gain (R165), the DAC codes (R166, R167) and the output
gain (R169, R172).
-/

namespace Sys2Proof.Machine

/-! ### The realised response of a lane (R159 to R162), at v x Fs / 2048 -/

/-- The lane settings of a filter set, XI to YQ. -/
def TxFilter.lane (f : TxFilter) : Nat → TxLane
  | 0 => f.xi | 1 => f.xq | 2 => f.yi | _ => f.yq

/-- The edge of the band in which R162 bounds the response: (1 + beta) Rs / 2. -/
def bandEdge (f : TxFilter) : Rat := 8192 * (1 + (f.beta : Rat) / 100) / 9

/-- The mask and the lane's amplitude correction in dB. -/
def programmedDb (f : TxFilter) (n : Nat) (v : Int) : Rat :=
  interpAt f.mask ((1024 + v : Int) : Rat) / 10 + interpAt (f.lane n).amp (v.natAbs : Nat) / 20

/-- The magnitude inside the band: as programmed, within 0.1 dB. -/
def bandGain (f : TxFilter) (rate n : Nat) (v : Int) : Rat :=
  rrc f.beta (v.natAbs : Nat) *
    dbFactor (programmedDb f n v + boundRat (-1 / 10) (1 / 10) (Config.txRipple f rate n v))

/-- The mean gain of the passband. -/
def meanGain (f : TxFilter) (rate n : Nat) : Rat :=
  let vs := ((List.range 2048).map fun (k : Nat) => (k : Int) - 1024).filter fun v =>
    decide (((v.natAbs : Nat) : Rat) ≤ bandEdge f)
  (vs.map (bandGain f rate n)).sum / (vs.length : Nat)

/-- The magnitude realised: beyond the band at least 30 dB below the passband, or lower where the
mask asks; between the two the rule bounds nothing. -/
def realisedGain (f : TxFilter) (rate n : Nat) (v : Int) : Rat :=
  let u : Rat := (v.natAbs : Nat)
  if u ≤ bandEdge f then bandGain f rate n v
  else
    let g := Config.txStop f rate n v
    if u < bandEdge f + 8192 * 2 / 900 then (if g < 0 then 0 else g)
    else boundRat 0 (min (meanGain f rate n * dbFactor (-30)) (dbFactor (programmedDb f n v))) g

/-- The delay realised in samples: skew and group-delay correction, within 0.5 ps (R161, R162). -/
def realisedDelay (f : TxFilter) (rate n : Nat) (v : Int) : Rat :=
  let l := f.lane n
  let ps := ((l.skew : Rat) + interpAt l.delay (v.natAbs : Nat)) / 10 +
    boundRat (-1 / 2) (1 / 2) (Config.txDelay f rate n v)
  ps * 9 * (rate : Rat) / 32000

/-- The phase in turns that the delay makes. -/
def delayTurns (f : TxFilter) (rate n : Nat) (v : Int) : Rat :=
  let sum := ((List.range v.natAbs).map fun k => realisedDelay f rate n (k + 1 : Nat)).sum
  (if v < 0 then -sum else sum) / 2048

/-- The impulse response at t eighths of a sample: its real part, through which a lane hears its own
axis, and its imaginary part, through which it hears the other. -/
def impulse (f : TxFilter) (rate n : Nat) (t : Int) : Rat × Rat :=
  let terms := (List.range 2048).map fun (k : Nat) =>
    let v := (k : Int) - 1024
    let turns := ((v * t : Int) : Rat) / 16384 - delayTurns f rate n v
    let a := realisedGain f rate n v
    let b := realisedGain f rate n (-v)
    ((a + b) / 2 * cosTurn turns, (a - b) / 2 * sinTurn turns)
  ((terms.map fun e => e.1).sum * 9 / 16384, (terms.map fun e => e.2).sum * 9 / 16384)

/-! ### Samples (R156, R157, R161, R165) -/

/-- The digital gain: a data frame of random bits at a flat response has RMS_TARGET (R165). -/
def digitalGain (f : TxFilter) : Rat :=
  let boost := dbFactor ((f.boost : Rat) / 2)
  (f.rms : Rat) / 4 / ratSqrt ((1031184 + 17392 * boost * boost) / 2097152)

/-- IQ pre-compensation of a polarisation's two lanes: the Q lane's gain, and its axis turned toward
the I axis (R161). -/
def iqLane (gain phase : Int) (q : Bool) (i v : Rat) : Rat :=
  let turns : Rat := (phase : Rat) / 36000
  if q then v * cosTurn turns * dbFactor ((gain : Rat) / 100) else i + v * sinTurn turns

/-- Lane n's sample m of a frame before scaling: `levels` are those of the frame before, the frame
and the next, `first` the place of the frame's period 0. -/
def laneSample (f : TxFilter) (rate : Nat) (levels : List (SymbolLevel × SymbolLevel)) (first n m : Nat) :
    Rat :=
  let terms := (List.range 1822).map fun (k : Nat) =>
    let p := (8 * (m : Int) - 8192) / 9 + (k : Int)
    let l := if (first : Int) + p < 0 then (SymbolLevel.zero, SymbolLevel.zero)
      else levels.getD ((first : Int) + p).toNat (SymbolLevel.zero, SymbolLevel.zero)
    let z := (if n < 2 then l.1 else l.2).value f.boost
    let h := impulse f rate n (8 * (m : Int) - 9 * p)
    (h.1 * z.1 - h.2 * z.2, h.1 * z.2 + h.2 * z.1)
  iqLane (if n < 2 then f.gainX else f.gainY) (if n < 2 then f.phaseX else f.phaseY) (n % 2 == 1)
    (terms.map fun e => e.1).sum (terms.map fun e => e.2).sum

/-- The DAC code before limiting. -/
def sampleCode (f : TxFilter) (rate : Nat) (levels : List (SymbolLevel × SymbolLevel)) (first n m : Nat) :
    Int :=
  nearest (digitalGain f * laneSample f rate levels first n m)

/-- A sample is set to the nearer limit of the DAC's range (R166, R167). -/
def dacCode (v : Int) : Int := clampInt (-128) 127 v
def dacClips (v : Int) : Bool := dacCode v != v

/-! ### The output gain (R169, R172) -/

/-- The ramp position at a word of 256 samples of the frame. -/
def wordPhi (t : Tx) (w : Nat) : Rat :=
  let us : Rat := (w * 256 * 32 : Nat) / ((9 * t.now.rate * 1000 : Nat) : Rat)
  match t.now.out with
  | .quiet => 0
  | .on => 1
  | .rampUp => min 1 (t.now.phi + us / (t.now.time.toNat : Nat))
  | .rampDown => max 0 (t.now.phi - us / (t.now.time.toNat : Nat))

/-- The gain of a word in 1 / 65,535: the root of the launched power, and 0 from a loss of lock on
(R168, R169). -/
def wordGain (t : Tx) (w : Nat) : Int :=
  let dark := match t.now.cut with
    | some p => decide ((p - t.now.since).toNat * 4 * 9 * t.now.rate ≤ w * 256 * 32)
    | none => false
  let phi := wordPhi t w
  let p := match t.now.out with
    | .rampUp | .rampDown => rampPower t.now.cosine phi
    | _ => phi
  if dark then 0 else nearest (65535 * ratSqrt p)

/-- What a lane's lands are driven with, in LSB: the limited code under the output gain, its sign
turned by INVERT (R157, R163, R169). -/
def landDrive (t : Tx) (n m : Nat) (code : Int) : Int :=
  let v := nearest ((code * wordGain t (m / 256) : Int) / 65535)
  if (t.now.filter.lane n).invert then -v else v

/-- The samples of the frame being sent, once the next frame's levels are known: what the lands are
driven with, and the clipped samples as lane and index. A frame has 1,179,648 samples (R156). -/
def waveOf (t : Tx) (next : List (SymbolLevel × SymbolLevel)) : List FourCodes × List (Nat × Nat) :=
  let levels := t.before ++ t.now.levels ++ next
  let code := fun n m => sampleCode t.now.filter t.now.rate levels t.before.length n m
  let ms := List.range 1179648
  (ms.map fun m =>
      { xi := landDrive t 0 m (dacCode (code 0 m)), xq := landDrive t 1 m (dacCode (code 1 m))
        yi := landDrive t 2 m (dacCode (code 2 m)), yq := landDrive t 3 m (dacCode (code 3 m)) },
    (List.range 4).flatMap fun n => (ms.filter fun m => dacClips (code n m)).map fun m => (n, m))

end Sys2Proof.Machine
end

