-- ==== Sys2Proof/Machine/Line.lean ====
section
/-!
DEFINITION. A frame on the line: its containers are encrypted (R102, R111), its bits become symbol
levels (R42, R49, R50, R172), and at each frame start the transmit DSP samples the request, applies
settings and completes the samples of the frame before (R156 to R173).
-/

namespace Sys2Proof.Machine

/-! ### Containers (R46, R102, R111) -/

/-- A container's ciphertext and tag bits. -/
structure Sealed where
  circ : Nat
  cipher : List Bool
  tag : List Bool

/-- A key-absent circuit sends zeros; the onset raises TX_NO_KEY. -/
def sealAbsent (c n : Nat) (s : State) : Sealed × State :=
  let s := if (ctxAt s c).txNoKey then s
    else raise 293 c (onCtx c (fun x => { x with txNoKey := true }) s)
  ({ circ := c, cipher := List.replicate n false, tag := List.replicate 128 false }, s)

/-- One circuit's container is encrypted. -/
def sealOne (f : OpenFrame) (k : Container) (s : State) : Sealed × State :=
  let bits := containerBits k s.prof.rate
  let e := f.epoch.getLsbD k.circ
  if keyAbsent s k.circ e then sealAbsent k.circ bits.length s
  else
    let r := readKey k.circ e s
    match r.1 with
    | none => sealAbsent k.circ bits.length (keyStoreFault (keyAddr k.circ e) r.2)
    | some key =>
      let x := sealBits key s.cry.linkRole k.circ f.count e bits
      ({ circ := k.circ, cipher := x.1, tag := bitsMsb 128 x.2.toNat },
        note 0x601 k.circ 0 (onCtx k.circ (fun x => { x with txNoKey := false }) r.2))

/-- All containers, one after another. -/
def sealAll (f : OpenFrame) (s : State) : List Sealed × State :=
  f.containers.foldl (fun acc k =>
    let r := sealOne f k acc.2
    (acc.1 ++ [r.1], r.2)) ([], s)

def sealedOf (l : List Sealed) (c : Nat) : Sealed :=
  (l.find? fun x => x.circ == c).getD { circ := c, cipher := [], tag := [] }

/-- The rows' bits in row order; each SLOT row takes the next W bits of its circuit. -/
def rowBits (w : Nat) : List Word → List Sealed → List Bool
  | [], _ => []
  | r :: rs, l =>
    let c := rowCircuit r
    if isTag r then (sealedOf l c).tag ++ rowBits w rs l
    else if isSlot r then
      (sealedOf l c).cipher.take w ++ rowBits w rs (l.map fun x =>
        if x.circ == c then { x with cipher := x.cipher.drop w } else x)
    else if isIdle r then List.replicate w false ++ rowBits w rs l
    else rowBits w rs l

/-! ### TX_FRAME_START (R50, R102, R164, R170, R172) -/

/-- The overhead with DATA_VALID in byte 8 bit 7. -/
def withDataValid (oh : List Byte) (valid : Bool) : List Byte :=
  oh.set 8 (oh.getD 8 0 ||| (if valid then 0x80 else 0))

/-- The frame goes out as a whey frame (R50, R172). -/
def sentWhey (r : LineFrame) (s : State) : Bool := r.whey || s.tx.out != .on

/-- The frame bits: overhead, rows and fill; a whey frame has no containers or tags, and no
encryption runs for it (R42, R43, R49, R102). -/
def frameBits (r : LineFrame) (s : State) : List Bool × State :=
  let whey := sentWhey r s
  let x := if whey then ([], s) else sealAll r.frame s
  let body := byteBits (withDataValid r.overhead (!whey)) ++
    (if whey then [] else rowBits (slotBits s.prof.rate) r.frame.rows x.1)
  (body ++ List.replicate (frameBitCount r.frame.prof - body.length) false, x.2)

/-- The samples of the frame before are complete: its clipped samples count (R166). -/
def sampleFrame (next : List (SymbolLevel × SymbolLevel)) (s : State) : State :=
  let w := waveOf s.tx next
  countClips 0xA0010 (laneCounts w.2) (s.onTx fun t => { t with
    drive := w.1, clips := w.2, clipSum := addCounts t.clipSum (laneCounts t.clips) })

/-- The bytes of the containers that the frame carries (R479). -/
def payloadBytes (r : LineFrame) (s : State) : Nat :=
  (r.frame.containers.map fun k => k.slots).sum * slotBits s.prof.rate / 8

/-- What the PMU sees of a frame sent: its count, and its payload unless it is a whey frame. -/
def noteSent (r : LineFrame) (whey : Bool) (s : State) : State :=
  note 0x501 r.frame.count.toNat 0 (when (!whey) (carry 32 (payloadBytes r s)) s)

/-- The frame handed to T5 goes out. -/
def sendFrame (r : LineFrame) (s : State) : State :=
  let whey := sentWhey r s
  let b := frameBits r s
  let levels := frameLevels r.frame.prof whey b.1
  let s := (noteSent r whey (superframeStarts r.frame.count b.2)).onFrm fun f => { f with
    ready := none, sending := true, txCount := r.frame.count, txSel := r.frame.sel
    txNext := r.frame.next, txWhey := whey }
  let s := if s.tx.now.levels.isEmpty then s else sampleFrame levels s
  s.onTx fun t => { t with
    before := t.now.levels
    now := { levels := levels, filter := t.filter, rate := s.prof.rate, out := t.out
             phi := phiNow s, since := s.evt.period
             time := if t.out = .rampDown then t.tDown else t.tUp
             cosine := if t.out = .rampDown then t.downCosine else t.upCosine } }

/-- TX_FRAME_START: the first sample of a frame.
The flag says that a pending filter update has its coefficients. -/
def execTxFrameStart (filterReady : Bool) (s : State) : Host.Outcome State Fault Refusal :=
  .next <|
    if s.codeP then
      let s := sampleRequest s
      let s := if filterReady then applyFilter s else s
      match s.frm.ready with
      | some r => sendFrame r s
      | none => s
    else s

/-! ### DAC_CLIP_WINDOW (R166) -/

/-- DAC_CLIP_WINDOW: a 1 ms window ends before a sample of the last frame whose samples are
complete. -/
def execDacClipWindow (sample : Nat) (s : State) : Host.Outcome State Fault Refusal :=
  .next <|
    if s.codeP && usSince 1000 s.tx.clipAt s then
      let now := s.evt.period
      let inside := s.tx.clips.filter fun e => decide (e.2 < sample)
      let n := addCounts s.tx.clipSum (laneCounts inside)
      clipWindow 163 s.tx.filter.clipLimit.toNat n (s.onTx fun t => { t with
        clipAt := now, clips := t.clips.filter fun e => decide (sample ≤ e.2)
        clipSum := { xi := 0, xq := 0, yi := 0, yq := 0 } })
    else s

end Sys2Proof.Machine
end

