-- ==== Sys2Proof/Machine/Dispatch.lean ====
section
/-!
DEFINITION. One arm for each command: a direct call of its meaning.
-/

namespace Sys2Proof.Machine

/-- The effect of one command on everything but the queue. -/
def exec (i : Instr) (s : State) : Host.Outcome State Fault Refusal :=
  match i with
  | .opNop j => Sys2Proof.Machine.execOpNop j s
  | .opDeviceInfo j => Sys2Proof.Machine.execOpDeviceInfo j s
  | .opAbort j => Sys2Proof.Machine.execOpAbort j s
  | .opModeSet j => Sys2Proof.Machine.execOpModeSet j s
  | .opReset j => Sys2Proof.Machine.execOpReset j s
  | .resetCommandEntry => Sys2Proof.Machine.execResetCommandEntry s
  | .opFabricCredits j => Sys2Proof.Machine.execOpFabricCredits j s
  | .fabricCreditWindow requests => Sys2Proof.Machine.execFabricCreditWindow s requests
  | .opLineProfile j => Sys2Proof.Machine.execOpLineProfile j s
  | .opTxShape j => Sys2Proof.Machine.execOpTxShape j s
  | .opTxMask j => Sys2Proof.Machine.execOpTxMask j s
  | .opTxPrecomp j => Sys2Proof.Machine.execOpTxPrecomp j s
  | .opTxRamp j => Sys2Proof.Machine.execOpTxRamp j s
  | .opTxOutput j => Sys2Proof.Machine.execOpTxOutput j s
  | .opTxHooks j => Sys2Proof.Machine.execOpTxHooks j s
  | .opOptWrite j => Sys2Proof.Machine.execOpOptWrite j s
  | .opOptRead j => Sys2Proof.Machine.execOpOptRead j s
  | .opOptReset j => Sys2Proof.Machine.execOpOptReset j s
  | .optResetEnd => Sys2Proof.Machine.execOptResetEnd s
  | .optTransactionEnd status data crc => Sys2Proof.Machine.execOptTransactionEnd status data crc s
  | .optRetry => Sys2Proof.Machine.execOptRetry s
  | .optAlertFall => Sys2Proof.Machine.execOptAlertFall s
  | .optAlertRise => Sys2Proof.Machine.execOptAlertRise s
  | .txdspOutputWrite w => Sys2Proof.Machine.execTxdspOutputWrite w s
  | .txFrameStart filterReady => Sys2Proof.Machine.execTxFrameStart filterReady s
  | .rampUpDone => Sys2Proof.Machine.execRampUpDone s
  | .rampDownDone => Sys2Proof.Machine.execRampDownDone s
  | .dacClipWindow sample => Sys2Proof.Machine.execDacClipWindow sample s
  | .dacSynthUnlock => Sys2Proof.Machine.execDacSynthUnlock s
  | .dacSynthLock => Sys2Proof.Machine.execDacSynthLock s
  | .opRxFrontend j => Sys2Proof.Machine.execOpRxFrontend j s
  | .opRxCd j => Sys2Proof.Machine.execOpRxCd j s
  | .opRxSeparator j => Sys2Proof.Machine.execOpRxSeparator j s
  | .opRxTiming j => Sys2Proof.Machine.execOpRxTiming j s
  | .opRxCarrier j => Sys2Proof.Machine.execOpRxCarrier j s
  | .opRxThresh j => Sys2Proof.Machine.execOpRxThresh j s
  | .rxFrameStart m => Sys2Proof.Machine.execRxFrameStart m s
  | .wheyDetectorDecision codes => Sys2Proof.Machine.execWheyDetectorDecision codes s
  | .opDecConfig j => Sys2Proof.Machine.execOpDecConfig j s
  | .opDecChurn j => Sys2Proof.Machine.execOpDecChurn j s
  | .churnDrained c => Sys2Proof.Machine.execChurnDrained c s
  | .opCircuitCreate j => Sys2Proof.Machine.execOpCircuitCreate j s
  | .opCircuitDelete j => Sys2Proof.Machine.execOpCircuitDelete j s
  | .opMapLoad j => Sys2Proof.Machine.execOpMapLoad j s
  | .opMapSwitch j => Sys2Proof.Machine.execOpMapSwitch j s
  | .opHlaneConfig j => Sys2Proof.Machine.execOpHlaneConfig j s
  | .opHlaneRestart j => Sys2Proof.Machine.execOpHlaneRestart j s
  | .opHlaneTest j => Sys2Proof.Machine.execOpHlaneTest j s
  | .opOfficerChallenge j => Sys2Proof.Machine.execOpOfficerChallenge j s
  | .opOfficerEnrol j => Sys2Proof.Machine.execOpOfficerEnrol j s
  | .challengeExpiry => Sys2Proof.Machine.execChallengeExpiry s
  | .opOfficerUpdate j => Sys2Proof.Machine.execOpOfficerUpdate j s
  | .opCryConfig j => Sys2Proof.Machine.execOpCryConfig j s
  | .opCryRead j => Sys2Proof.Machine.execOpCryRead j s
  | .opKeyLoad j => Sys2Proof.Machine.execOpKeyLoad j s
  | .opKeyErase j => Sys2Proof.Machine.execOpKeyErase j s
  | .opEpochSwitch j => Sys2Proof.Machine.execOpEpochSwitch j s
  | .epochSwitchInstant => Sys2Proof.Machine.execEpochSwitchInstant s
  | .oldKeyErase c => Sys2Proof.Machine.execOldKeyErase c s
  | .epochLag c => Sys2Proof.Machine.execEpochLag c s
  | .opZeroise j => Sys2Proof.Machine.execOpZeroise j s
  | .zeroisePin => Sys2Proof.Machine.execZeroisePin s
  | .tamperPin => Sys2Proof.Machine.execTamperPin s
  | .zeroiseComplete nonzero => Sys2Proof.Machine.execZeroiseComplete nonzero s
  | .officerStoreFault => Sys2Proof.Machine.execOfficerStoreFault s
  | .opTimeConfig j => Sys2Proof.Machine.execOpTimeConfig j s
  | .opTimeSet j => Sys2Proof.Machine.execOpTimeSet j s
  | .opTimeStep j => Sys2Proof.Machine.execOpTimeStep j s
  | .timeSetPulseTimeout => Sys2Proof.Machine.execTimeSetPulseTimeout s
  | .opTimePulse j => Sys2Proof.Machine.execOpTimePulse j s
  | .timeTick => Sys2Proof.Machine.execTimeTick s
  | .timeBaseHiWrite w => Sys2Proof.Machine.execTimeBaseHiWrite w s
  | .pulseInstant k => Sys2Proof.Machine.execPulseInstant k s
  | .pulseWidthEnd k => Sys2Proof.Machine.execPulseWidthEnd k s
  | .servoIntervalEnd n => Sys2Proof.Machine.execServoIntervalEnd n s
  | .opDpllRefConfig j => Sys2Proof.Machine.execOpDpllRefConfig j s
  | .opDpllSelect j => Sys2Proof.Machine.execOpDpllSelect j s
  | .opDpllLoop j => Sys2Proof.Machine.execOpDpllLoop j s
  | .opDpllOutput j => Sys2Proof.Machine.execOpDpllOutput j s
  | .alignFail o => Sys2Proof.Machine.execAlignFail o s
  | .dpllNcoHiWrite w => Sys2Proof.Machine.execDpllNcoHiWrite w s
  | .dpllEvaluation phase fresh => Sys2Proof.Machine.execDpllEvaluation phase fresh s
  | .switchCommitted => Sys2Proof.Machine.execSwitchCommitted s
  | .refFreqUpdate k reading => Sys2Proof.Machine.execRefFreqUpdate k reading s
  | .refActivityFault k => Sys2Proof.Machine.execRefActivityFault k s
  | .refQualified k => Sys2Proof.Machine.execRefQualified k s
  | .refinPulse k sub => Sys2Proof.Machine.execRefinPulse k sub s
  | .dpllLocked => Sys2Proof.Machine.execDpllLocked s
  | .lockLost => Sys2Proof.Machine.execLockLost s
  | .holdoverSample guard => Sys2Proof.Machine.execHoldoverSample guard s
  | .opMonSequence j => Sys2Proof.Machine.execOpMonSequence j s
  | .opMonTestdac j => Sys2Proof.Machine.execOpMonTestdac j s
  | .monadcStartWrite => Sys2Proof.Machine.execMonadcStartWrite s
  | .conversionEnd k input v => Sys2Proof.Machine.execConversionEnd k input v s
  | .opSkimConfig j => Sys2Proof.Machine.execOpSkimConfig j s
  | .opSkimArm j => Sys2Proof.Machine.execOpSkimArm j s
  | .opSkimTrigger j => Sys2Proof.Machine.execOpSkimTrigger j s
  | .opSkimSync j => Sys2Proof.Machine.execOpSkimSync j s
  | .skimFrozen => Sys2Proof.Machine.execSkimFrozen s
  | .syncNFall => Sys2Proof.Machine.execSyncNFall s
  | .decimatorReset sample age => Sys2Proof.Machine.execDecimatorReset sample age s
  | .skimSatEvent xi xq yi yq => Sys2Proof.Machine.execSkimSatEvent xi xq yi yq s
  | .opMemRecover j => Sys2Proof.Machine.execOpMemRecover j s
  | .recoveryPassEnd g => Sys2Proof.Machine.execRecoveryPassEnd g s
  | .opMemInject j => Sys2Proof.Machine.execOpMemInject j s
  | .opBist j => Sys2Proof.Machine.execOpBist j s
  | .bistDone failed firstFail => Sys2Proof.Machine.execBistDone failed firstFail s
  | .opFwStage j => Sys2Proof.Machine.execOpFwStage j s
  | .fwStaged e => Sys2Proof.Machine.execFwStaged e s
  | .opFwActivate j r => Sys2Proof.Machine.execOpFwActivate j r s
  | .opCoreReturn j => Sys2Proof.Machine.execOpCoreReturn j s
  | .opCtrConfig c => Sys2Proof.Machine.execOpCtrConfig c s
  | .opCtrSnapshot j => Sys2Proof.Machine.execOpCtrSnapshot j s
  | .opBwConfig j => Sys2Proof.Machine.execOpBwConfig j s
  | .pmcTick events => Sys2Proof.Machine.execPmcTick events s
  | .snapshotInstant wrapped => Sys2Proof.Machine.execSnapshotInstant wrapped s
  | .bwWindow bytes => Sys2Proof.Machine.execBwWindow bytes s
  | .pmuSnapWrite w => Sys2Proof.Machine.execPmuSnapWrite w s
  | .pmuViewWrite w => Sys2Proof.Machine.execPmuViewWrite w s
  | .pmuSampleReadWrite w => Sys2Proof.Machine.execPmuSampleReadWrite w s
  | .lowWordRead master span => Sys2Proof.Machine.execLowWordRead master span s
  | .sqDoorbell r w => Sys2Proof.Machine.execSqDoorbell r w s
  | .cqHeadWrite r w => Sys2Proof.Machine.execCqHeadWrite r w s
  | .sqEnableWrite r w => Sys2Proof.Machine.execSqEnableWrite r w s
  | .sqFetchErrorClear r => Sys2Proof.Machine.execSqFetchErrorClear r s
  | .cqEnableWrite r w => Sys2Proof.Machine.execCqEnableWrite r w s
  | .packetFetch r read => Sys2Proof.Machine.execPacketFetch r read s
  | .paramPointerReadDone j read => Sys2Proof.Machine.execParamPointerReadDone j read s
  | .completionWrite j => Sys2Proof.Machine.execCompletionWrite j s
  | .mbxWrite addr bytes => Sys2Proof.Machine.execMbxWrite addr bytes s
  | .mbxRead addr n => Sys2Proof.Machine.execMbxRead addr n s
  | .mbxStatus => Sys2Proof.Machine.execMbxStatus s
  | .mbxBadInstruction b => Sys2Proof.Machine.execMbxBadInstruction b s
  | .mbxPost => Sys2Proof.Machine.execMbxPost s
  | .mboxResponseWrite => Sys2Proof.Machine.execMboxResponseWrite s
  | .coreTrap c => Sys2Proof.Machine.execCoreTrap c s
  | .coreWatchdog c => Sys2Proof.Machine.execCoreWatchdog c s
  | .coreRestarted c => Sys2Proof.Machine.execCoreRestarted c s
  | .holdoffExpiry n => Sys2Proof.Machine.execHoldoffExpiry n s
  | .icuClaimRead n => Sys2Proof.Machine.execIcuClaimRead n s
  | .icuCompleteWrite n w => Sys2Proof.Machine.execIcuCompleteWrite n w s
  | .icuSpuriousRead n => Sys2Proof.Machine.execIcuSpuriousRead n s
  | .icuEnableWrite n w => Sys2Proof.Machine.execIcuEnableWrite n w s
  | .icuEnableSet n w => Sys2Proof.Machine.execIcuEnableSet n w s
  | .icuEnableClr n w => Sys2Proof.Machine.execIcuEnableClr n w s
  | .icuPendingWrite n w => Sys2Proof.Machine.execIcuPendingWrite n w s
  | .icuPendingSet n w => Sys2Proof.Machine.execIcuPendingSet n w s
  | .icuPendingClr n w => Sys2Proof.Machine.execIcuPendingClr n w s
  | .icuCfgWrite n w => Sys2Proof.Machine.execIcuCfgWrite n w s
  | .icuGpioModeWrite w => Sys2Proof.Machine.execIcuGpioModeWrite w s
  | .gpioEdge k high => Sys2Proof.Machine.execGpioEdge k high s
  | .evlogMergeWrite => Sys2Proof.Machine.execEvlogMergeWrite s
  | .evlogReadWrite w => Sys2Proof.Machine.execEvlogReadWrite w s
  | .evlogCtrlWrite w => Sys2Proof.Machine.execEvlogCtrlWrite w s
  | .d3hotEntry pmeEnable => Sys2Proof.Machine.execD3hotEntry pmeEnable s
  | .d0Return clearPme => Sys2Proof.Machine.execD0Return clearPme s
  | .busMasterEnableSet => Sys2Proof.Machine.execBusMasterEnableSet s
  | .busMasterEnableClear => Sys2Proof.Machine.execBusMasterEnableClear s
  | .msixEnableSet => Sys2Proof.Machine.execMsixEnableSet s
  | .msixMaskClear vector => Sys2Proof.Machine.execMsixMaskClear vector s
  | .pcieLinkUp => Sys2Proof.Machine.execPcieLinkUp s
  | .pcieLinkDown => Sys2Proof.Machine.execPcieLinkDown s
  | .pcieError uncorrectable => Sys2Proof.Machine.execPcieError uncorrectable s
  | .perstAssert => Sys2Proof.Machine.execPerstAssert s
  | .ringCompletionDiscard j => Sys2Proof.Machine.execRingCompletionDiscard j s
  | .i2cWrite addr bytes => Sys2Proof.Machine.execI2cWrite addr bytes s
  | .i2cSetAddress addr => Sys2Proof.Machine.execI2cSetAddress addr s
  | .i2cRead span => Sys2Proof.Machine.execI2cRead span s
  | .i2cError => Sys2Proof.Machine.execI2cError s
  | .qspiError => Sys2Proof.Machine.execQspiError s
  | .diagWindowRead addr => Sys2Proof.Machine.execDiagWindowRead addr s
  | .memgLapLimitWrite g w => Sys2Proof.Machine.execMemgLapLimitWrite g w s
  | .memgLogClear g => Sys2Proof.Machine.execMemgLogClear g s
  | .memgLogOverflowClear g => Sys2Proof.Machine.execMemgLogOverflowClear g s
  | .memgClearLaps g => Sys2Proof.Machine.execMemgClearLaps g s
  | .scrubRead g => Sys2Proof.Machine.execScrubRead g s
  | .scrubLapLong g => Sys2Proof.Machine.execScrubLapLong g s
  | .mergeDrain g addr writes reads => Sys2Proof.Machine.execMergeDrain g addr writes reads s
  | .churnOnline c => Sys2Proof.Machine.execChurnOnline c s
  | .coeffSetRebuilt => Sys2Proof.Machine.execCoeffSetRebuilt s
  | .blockArrival now codes => Sys2Proof.Machine.execBlockArrival now codes s
  | .iterationEnd now b c => Sys2Proof.Machine.execIterationEnd now b c s
  | .blockDeadline now b => Sys2Proof.Machine.execBlockDeadline now b s
  | .stealTransferEnd now b parityError => Sys2Proof.Machine.execStealTransferEnd now b parityError s
  | .vatWriteEnd now b => Sys2Proof.Machine.execVatWriteEnd now b s
  | .blockRelease now => Sys2Proof.Machine.execBlockRelease now s
  | .frameOpen residues => Sys2Proof.Machine.execFrameOpen residues s
  | .frameHandoff => Sys2Proof.Machine.execFrameHandoff s
  | .frameDeframed age drains => Sys2Proof.Machine.execFrameDeframed age drains s
  | .clientBlockIngress c coded => Sys2Proof.Machine.execClientBlockIngress c coded s
  | .ingressFailStart c => Sys2Proof.Machine.execIngressFailStart c s
  | .ingressFailEnd c => Sys2Proof.Machine.execIngressFailEnd c s
  | .egressUnderrun c periods => Sys2Proof.Machine.execEgressUnderrun c periods s
  | .recoveryLock c => Sys2Proof.Machine.execRecoveryLock c s
  | .recoveryUnlock c => Sys2Proof.Machine.execRecoveryUnlock c s
  | .ptpIngress c frame => Sys2Proof.Machine.execPtpIngress c frame s
  | .ptpEgress c frame => Sys2Proof.Machine.execPtpEgress c frame s
  | .acqSignalDetected codes => Sys2Proof.Machine.execAcqSignalDetected s codes
  | .cdFound scan => Sys2Proof.Machine.execCdFound scan s
  | .frameSyncFound f => Sys2Proof.Machine.execFrameSyncFound f s
  | .converged => Sys2Proof.Machine.execConverged s
  | .acqTimeout => Sys2Proof.Machine.execAcqTimeout s
  | .acqDecodeFail => Sys2Proof.Machine.execAcqDecodeFail s
  | .powerStep codes => Sys2Proof.Machine.execPowerStep s codes
  | .los codes => Sys2Proof.Machine.execLos codes s
  | .timingUnlock => Sys2Proof.Machine.execTimingUnlock s
  | .carrierUnlock => Sys2Proof.Machine.execCarrierUnlock s
  | .adcSynthUnlock => Sys2Proof.Machine.execAdcSynthUnlock s
  | .adcSynthLock => Sys2Proof.Machine.execAdcSynthLock s
  | .adcClipWindow sample => Sys2Proof.Machine.execAdcClipWindow sample s
  | .cdTrackUpdate estimate => Sys2Proof.Machine.execCdTrackUpdate estimate s
  | .loSteerInterval n => Sys2Proof.Machine.execLoSteerInterval n s
  | .loKeepalive => Sys2Proof.Machine.execLoKeepalive s
  | .loAck => Sys2Proof.Machine.execLoAck s
  | .loRetry => Sys2Proof.Machine.execLoRetry s
  | .laneStart slot first => Sys2Proof.Machine.execLaneStart slot first s
  | .laneTxSynthLock l => Sys2Proof.Machine.execLaneTxSynthLock l s
  | .laneSignalDetect l => Sys2Proof.Machine.execLaneSignalDetect l s
  | .laneCdrLock l => Sys2Proof.Machine.execLaneCdrLock l s
  | .laneUp l snr peak => Sys2Proof.Machine.execLaneUp l snr peak s
  | .laneBringupTimeout l => Sys2Proof.Machine.execLaneBringupTimeout l s
  | .laneDown l cause => Sys2Proof.Machine.execLaneDown l cause s
  | .laneFreezeWindow l w => Sys2Proof.Machine.execLaneFreezeWindow l w s
  | .freezeLong l => Sys2Proof.Machine.execFreezeLong l s
  | .groupAligned c lanes => Sys2Proof.Machine.execGroupAligned c lanes s
  | .deskewFail c mixed => Sys2Proof.Machine.execDeskewFail c s mixed
  | .checkerLock l => Sys2Proof.Machine.execCheckerLock l s
  | .checkerLost l => Sys2Proof.Machine.execCheckerLost l s
  | .powerOn => Sys2Proof.Machine.execPowerOn s
  | .resetNLow => Sys2Proof.Machine.execResetNLow s
  | .supplyFault rail => Sys2Proof.Machine.execSupplyFault rail s
  | .thermalTrip => Sys2Proof.Machine.execThermalTrip s
  | .thermalWarn hottest => Sys2Proof.Machine.execThermalWarn hottest s
  | .supplyLow rails => Sys2Proof.Machine.execSupplyLow rails s
  | .resetEnd bootSel i2cPins flash => Sys2Proof.Machine.execResetEnd bootSel i2cPins flash s
  | .bootSourceAttemptEnd r => Sys2Proof.Machine.execBootSourceAttemptEnd r s
  | .mbxLoadTimeout => Sys2Proof.Machine.execMbxLoadTimeout s
  | .bootComplete => Sys2Proof.Machine.execBootComplete s
  | .avsUpdate hottest => Sys2Proof.Machine.execAvsUpdate hottest s
  | .avsLow core => Sys2Proof.Machine.execAvsLow core s
  | .readyEntry katPassed => Sys2Proof.Machine.execReadyEntry katPassed s
  | .readyUnitStart u => Sys2Proof.Machine.execReadyUnitStart u s
  | .readyDone => Sys2Proof.Machine.execReadyDone s
  | .windDownUnitStop => Sys2Proof.Machine.execWindDownUnitStop s
  | .standbyEntry => Sys2Proof.Machine.execStandbyEntry s
  | .registerWrite addr ws enables => Sys2Proof.Machine.execRegisterWrite addr ws enables s
  | .timingRecoveryLock => Sys2Proof.Machine.execTimingRecoveryLock s
  | .converterCalibrationEnd k => Sys2Proof.Machine.execConverterCalibrationEnd k s
  | .zeroiseTriggerRelease pin => Sys2Proof.Machine.execZeroiseTriggerRelease pin s
  | .datapathUeRead g addr => Sys2Proof.Machine.execDatapathUeRead g addr s
  | .recoveryPassRead g => Sys2Proof.Machine.execRecoveryPassRead g s

end Sys2Proof.Machine
end

