-- ==== Sys2Proof/WellFormed.lean ====
section
/-!
DEFINITION. Which commands can be sent: every number names one of the device's rings, groups,
lanes, circuits and so on, and every list has the length its rule states. No
meaning assumes this predicate: each checks what it uses.
-/

namespace Sys2Proof

/-- The unit exists (R504). -/
def StartUnit.wf : StartUnit → Bool
  | .converter i => decide (i < 8)
  | .churnGroup g => decide (g < 8)

/-- Four ADC codes of 8 bits. -/
def FourCodes.isAdc (c : FourCodes) : Bool :=
  [c.xi, c.xq, c.yi, c.yq].all fun v => decide (-128 ≤ v) && decide (v ≤ 127)

/-- A core's store of 8, 16 or 32 bits, or a DMA write of fewer than eight bytes (R452). -/
def NarrowWrite.wf (w : NarrowWrite) : Bool :=
  decide (w.addr < 131072) && (if w.master = 6 then w.bytes != 0 && w.bytes != 0xFF
    else decide (2 ≤ w.master) && decide (w.master ≤ 5) &&
      [0x01#8, 0x02, 0x04, 0x08, 0x10, 0x20, 0x40, 0x80, 0x03, 0x0C, 0x30, 0xC0, 0x0F, 0xF0].contains
        w.bytes)

def PortRead.wf (r : PortRead) : Bool := decide (r.addr < 131072) && [1, 2, 3, 4, 5, 6, 8].contains r.master

/-- The operands lie in the ranges of the command's rule. -/
def Instr.wf : Instr → Bool
  | .coreTrap c | .coreWatchdog c | .coreRestarted c => decide (c < 4)
  | .sqDoorbell r _ | .cqHeadWrite r _ | .sqEnableWrite r _ | .sqFetchErrorClear r |
    .cqEnableWrite r _ | .packetFetch r _ => decide (r < 4)
  | .holdoffExpiry n | .icuClaimRead n | .icuSpuriousRead n | .icuCompleteWrite n _ |
    .icuEnableWrite n _ | .icuEnableSet n _ | .icuEnableClr n _ | .icuPendingWrite n _ |
    .icuPendingSet n _ | .icuPendingClr n _ | .icuCfgWrite n _ => decide (n < 25)
  | .recoveryPassEnd g | .memgLapLimitWrite g _ | .memgLogClear g | .memgLogOverflowClear g |
    .memgClearLaps g | .scrubRead g | .scrubLapLong g | .recoveryPassRead g => decide (g < 12)
  | .opCtrConfig c =>
    match c with
    | .packet _ => true
    | .zilvy core words => decide (core < 4) && words.length == 9
  | .datapathUeRead g addr => decide (g < 12) && decide (addr < 2 ^ 24)
  | .mergeDrain g addr writes reads => decide (2 ≤ g) && decide (g ≤ 6) && decide (addr < 2 ^ 24) &&
    writes.all NarrowWrite.wf && reads.all PortRead.wf && (g != 6 || (writes.isEmpty && reads.isEmpty))
  | .churnDrained c | .churnOnline c | .iterationEnd _ _ c => decide (c < 32)
  | .conversionEnd i input _ => decide (i < 64) && decide (input < 64)
  | .oldKeyErase c | .epochLag c | .clientBlockIngress c _ | .ingressFailEnd c |
    .egressUnderrun c _ | .recoveryLock c | .recoveryUnlock c | .ptpIngress c _ | .ptpEgress c _ |
    .groupAligned c _ | .deskewFail c _ => decide (c < 1024)
  | .laneTxSynthLock l | .laneSignalDetect l | .laneCdrLock l | .laneUp l _ _ |
    .laneBringupTimeout l | .freezeLong l | .checkerLock l | .checkerLost l => decide (l < 16)
  | .laneDown l cause => decide (l < 16) && decide (1 ≤ cause.toNat) && decide (cause.toNat ≤ 3)
  | .ingressFailStart f => decide (f.circ < 1024) && f.lanes.all fun l => decide (l < 16)
  | .laneFreezeWindow l w => decide (l < 16) && w.symbols.length == 4096 && w.symbols.all (· < 4) &&
    decide (w.word < 16)
  | .laneStart slot first => (slot.all fun k => decide (k < 8)) && decide (first < 16)
  | .pulseInstant k | .pulseWidthEnd k => decide (k < 4)
  | .alignFail o => decide (o < 8)
  | .refFreqUpdate i _ | .refActivityFault i | .refQualified i => decide (i < 26)
  | .refinPulse i sub => decide (i < 8) && decide (sub < 160)
  | .supplyFault rail => decide (rail.toNat < 10)
  | .gpioEdge i _ => decide (i < 16)
  | .converterCalibrationEnd i => decide (i < 8)
  | .readyUnitStart u => u.wf
  | .lowWordRead master _ => decide (master < 6)
  | .bwWindow bytes => bytes.length == 49
  | .blockArrival _ codes => codes.all FourCodes.isAdc
  | .skimSatEvent xi xq yi yq => (fourCodes xi xq yi yq).all FourCodes.isAdc &&
    xi.length == xq.length && xi.length == yi.length && xi.length == yq.length
  | .decimatorReset sample _ => sample.toNat % 256 == 0
  | .msixMaskClear vector => vector.all fun v => decide (v < 32)
  | .fabricCreditWindow rs => rs.all fun r => decide (r.master < 9) && decide (0 ≤ r.entered) &&
    decide (r.entered < 792)
  | .rxFrameStart m => m.estimates.length == 8 && m.codes.all FourCodes.isAdc
  | .acqSignalDetected codes | .powerStep codes | .los codes | .wheyDetectorDecision codes => codes.all FourCodes.isAdc
  | .cdFound scan => decide (scan.fine < 25)
  | .frameSyncFound f => decide (f.cfo.natAbs ≤ 3500000) && decide (f.turnX < 4) && decide (f.turnY < 4)
  | .frameDeframed _ drains => drains.all fun d => decide (d.1 < 1024)
  | .frameOpen residues => residues.all fun d => decide (d.1 < 1024)
  | .opNop _ | .opDeviceInfo _ | .opAbort _ | .opModeSet _ | .opReset _ | .resetCommandEntry |
    .opFabricCredits _ | .opLineProfile _ | .opTxShape _ | .opTxMask _ |
    .opTxPrecomp _ | .opTxRamp _ | .opTxOutput _ | .opTxHooks _ | .opOptWrite _ | .opOptRead _ |
    .opOptReset _ | .optResetEnd | .optTransactionEnd _ _ _ | .optRetry | .optAlertFall |
    .optAlertRise | .txdspOutputWrite _ | .txFrameStart _ | .rampUpDone | .rampDownDone |
    .dacClipWindow _ | .dacSynthUnlock | .dacSynthLock | .opRxFrontend _ | .opRxCd _ |
    .opRxSeparator _ | .opRxTiming _ | .opRxCarrier _ | .opRxThresh _ |
    .opDecConfig _ | .opDecChurn _ | .opCircuitCreate _ | .opCircuitDelete _ | .opMapLoad _ |
    .opMapSwitch _ | .opHlaneConfig _ | .opHlaneRestart _ | .opHlaneTest _ | .opOfficerChallenge _
    | .opOfficerEnrol _ | .challengeExpiry | .opOfficerUpdate _ | .opCryConfig _ | .opCryRead _ |
    .opKeyLoad _ | .opKeyErase _ | .opEpochSwitch _ | .epochSwitchInstant | .opZeroise _ |
    .zeroisePin | .tamperPin | .zeroiseComplete _ | .officerStoreFault | .opTimeConfig _ |
    .opTimeSet _ | .opTimeStep _ | .timeSetPulseTimeout | .opTimePulse _ | .timeTick |
    .timeBaseHiWrite _ | .servoIntervalEnd _ | .opDpllRefConfig _ | .opDpllSelect _ | .opDpllLoop
    _ | .opDpllOutput _ | .dpllNcoHiWrite _ | .dpllEvaluation _ _ | .switchCommitted | .dpllLocked
    | .lockLost | .holdoverSample _ | .opMonSequence _ | .opMonTestdac _ | .monadcStartWrite |
    .opSkimConfig _ | .opSkimArm _ | .opSkimTrigger _ | .opSkimSync _ | .skimFrozen | .syncNFall |
    .opMemRecover _ | .opMemInject _ | .opBist _ | .bistDone _ _ |
    .opFwStage _ | .fwStaged _ | .opFwActivate _ _ | .opCoreReturn _ |
    .opCtrSnapshot _ | .opBwConfig _ | .pmcTick _ | .snapshotInstant _ | .pmuSnapWrite _ |
    .pmuViewWrite _ | .pmuSampleReadWrite _ | .paramPointerReadDone _ _ | .completionWrite _ |
    .mbxWrite _ _ | .mbxRead _ _ | .mbxStatus | .mbxBadInstruction _ | .mbxPost |
    .mboxResponseWrite | .icuGpioModeWrite _ | .evlogMergeWrite | .evlogReadWrite _ |
    .evlogCtrlWrite _ | .d3hotEntry _ | .d0Return _ | .busMasterEnableSet | .busMasterEnableClear
    | .msixEnableSet | .pcieLinkUp | .pcieLinkDown | .pcieError _ | .perstAssert |
    .ringCompletionDiscard _ | .i2cWrite _ _ | .i2cSetAddress _ | .i2cRead _ | .i2cError |
    .qspiError | .diagWindowRead _ | .coeffSetRebuilt | .blockDeadline _ _ |
    .stealTransferEnd _ _ _ | .vatWriteEnd _ _ | .blockRelease _ | .frameHandoff |
    .converged | .acqTimeout |
    .acqDecodeFail | .timingUnlock | .carrierUnlock | .adcSynthUnlock |
    .adcSynthLock | .adcClipWindow _ | .cdTrackUpdate _ | .loSteerInterval _ | .loKeepalive |
    .loAck | .loRetry | .powerOn | .resetNLow | .thermalTrip | .thermalWarn _ |
    .supplyLow _ | .resetEnd _ _ _ | .bootSourceAttemptEnd _ | .mbxLoadTimeout | .bootComplete |
    .avsLow _ | .avsUpdate _ | .readyEntry _ | .readyDone | .windDownUnitStop | .standbyEntry | .registerWrite _
    _ _ | .timingRecoveryLock | .zeroiseTriggerRelease _ => true

end Sys2Proof
end

