-- ==== Sys2Proof/Safety.lean ====
section
/-!
DEFINITION. The terms in which statements about the block are made: that a command runs and what
it leaves, that an opcode is taken, how an outstanding command has ended, and the invariants.
-/

namespace Sys2Proof.Machine

/-- Command `i` runs in state `s`, and the state it leaves satisfies `P`. -/
def Gives (i : Instr) (s : State) (P : State → Prop) : Prop := ∃ t, exec i s = .next t ∧ P t

/-- The outstanding command `j` is `job`, with opcode `op`; its core may take it now, it needs no
officer's trailer and has none, the mode accepts it and it carries its `need` parameter words:
steps 5 to 7 of R393 up to its own checks pass. -/
structure Taken (op need j : Nat) (job : Job) (s : State) : Prop where
  found : findJob j s = some job
  free : ready op job s = true
  unsigned : job.auth = false
  untrailed : trailerOp job.opcode = false
  mode : opModes job.opcode s.pwr.mode s.pwr.pRunning = true
  words : need ≤ job.params.length
  uncommitted : job.committed = false

/-- The same for an officer's command: the trailer of R120 verifies and its SEQ is fresh. -/
structure TakenSigned (op need j : Nat) (job : Job) (s : State) : Prop where
  found : findJob j s = some job
  free : ready op job s = true
  signed : job.auth = true
  keys : ∃ o, s.cry.officer = some o ∧ macOk o.1 job = true
  fresh : s.cry.seq < job.trailerSeq
  mode : opModes job.opcode s.pwr.mode s.pwr.pRunning = true
  words : need + 10 ≤ job.params.length
  uncommitted : job.committed = false

/-- The state in which the body of a passed officer's command runs: its sequence number is
consumed (R120). -/
def consumed (job : Job) (s : State) : State := s.onCry fun c => { c with seq := job.trailerSeq }

/-- Command `j` has ended with a status; `done` says that it committed first. -/
def Ended (j : Nat) (status : BitVec 8) (done : Bool) (result : List Word) (t : State) : Prop :=
  ∃ x, findJob j t = some x ∧ x.stage = .decided ∧ x.status = status ∧ x.committed = done ∧
    x.result = result

/-- Command `j` is at a stage, its outcome still open. -/
def AtStage (j : Nat) (st : Stage) (t : State) : Prop := ∃ x, findJob j t = some x ∧ x.stage = st

/-- Source `i` is pending. -/
def Pending (i : Nat) (t : State) : Prop := (srcAt t.evt i).p = true

/-- Every protected memory is in its canonical form, and the coefficient sets with it. -/
def MemoryCanonical (s : State) : Prop := Memory.wf s.mem = true ∧ tabWf none s.mem.coeffs = true

/-- Outstanding commands have distinct numbers, all given out already. -/
def JobIdsFresh (s : State) : Prop :=
  (∀ x ∈ s.cmd.jobs, x.id < s.cmd.nextId) ∧ (s.cmd.jobs.map fun x => x.id).Nodup

/-- The tables of sources, groups, counters and shadow counters are in their canonical form. -/
def CounterTablesCanonical (s : State) : Prop :=
  tabWf {} s.evt.src = true ∧ tabWf {} s.evt.grp = true ∧ tabWf 0 s.evt.cnt = true ∧
    tabWf 0 s.pmu.shadow = true

/-- A BAR0 write of the word at address `a` may change state now: the rows of R549 with their
modes. -/
def writableNow (a : Nat) (s : State) : Bool :=
  let o := a % 0x10000
  let group := (a - 0x21000) / 0x40
  match a / 0x10000 with
  | 0x0 => a == 0x08 && portsOpen s
  | 0x1 => portsOpen s &&
      ((decide (0x100 ≤ o) && decide (o < 0x180) && [0x00, 0x04, 0x08, 0x0C].contains (o % 0x20)) ||
        (decide (0x200 ≤ o) && decide (o < 0x280) && [0x00, 0x04, 0x08, 0x10].contains (o % 0x20)))
  | 0x2 => portsOpen s &&
      (a == 0x20010 || (decide (0x21000 ≤ a) && decide (group < 25) &&
        [0x00, 0x04, 0x08, 0x0C, 0x10, 0x14, 0x20, 0x28, 0x34].contains (a % 0x40)))
  | 0x3 => portsOpen s && (o == 0x04 || o == 0x0C)
  | 0x4 => portsOpen s && [0x04, 0x08, 0x0C, 0x20, 0x24, 0x34].contains o
  | 0x5 => portsOpen s && decide (0x1000 ≤ o) && decide (o < 0x2800) &&
      (o % 0x200 == 0x00 || o % 0x200 == 0x04)
  | 0x6 => s.codeS && (o == 0x14 || o == 0x18)
  | 0x7 => s.codeS && (o == 0x14 || o == 0x18)
  | 0x8 => s.codeS && o == 0x04
  | 0xA => s.codeP && o == 0x04
  | _ => false

/-- The mode changes that R502 lists, a mode kept included. -/
def modeStep : Mode → Mode → Bool
  | _, .reset => true
  | .reset, .boot => true
  | .boot, .standby => true
  | .standby, .ready | .ready, .standby => true
  | .ready, .acquire | .acquire, .ready => true
  | .acquire, .traffic | .traffic, .acquire | .traffic, .ready => true
  | .ready, .maintenance | .maintenance, .ready => true
  | .zeroised, .ready => true
  | m, .zeroised => m.codeS
  | m, n => m == n

end Sys2Proof.Machine
end

