-- ==== Sys2Proof/Certificates/Slice0/Obligations.lean ====
section
/-!
DEFINITION. The statements for the provers, one for each family of commands and each kind of state,
and the invariants that every command keeps. A name in full capitals in a docstring is the
command of the opcode table.
-/

open Sys2Proof Sys2Proof.Machine

/-- For every command c and state s, a step of s with c at the front of its queue is exec c on s
with the queue's rest; with no command waiting the block idles (the model's choice, log entry 2).
(13_command_packets.md) -/
def Obligations.StepRunsFrontCommand : Prop :=
  (∀ (c : Instr) (rest : List Instr) (s : State), s.pending = c :: rest →
    step s = exec c { s with pending := rest }) ∧
  ∀ s : State, s.pending = [] → step s = .next s

/-- No command of the table stops the block: exec answers a next state for every command and every
state, well formed or not, and the next state's queue is the one it was given. (00_scope.md,
13_command_packets.md) -/
def Obligations.EveryCommandAnswers : Prop :=
  ∀ (c : Instr) (s : State), ∃ t, exec c s = .next t ∧ t.pending = s.pending

/-- A command that commits and completes at acceptance ends ST_OK with COMMITTED set, DETAIL 0 and
its result, its timestamp the local counter at the commit (R391, R392, R397); every other
outstanding command and every other part of the state is as it was, but for the order in which
officers' commands are checked (R120) and the events that the performance counters will count
(R472). A refused command ends with its status and DETAIL, uncommitted and without result, its
timestamp the counter at the decision. (13_command_packets.md) -/
def Obligations.CompletionAtAcceptance : Prop :=
  ∀ (j : Nat) (x : Job) (s : State), findJob j s = some x →
    (∀ r, ∃ y, findJob j (commitDone j r s) = some y ∧ y.stage = .decided ∧ y.status = 0x00 ∧
        y.committed = true ∧ y.detail = 0 ∧ y.result = r ∧ y.stamp = s.tim.counter ∧
        y.tag = x.tag ∧ y.cookie = x.cookie ∧ y.opcode = x.opcode ∧
        (∀ k, k ≠ j → findJob k (commitDone j r s) = findJob k s) ∧
        commitDone j r s = { s with
          cmd := { s.cmd with jobs := (commitDone j r s).cmd.jobs, takes := (commitDone j r s).cmd.takes }
          noted := (commitDone j r s).noted }) ∧
    (x.stage ≠ .decided → x.committed = false → ∀ st d, ∃ y, findJob j (finish j st d [] s) = some y ∧
        y.stage = .decided ∧ y.status = st ∧ y.committed = false ∧ y.detail = d ∧ y.result = [] ∧
        y.stamp = s.tim.counter ∧ y.tag = x.tag ∧ y.cookie = x.cookie ∧
        (∀ k, k ≠ j → findJob k (finish j st d [] s) = findJob k s) ∧
        finish j st d [] s = { s with
          cmd := { s.cmd with jobs := (finish j st d [] s).cmd.jobs, takes := (finish j st d [] s).cmd.takes }
          noted := (finish j st d [] s).noted })

/-- OP_NOP and OP_DEVICE_INFO, once their checks pass, commit and complete at acceptance with no
other effect (R407). An OP_ABORT is decided by the first row of R400 that applies: no target, an
OP_ABORT or OP_RESET, an officer command without an officer's verified abort, a target already
decided or committed, one not yet accepted, and one accepted but uncommitted, whose pending work
is withdrawn; an officer's abort whose trailer passes treats an officer command in the same way; a
mailbox abort of the mailbox command is refused (R399). Next states given here: OP_NOP,
OP_DEVICE_INFO, OP_ABORT. (13_command_packets.md) -/
def Obligations.QueryAndAbortCommands : Prop :=
  ∀ (j : Nat) (job t : Job) (s : State),
  (Taken 0x0100 0 j job s → exec (.opNop j) s = .next (commitDone j [] s)) ∧
  (Taken 0x0101 0 j job s → exec (.opDeviceInfo j) s = .next (commitDone j
    [word (0x2460 + Config.siliconRevision.toNat * 2 ^ 16),
     (s.pwr.image.map fun i => i.version).getD 0,
     word ((coreMask s).toNat + s.pwr.mode.code * 2 ^ 8)] s)) ∧
  (Taken 0x0102 1 j job s → bit (job.param 0) 16 && job.mailbox → exec (.opAbort j) s =
    .next (finish j stBadParam (word (7 * 2 ^ 16)) [] s)) ∧
  (Taken 0x0102 1 j job s → (bit (job.param 0) 16 && job.mailbox) = false →
    (abortTarget (job.param 0) s = none → exec (.opAbort j) s =
      .next (finish j stNotFound (word (8 * 2 ^ 16)) [] s)) ∧
    (abortTarget (job.param 0) s = some t →
      ((t.opcode = 0x0102 ∨ t.opcode = 0x0104) → exec (.opAbort j) s =
        .next (finish j stBadParam (word (7 * 2 ^ 16)) [] s)) ∧
      (t.opcode ≠ 0x0102 → t.opcode ≠ 0x0104 → officerOp t.opcode = true → exec (.opAbort j) s =
        .next (finish j stDenied (word (8 * 2 ^ 16)) [] s)) ∧
      (t.opcode ≠ 0x0102 → t.opcode ≠ 0x0104 → officerOp t.opcode = false →
        findJob t.id s = some t → t.id ≠ j →
        ((t.stage = .decided ∨ t.committed = true) → Gives (.opAbort j) s fun u =>
          Ended j stAlreadyDone false [] u ∧ findJob t.id u = some t ∧
          (∀ k, k ≠ j → findJob k u = findJob k s) ∧ u = { s with cmd := u.cmd, noted := u.noted }) ∧
        ((t.stage = .fetched ∨ t.stage = .pointer) → t.committed = false →
          Gives (.opAbort j) s fun u =>
          Ended j stOk true [] u ∧ Ended t.id stAborted false [] u ∧
          (∀ k, k ≠ j → k ≠ t.id → findJob k u = findJob k s) ∧ u = { s with cmd := u.cmd, noted := u.noted }) ∧
        (t.stage = .running → t.committed = false → Gives (.opAbort j) s fun u =>
          Ended j stOk true [] u ∧ Ended t.id stAborted false [] u ∧
          (∀ k, k ≠ j → k ≠ t.id → findJob k u = findJob k s) ∧
          u.tim = { s.tim with
            pendingSets := s.tim.pendingSets.filter fun p => p.job ≠ t.id } ∧
          u.cry = { s.cry with switches := s.cry.switches.filter fun w => w.job ≠ t.id } ∧
          u.rx = { s.rx with pend := s.rx.pend.filter fun q => q.1 ≠ t.id } ∧
          u = { s with cmd := u.cmd, tim := u.tim, dpll := u.dpll, pmu := u.pmu, frm := u.frm,
                       tx := u.tx, cry := u.cry, rx := u.rx, dec := u.dec, mon := u.mon,
                       skim := u.skim, lane := u.lane, noted := u.noted })))) ∧
  (TakenSigned 0x0102 1 j job s → job.priv = 1 → bit (job.param 0) 16 = false →
    abortTarget (job.param 0) s = some t → officerOp t.opcode = true →
    findJob t.id s = some t → t.id ≠ j →
    ((t.stage = .decided ∨ t.committed = true) → Gives (.opAbort j) s fun u =>
      Ended j stAlreadyDone false [] u ∧ findJob t.id u = some t ∧
      (∀ k, k ≠ j → findJob k u = findJob k s) ∧
      u = { s with cmd := u.cmd, noted := u.noted, cry := { s.cry with seq := job.trailerSeq } }) ∧
    ((t.stage = .fetched ∨ t.stage = .pointer) → t.committed = false → Gives (.opAbort j) s fun u =>
      Ended j stOk true [] u ∧ Ended t.id stAborted false [] u ∧
      (∀ k, k ≠ j → k ≠ t.id → findJob k u = findJob k s) ∧
      u = { s with cmd := u.cmd, noted := u.noted, cry := { s.cry with seq := job.trailerSeq } }) ∧
    (t.stage = .running → t.committed = false → Gives (.opAbort j) s fun u =>
      Ended j stOk true [] u ∧ Ended t.id stAborted false [] u ∧
      (∀ k, k ≠ j → k ≠ t.id → findJob k u = findJob k s) ∧
      u.cry = { s.cry with
        seq := job.trailerSeq, switches := s.cry.switches.filter fun w => w.job ≠ t.id }))

/-- In every mode but RESET, SQ_DOORBELL writes SQ_TAIL and CQ_HEAD_WRITE writes CQ_HEAD, index
bits above the ring's size ignored (R408); SQ_ENABLE_WRITE and CQ_ENABLE_WRITE write the control
register as R409 states: SIZE only in range and while ENABLE is 0, a rising ENABLE zeroing head
and tail and restarting PHASE at 1, a clear of CQ ENABLE ignored while the bound submission ring
is in use; SQ_FETCH_ERROR_CLEAR clears FETCH_ERROR. The other ring's registers and every other
part of the state stay. In RESET none of them has an effect. Next states given here: SQ_DOORBELL,
CQ_HEAD_WRITE, SQ_ENABLE_WRITE, SQ_FETCH_ERROR_CLEAR, CQ_ENABLE_WRITE. (13_command_packets.md) -/
def Obligations.RingRegisterWrites : Prop :=
  ∀ (r : Nat) (w : Word) (s : State), r < 4 →
  (portsOpen s = true →
    exec (.sqDoorbell r w) s = .next (onSq r (fun q => { q with
      tail := BitVec.ofNat 14 (w.toNat % 2 ^ 14 % 2 ^ (6 + q.size.toNat)) }) s) ∧
    (Gives (.cqHeadWrite r w) s fun t =>
      t.cmd.cq = (onCq r (fun q => { q with
        head := BitVec.ofNat 14 (w.toNat % 2 ^ 14 % 2 ^ (6 + q.size.toNat)) }) s).cmd.cq ∧
      t.cmd.jobs = s.cmd.jobs.map (fun j =>
        if j.ring = r ∧ j.live ∧ completionSlots j ≤ cqRoom (cqAt t r) then
          { j with stalled := false } else j) ∧
      t = { s with cmd := { s.cmd with cq := t.cmd.cq, jobs := t.cmd.jobs }, evt := t.evt }) ∧
    exec (.sqFetchErrorClear r) s = .next (onSq r (fun q => { q with fetchError := false }) s) ∧
    exec (.sqEnableWrite r w) s = .next (onSq r (fun q => { q with
      enable := bit w 4
      size := if q.enable ∨ w.toNat % 16 = 0 ∨ 8 < w.toNat % 16 then q.size else w.extractLsb' 0 4
      fetchError := q.fetchError && !bit w 5
      head := if bit w 4 ∧ ¬ q.enable then 0 else q.head
      tail := if bit w 4 ∧ ¬ q.enable then 0 else q.tail }) s) ∧
    (((cqAt s r).enable = true ∧ bit w 4 = false ∧ ((sqAt s r).enable = true ∨
        ∃ j ∈ s.cmd.jobs, j.live = true ∧ j.ring = r) → exec (.cqEnableWrite r w) s = .next s)) ∧
    (((cqAt s r).enable = false ∨ bit w 4 = true ∨ ((sqAt s r).enable = false ∧
        ∀ j ∈ s.cmd.jobs, j.live = true → j.ring ≠ r)) →
      exec (.cqEnableWrite r w) s = .next (onCq r (fun q => { q with
        enable := bit w 4
        size := if q.enable ∨ 8 < w.toNat % 16 then q.size else w.extractLsb' 0 4
        head := if bit w 4 ∧ ¬ q.enable then 0 else q.head
        tail := if bit w 4 ∧ ¬ q.enable then 0 else q.tail
        phase := if bit w 4 ∧ ¬ q.enable then true else q.phase }) s))) ∧
  (s.pwr.mode = .reset →
    exec (.sqDoorbell r w) s = .next s ∧ exec (.cqHeadWrite r w) s = .next s ∧
    exec (.sqEnableWrite r w) s = .next s ∧ exec (.sqFetchErrorClear r) s = .next s ∧
    exec (.cqEnableWrite r w) s = .next s)

/-- The rings from which the device may fetch and whose tail is not their head are served round-
robin, from the one after the last (R385); the ring whose turn it is, holding a whole packet,
gives it up: SQ_HEAD moves past the packet's ceil((16 + 4 x PARAM_LEN) / 64) slots, CMD_SUBMITTED
counts and one command more is outstanding, with the packet's opcode, tag and cookie (R385, R389);
a duplicate tag ends it ST_BUSY with DETAIL bit 31, and the first failed check of steps 1 to 3 of
R393 ends it as the step states, before anything else of it is done (R394); a failed read leaves
SQ_HEAD, sets FETCH_ERROR and raises SQ_ERROR (R386). A pointer read that ends well makes the
words its parameters and binds it to a core; poison and a failed read end it at step 4. Next
states given here: PACKET_FETCH, PARAM_POINTER_READ_DONE. (13_command_packets.md) -/
def Obligations.PacketFetchAndChecks : Prop :=
  ∀ (r : Nat) (ws : List Word) (s : State) (j : Nat) (job : Job),
  (∀ i, i < 4 →
    (∀ k, k ≤ i → ((fetching s ((s.cmd.lastRing + 1 + k) % 4) = true ∧
      (sqAt s ((s.cmd.lastRing + 1 + k) % 4)).head ≠ (sqAt s ((s.cmd.lastRing + 1 + k) % 4)).tail) ↔
        k = i)) → nextRing s = some ((s.cmd.lastRing + 1 + i) % 4)) ∧
  (nextRing s ≠ some r → ∀ read, exec (.packetFetch r read) s = .next s) ∧
  (nextRing s = some r →
    exec (.packetFetch r .error) s =
      .next (raise 36 r (onSq r (fun q => { q with fetchError := true })
        (s.onCmd fun c => { c with lastRing := r }))) ∧
    (packetSlots (ws.getD 1 0) ≤ ringUsed (sqAt s r).size (sqAt s r).tail (sqAt s r).head →
      (∀ x ∈ s.cmd.jobs, x.id < s.cmd.nextId) →
      Gives (.packetFetch r (.words ws)) s fun t =>
        t.cmd.sq = (onSq r (fun q => { q with
          head := BitVec.ofNat 14 ((q.head.toNat + packetSlots (ws.getD 1 0)) % ringSlots q.size) }) s).cmd.sq ∧
        t.cmd.nextId = s.cmd.nextId + 1 ∧ t.cmd.lastRing = r ∧
        (∃ x, findJob s.cmd.nextId t = some x ∧ x.ring = r ∧ x.mailbox = false ∧
          x.opcode = (ws.getD 0 0).extractLsb' 0 16 ∧ x.tag = (ws.getD 0 0).extractLsb' 16 12 ∧
          x.cookie = (ws.getD 3 0).append (ws.getD 2 0) ∧
          (tagHeld (jobOfWords s.cmd.nextId r false ws) s = true →
            x.stage = .decided ∧ x.status = 0x12 ∧ x.detail = 0x80000000 ∧ x.committed = false) ∧
          (tagHeld (jobOfWords s.cmd.nextId r false ws) s = false → anyCore s = true →
            ∀ st d, frontRefusal (ws.getD 0 0) (ws.getD 1 0)
                (jobOfWords s.cmd.nextId r false ws) = some (st, d) →
              x.stage = .decided ∧ x.status = st ∧ x.detail = d ∧ x.committed = false)) ∧
        (∀ k, k < s.cmd.nextId → findJob k t = findJob k s) ∧
        t = { s with cmd := t.cmd, evt := t.evt, noted := t.noted, carried := t.carried })) ∧
  (findJob j s = some job → job.stage = .pointer → job.committed = false →
    exec (.paramPointerReadDone j .poison) s = .next (modJob j (fun x => { x with front := true })
      (finish j stPoison (word (4 * 2 ^ 16)) [] s)) ∧
    exec (.paramPointerReadDone j .failed) s = .next (modJob j (fun x => { x with front := true })
      (finish j stBadParam (word (4 * 2 ^ 16 + 0xFFFE)) [] s)) ∧
    (ws.length = (job.param 2).toNat → anyCore s = true →
      Gives (.paramPointerReadDone j (.words ws)) s fun t =>
        (∃ x c, findJob j t = some x ∧ x.params = ws ∧ x.stage = .fetched ∧ x.core = some c) ∧
        (∀ k, k ≠ j → findJob k t = findJob k s) ∧
        t = { s with cmd := t.cmd, noted := t.noted, carried := t.carried }))

/-- A decided ring command whose earlier chain members and named target are gone and whose
completion ring is enabled has its completion written where the function may write and the ring
has room: one completion more stands in host memory, at the old CQ_TAIL with the words of R391 and
the ring's PHASE, CQ_TAIL moves on by 1 + ceil(RESULT_LEN / 8) slots, PHASE inverting where it
passes the end, and the command is outstanding no more (R384, R395, R401). Without room it waits,
stalled; without D0 or Bus Master Enable it waits and counts as a request, and so does one that
only such completions go before (R419, R551). That a command which writes key contexts does not
complete while the key store's writer stalls is the model's choice (log entry 160), as is that a
completion its ring holds back lets the others of its core fault pass (log entry 158). A
completion that PERST_N marked is discarded (R494). Next states given here: COMPLETION_WRITE,
RING_COMPLETION_DISCARD. (13_command_packets.md) -/
def Obligations.CompletionsReachTheirRing : Prop :=
  ∀ (j : Nat) (job : Job) (s : State), findJob j s = some job → job.stage = .decided →
  (job.live = true → (cqAt s job.ring).enable = true → writerStalled job s = false →
    (completionInOrder job s = true → hostWritable s = true → completionSlots job ≤ cqRoom (cqAt s job.ring) →
      Gives (.completionWrite j) s fun t =>
        t.cmd.written = { ring := job.ring, slot := (cqAt s job.ring).tail.toNat,
                          words := completionWords job (cqAt s job.ring).phase } :: s.cmd.written ∧
        t.cmd.cq = (onCq job.ring (fun q => { q with
          tail := BitVec.ofNat 14 ((q.tail.toNat + completionSlots job) % ringSlots q.size)
          phase := q.phase != decide
            (ringSlots q.size ≤ q.tail.toNat + completionSlots job) }) s).cmd.cq ∧
        findJob j t = none ∧ (∀ k, k ≠ j → findJob k t = findJob k s) ∧
        t = { s with cmd := t.cmd, evt := t.evt, noted := t.noted, carried := t.carried }) ∧
    (completionInOrder job s = true → hostWritable s = true →
      cqRoom (cqAt s job.ring) < completionSlots job →
      Gives (.completionWrite j) s fun t =>
        findJob j t = some { job with stalled := true } ∧ cqStalled t job.ring = true ∧
        t.cmd.written = s.cmd.written ∧ (∀ k, k ≠ j → findJob k t = findJob k s) ∧
        t = { s with cmd := t.cmd, evt := t.evt, noted := t.noted }) ∧
    (completionReady job s = true → hostWritable s = false → Gives (.completionWrite j) s fun t =>
        findJob j t = some { job with waits := true } ∧
        t.cmd.written = s.cmd.written ∧ (∀ k, k ≠ j → findJob k t = findJob k s) ∧
        t = { s with cmd := t.cmd, evt := t.evt, noted := t.noted })) ∧
  (job.discarded = true → resetMayComplete job s = true →
    Gives (.ringCompletionDiscard j) s fun t =>
      findJob j t = none ∧ t.cmd.written = s.cmd.written ∧ t.cmd.discardRaised = true ∧
      (∀ k, k ≠ j → findJob k t = findJob k s) ∧ t = { s with cmd := t.cmd, evt := t.evt, noted := t.noted })

/-- While the device answers on its ports (outside RESET, and not in BOOT under BOOT_SEL 0b11),
MBX_WRITE stores bytes into the request buffer from the address upward, bytes outside 0x0000 to
0x0FFF being no part of it, and posts the request as MBX_POST does where one of them falls on
0x2000; MBX_READ returns the mailbox space from the address upward; MBX_STATUS returns BUSY, DONE,
OVERRUN and READY in bits 0 to 3; MBX_BAD_INSTRUCTION, and a read while the device does not
answer, leave MBX_MISO undriven and change nothing else (R387). A post while BUSY sets OVERRUN,
raises MBOX_OVERRUN and takes nothing; otherwise, while Zilvy runs, it clears DONE and OVERRUN,
sets BUSY and makes the buffer an outstanding mailbox command. When that command ends, the
response buffer is written, BUSY clears and DONE is set (R388). In BOOT, where a mailbox load is
the source, a post gives a chunk (R499): a header that fails a check answers 0x80 plus its fail
code, which is recorded, one that passes begins a load and answers 0x00, a body chunk short of the
body answers 0x00, and the chunk that completes the body stays BUSY until the signature has been
checked. Next states given here: MBX_WRITE, MBX_READ, MBX_STATUS, MBX_BAD_INSTRUCTION, MBX_POST,
MBOX_RESPONSE_WRITE. (13_command_packets.md, 17_power_reset_modes.md) -/
def Obligations.MailboxTransfers : Prop :=
  ∀ (addr : BitVec 16) (bytes : List Byte) (n f : Nat) (b : Byte) (l : Load) (job : Job) (s : State),
  exec (.mbxBadInstruction b) s = .next (s.onBus fun x => { x with spiData := [] }) ∧
  (portsOpen s = false → exec (.mbxRead addr n) s = .next (s.onBus fun x => { x with spiData := [] }) ∧
    exec .mbxStatus s = .next (s.onBus fun x => { x with spiData := [] })) ∧
  (portsOpen s = true →
    (addr.toNat ≤ 0x2000 ∧ 0x2000 < addr.toNat + bytes.length → exec (.mbxWrite addr bytes) s =
      exec .mbxPost (s.onCmd fun c => { c with
        mbRequest := storeBytes c.mbRequest addr.toNat (bytes.take (0x1000 - addr.toNat)) })) ∧
    (¬(addr.toNat ≤ 0x2000 ∧ 0x2000 < addr.toNat + bytes.length) → exec (.mbxWrite addr bytes) s =
      .next (s.onCmd fun c => { c with
        mbRequest := storeBytes c.mbRequest addr.toNat (bytes.take (0x1000 - addr.toNat)) })) ∧
    exec (.mbxRead addr n) s = .next (s.onBus fun x => { x with
      spiData := (List.range n).map fun i => mboxByte s (addr.toNat + i) }) ∧
    (Gives .mbxStatus s fun t =>
      (∃ st, t.bus.spiData = [st] ∧ st.getLsbD 0 = s.cmd.mbBusy ∧ st.getLsbD 1 = s.cmd.mbDone ∧
        st.getLsbD 2 = s.cmd.mbOverrun ∧ st.getLsbD 3 = s.codeS ∧ st.toNat < 16) ∧
      t = { s with bus := { s.bus with spiData := t.bus.spiData } })) ∧
  (s.codeS = true → s.cmd.resetJob = none →
    (s.cmd.mbBusy = true → exec .mbxPost s =
      .next (raise 39 0 (s.onCmd fun c => { c with mbOverrun := true }))) ∧
    (s.cmd.mbBusy = false → (∀ x ∈ s.cmd.jobs, x.id < s.cmd.nextId) → Gives .mbxPost s fun t =>
      t.cmd.mbBusy = true ∧ t.cmd.mbDone = false ∧ t.cmd.mbOverrun = false ∧
      (∃ x, findJob s.cmd.nextId t = some x ∧ x.mailbox = true ∧
        x.opcode = ((requestWords s).getD 0 0).extractLsb' 0 16) ∧
      (∀ k, k < s.cmd.nextId → findJob k t = findJob k s) ∧ t = { s with cmd := t.cmd, evt := t.evt, noted := t.noted })) ∧
  (s.cmd.jobs.find? (fun x => x.mailbox) = some job → job.stage = .decided → job.after = none →
    s.cmd.resetJob = none → Gives .mboxResponseWrite s fun t =>
      t.cmd.mbBusy = false ∧ t.cmd.mbDone = true ∧ findJob job.id t = none ∧
      t.cmd.mbResponse = storeBytes s.cmd.mbResponse 0 (wordBytes (completionWords job false)) ∧
      t = { s with cmd := t.cmd, evt := t.evt, noted := t.noted }) ∧
  (s.pwr.mode = .boot → portsOpen s = true → s.pwr.bootOrder = [.mailbox] → s.pwr.verified = none →
    (s.cmd.mbBusy = true → exec .mbxPost s =
      .next (raise 39 0 (s.onCmd fun c => { c with mbOverrun := true }))) ∧
    (s.cmd.mbBusy = false → s.cmd.load = none → headerFail s (requestBytes s) = f → Gives .mbxPost s fun t =>
      t.cmd = { s.cmd with
        mbBusy := false, mbDone := true, mbOverrun := false
        mbResponse := storeBytes s.cmd.mbResponse 0 (natLe 4 (if f = 0 then 0 else 0x80 + f))
        load := if f = 0 then some { header := requestBytes s, body := []
                                     bodyLength := leNat (((requestBytes s).drop 16).take 4) } else none } ∧
      t.pwr = (if f = 0 then s.pwr else { s.pwr with failMbox := BitVec.ofNat 4 f }) ∧
      Pending 20 t ∧ t = { s with cmd := t.cmd, pwr := t.pwr, evt := t.evt, noted := t.noted }) ∧
    (s.cmd.mbBusy = false → s.cmd.load = some l → l.body.length + 4096 < l.bodyLength →
      Gives .mbxPost s fun t =>
        t.cmd = { s.cmd with
          mbBusy := false, mbDone := true, mbOverrun := false
          mbResponse := storeBytes s.cmd.mbResponse 0 (natLe 4 0)
          load := some { l with body := l.body ++ requestBytes s } } ∧
        Pending 20 t ∧ t = { s with cmd := t.cmd, evt := t.evt, noted := t.noted }) ∧
    (s.cmd.mbBusy = false → s.cmd.load = some l → l.bodyLength ≤ l.body.length + 4096 →
      exec .mbxPost s = .next (s.onCmd fun c => { c with
        mbBusy := true, mbDone := false, mbOverrun := false
        load := some { l with
          body := l.body ++ (requestBytes s).take (l.bodyLength - l.body.length) } })))

/-- Outside RESET, a write of s to ICU_COMPLETE of group n clears S of s and of no other source; a
write that names a source outside the group, or a source that is not in service, changes nothing.
After the complete, a source whose P and E are 1 requests again (where no core claims it at once),
and the group is delivered only if it did not request before, or its requests go to a core in
service (which has completed them: the model's reading of R416, log entry 156), and its timer is
idle (R415). A group that requests no longer loses the pending bit of its vector (PRESUMED, log
entry 155). Nothing outside the interrupt and event part of the state changes. Next states given
here: ICU_COMPLETE_WRITE. (R421) -/
def Obligations.IcuCompleteClearsService : Prop :=
  ∀ (n : Nat) (w : Word) (s : State), n < 25 → portsOpen s = true → tabWf {} s.evt.src = true →
  (w.toNat % 1024 / 16 = n → (srcAt s.evt (w.toNat % 1024)).s = true →
    Gives (.icuCompleteWrite n w) s fun t =>
      (srcAt t.evt (w.toNat % 1024)).s = false ∧
      (∀ k, k ≠ w.toNat % 1024 → (srcAt t.evt k).s = (srcAt s.evt k).s) ∧
      ((srcAt s.evt (w.toNat % 1024)).p = true → (srcAt s.evt (w.toNat % 1024)).e = true →
        (grpAt s.evt n).route.toNat < 2 → (srcAt t.evt (w.toNat % 1024)).requests = true) ∧
      ((groupRequests s.evt n = true ∧ coreServed s.ctx.cores n s.evt = false ∨
          (grpAt s.evt n).timer.isSome = true) → t.evt.sent = s.evt.sent) ∧
      t = { s with evt := t.evt }) ∧
  ((w.toNat % 1024 / 16 ≠ n ∨ (srcAt s.evt (w.toNat % 1024)).s = false) →
    exec (.icuCompleteWrite n w) s = .next s)

/-- Outside RESET, a read of ICU_CLAIM of group n returns its lowest-numbered requesting source
with the source's count, sets its S, clears its C and, for an event source, its P, and the
vector's pending bit goes with the group's last request (PRESUMED, log entry 155); with no request
it returns 1023 and changes no source, and it is counted in ICU_SPURIOUS exactly when it is the
first claim since the group's last delivery (R420, R424). A read of ICU_SPURIOUS returns the count
and clears it (R435). A hold-off timer expires when its units of 250 ns, 62.5 periods of 4 ns
each, have passed since its load (in BOOT, where no TIMESTAMP runs, the row alone decides: the
model's choice, log entries 1 and 17); the group is then delivered while it requests (R415); where
it requests nothing only the timer stops. Next states given here: HOLDOFF_EXPIRY, ICU_CLAIM_READ,
ICU_SPURIOUS_READ. (14_interrupts_and_event_log.md) -/
def Obligations.ClaimsAndHoldoff : Prop :=
  ∀ (n i : Nat) (s : State), n < 25 → portsOpen s = true →
  (16 * n ≤ i → i < 16 * n + 16 → (srcAt s.evt i).requests = true →
    (∀ k, 16 * n ≤ k → k < i → (srcAt s.evt k).requests = false) →
    Gives (.icuClaimRead n) s fun t =>
      t.bus = { s.bus with readData := [word (i + (srcAt s.evt i).c.toNat * 2 ^ 16)], poisoned := false } ∧
      t.evt.pba = (if groupRequests t.evt n then s.evt.pba else s.evt.pba &&& ~~~(1#32 <<< n)) ∧
      t.evt.src = (setSrc i (fun r => { r with
        p := levelSource s.evt.gpioMode i && r.p, s := true, c := 0 }) s.evt).src ∧
      t = { s with bus := t.bus, evt := { s.evt with src := t.evt.src, grp := t.evt.grp, pba := t.evt.pba } }) ∧
  ((∀ k, 16 * n ≤ k → k < 16 * n + 16 → (srcAt s.evt k).requests = false) →
    Gives (.icuClaimRead n) s fun t =>
      t.bus = { s.bus with readData := [1023], poisoned := false } ∧
      ((grpAt s.evt n).fresh = false → t.evt = s.evt) ∧
      ((grpAt s.evt n).fresh = true →
        t.evt.grp = (setGrp n (fun g => { g with fresh := false }) s.evt).grp ∧
        t.evt.cnt = tabSet 0 s.evt.cnt (0x2102C + 0x40 * n) (BitVec.ofNat 64
          (min 65535 ((cntAt s.evt (0x2102C + 0x40 * n)).toNat + 1))) ∧
        t.evt = { s.evt with grp := t.evt.grp, cnt := t.evt.cnt }) ∧
      t = { s with bus := t.bus, evt := t.evt }) ∧
  (exec (.icuSpuriousRead n) s = .next { s with
    bus := { s.bus with readData := [spuriousWord s n], poisoned := false }
    evt := setCnt (0x2102C + 0x40 * n) 0 s.evt }) ∧
  (∀ tm, (grpAt s.evt n).timer = some tm →
    (s.codeS = true → (s.evt.period - tm.2).toNat * 2 < 125 * tm.1.toNat →
      exec (.holdoffExpiry n) s = .next s) ∧
    ((s.codeS = true → 125 * tm.1.toNat ≤ (s.evt.period - tm.2).toNat * 2) →
    (groupRequests s.evt n = false → exec (.holdoffExpiry n) s =
      .next (s.onEvt (setGrp n fun g => { g with timer := none }))) ∧
    (groupRequests s.evt n = true → exec (.holdoffExpiry n) s =
      .next (s.onEvt fun e => afterPme s.ctx
        (deliver s.ctx.cores n (setGrp n (fun g => { g with timer := none }) e))))))

/-- Outside RESET, writes of ICU_ENABLE, ICU_ENABLE_SET and ICU_ENABLE_CLR set E of each defined
source of the group to the written bit, to 1 where the bit is 1, and to 0 where the bit is 1;
writes of ICU_PENDING, ICU_PENDING_SET and ICU_PENDING_CLR do the same to P of each event source,
and count and log nothing (R425, R435). The group may then be delivered (R415): where a core
claims its sources at once (ROUTE 2 and up) their P ends with that, and so only E is said of it.
In a group whose hold-off timer runs, or which already requests where no core in service serves it
(log entry 156), and which is not delivered now, each source's other bits, every other source and
everything outside the event part stays. In RESET none of these writes does anything. Next states
given here: ICU_ENABLE_WRITE, ICU_ENABLE_SET, ICU_ENABLE_CLR, ICU_PENDING_WRITE, ICU_PENDING_SET,
ICU_PENDING_CLR. (14_interrupts_and_event_log.md) -/
def Obligations.SourceBitsByWriting : Prop :=
  ∀ (n i : Nat) (w : Word) (P Q : Bool → State → Prop) (s : State), n < 25 → i < 16 →
  (portsOpen s = true → tabWf {} s.evt.src = true →
    (P = (fun b t =>
        (srcAt t.evt (16 * n + i)).e =
          (if sourceDefined (16 * n + i) then b else (srcAt s.evt (16 * n + i)).e) ∧
        (∀ k, k / 16 ≠ n → (srcAt t.evt k).e = (srcAt s.evt k).e) ∧
        (groupRequests s.evt n = true ∧ coreServed s.ctx.cores n s.evt = false ∨
            (grpAt s.evt n).timer.isSome = true →
          srcAt t.evt (16 * n + i) = (if sourceDefined (16 * n + i) then
            { srcAt s.evt (16 * n + i) with e := b } else srcAt s.evt (16 * n + i)) ∧
          (∀ k, k / 16 ≠ n → srcAt t.evt k = srcAt s.evt k) ∧
          (∀ k, k ≠ n → t.evt.pba.getLsbD k = s.evt.pba.getLsbD k) ∧
          t = { s with evt := { s.evt with src := t.evt.src, grp := t.evt.grp, pba := t.evt.pba } })) →
      Gives (.icuEnableWrite n w) s (P (bit w i)) ∧
      Gives (.icuEnableSet n w) s (P ((srcAt s.evt (16 * n + i)).e || bit w i)) ∧
      Gives (.icuEnableClr n w) s (P ((srcAt s.evt (16 * n + i)).e && !bit w i))) ∧
    (Q = (fun b t =>
        ((grpAt s.evt n).route.toNat ≤ 1 → 16 * n + i ∉ [50, 81, 372] →
          (srcAt t.evt (16 * n + i)).p =
            (if pendable s.evt.gpioMode (16 * n + i) then b else (srcAt s.evt (16 * n + i)).p)) ∧
        (groupRequests s.evt n = true ∧ coreServed s.ctx.cores n s.evt = false ∨
            (grpAt s.evt n).timer.isSome = true →
          srcAt t.evt (16 * n + i) = (if pendable s.evt.gpioMode (16 * n + i) then
            { srcAt s.evt (16 * n + i) with p := b } else srcAt s.evt (16 * n + i)) ∧
          (∀ k, k / 16 ≠ n → srcAt t.evt k = srcAt s.evt k) ∧
          (∀ k, k ≠ n → t.evt.pba.getLsbD k = s.evt.pba.getLsbD k) ∧
          t = { s with evt := { s.evt with src := t.evt.src, grp := t.evt.grp, pba := t.evt.pba } })) →
      Gives (.icuPendingWrite n w) s (Q (bit w i)) ∧
      Gives (.icuPendingSet n w) s (Q ((srcAt s.evt (16 * n + i)).p || bit w i)) ∧
      Gives (.icuPendingClr n w) s (Q ((srcAt s.evt (16 * n + i)).p && !bit w i)))) ∧
  (s.pwr.mode = .reset → ∀ c ∈ [Instr.icuEnableWrite n w, .icuEnableSet n w, .icuEnableClr n w,
    .icuPendingWrite n w, .icuPendingSet n w, .icuPendingClr n w], exec c s = .next s)

/-- Outside RESET, ICU_CFG_WRITE sets HOLDOFF and ROUTE of its group, a ROUTE of 6 or 7 leaving
ROUTE as it was, and changes nothing but that group (R414, R415). A write of ICU_GPIO_MODE
discards P of each pin whose mode changes and, in mode 3, takes the present condition at once,
without count or entry; the log's entries, the counters and every pin stay (R438). An edge of pin
i raises source 384 + i where the pin's mode 1 or 2 names the edge, updates the level in mode 3,
and does nothing further in mode 0. Next states given here: ICU_CFG_WRITE, ICU_GPIO_MODE_WRITE,
GPIO_EDGE. (14_interrupts_and_event_log.md) -/
def Obligations.GroupConfigurationAndGpio : Prop :=
  ∀ (n i : Nat) (w : Word) (s : State), n < 25 → i < 16 →
  (portsOpen s = true →
    exec (.icuCfgWrite n w) s = .next (s.onEvt (setGrp n fun g => { g with
      route := if w.toNat / 2 ^ 16 % 8 < 6 then w.extractLsb' 16 3 else g.route
      holdoff := w.extractLsb' 0 16
      asserting := g.asserting &&
        (if w.toNat / 2 ^ 16 % 8 < 6 then w.extractLsb' 16 3 else g.route) == 1 })) ∧
    (tabWf {} s.evt.src = true →
      (groupRequests s.evt 24 = true ∧ coreServed s.ctx.cores 24 s.evt = false ∨
        (grpAt s.evt 24).timer.isSome = true) →
      Gives (.icuGpioModeWrite w) s fun t =>
        t.evt.gpioMode = w ∧
        (gpioModeOf w i ≠ gpioModeOf s.evt.gpioMode i → srcAt t.evt (384 + i) =
          { srcAt s.evt (384 + i) with
            p := gpioModeOf w i == 3 && !s.evt.gpioPin.getLsbD i }) ∧
        (gpioModeOf w i = gpioModeOf s.evt.gpioMode i →
          srcAt t.evt (384 + i) = srcAt s.evt (384 + i)) ∧
        t = { s with evt := { s.evt with
          gpioMode := w, src := t.evt.src, grp := t.evt.grp, pba := t.evt.pba } })) ∧
  (∀ high : Bool, s.evt.gpioPin.getLsbD i = !high →
    exec (.gpioEdge i high) s = .next
      ((match gpioModeOf s.evt.gpioMode i, high with
        | 1, true | 2, false => raise (384 + i) 0
        | 3, h => setLevel (384 + i) (!h)
        | _, _ => id) (s.onEvt fun e => { e with gpioPin := e.gpioPin ^^^ (1#16 <<< i) })))

/-- In the modes of code S, with no marker due and room in the ring, the merge writes the held
entry with the lowest (TIMESTAMP, SOURCE) once its settle window of 500 periods has passed: its 32
bytes stand at EVLOG_WRITE, which with SEQ moves on by one, and the entry is held no more; with a
marker due and room it writes the marker, from the 500th period on (no TIMESTAMP lies 2 us before
an earlier one: the model's choice, log entry 149), with SOURCE 4095, CODE 3 and the number
discarded, unless a held entry goes before it in the order of (TIMESTAMP, SOURCE), and the number
starts again at 0 (R430 to R432). An EVLOG_READ within the unread range, EVLOG_WRITE included, is
taken and any other ignored (R434). EVLOG_CTRL sets OVERWRITE and WATERMARK, a WATERMARK of 0
leaving the field (R441). Next states given here: EVLOG_MERGE_WRITE, EVLOG_READ_WRITE,
EVLOG_CTRL_WRITE. (14_interrupts_and_event_log.md) -/
def Obligations.EventLogMerge : Prop :=
  ∀ (w : Word) (h : LogEntry) (s : State),
  (s.codeS = true → (s.evt.discarded = 0 ∨ logKey h ≤ logKey (marker s)) → lowestHeld s.evt.held = some h →
    unread s.evt < 4095 → isLate s.evt h = false → h.stamp.toNat + 500 ≤ s.evt.period.toNat →
    Gives .evlogMergeWrite s fun t =>
      t.evt.logWrite = s.evt.logWrite + 1 ∧ t.evt.seqNext = s.evt.seqNext + 1 ∧
      t.evt.logRead = s.evt.logRead ∧
      t.evt.lastWritten = some (h.stamp, h.source) ∧
      (s.evt.d3hot = false → (counter s 0x30018).toNat + 1 < 2 ^ 64 →
        t.evt.held = dropHeld h s.evt.held) ∧
      t.mem = (writeWords 11 (4 * s.evt.logWrite.toNat) (entryWords h false s.evt.seqNext) s).mem ∧
      t = { s with evt := t.evt, mem := t.mem, carried := t.carried }) ∧
  (s.codeS = true → s.evt.discarded ≠ 0 → unread s.evt < 4095 → 500 ≤ s.evt.period.toNat →
    (∀ x, lowestHeld s.evt.held = some x → logKey (marker s) < logKey x) →
    Gives .evlogMergeWrite s fun t =>
      t.evt.logWrite = s.evt.logWrite + 1 ∧ t.evt.seqNext = s.evt.seqNext + 1 ∧
      t.evt.lastWritten = some (s.evt.period - 500, 4095) ∧
      (s.evt.d3hot = false → (counter s 0x30018).toNat + 1 < 2 ^ 64 → t.evt.discarded = 0) ∧
      (∃ m : LogEntry, m.source = 4095 ∧ m.code = 3 ∧ m.stamp = s.evt.period - 500 ∧
        m.data.toNat = s.evt.discarded.toNat ∧
        t.mem = (writeWords 11 (4 * s.evt.logWrite.toNat)
          (entryWords m false s.evt.seqNext) s).mem) ∧
      t = { s with evt := t.evt, mem := t.mem, carried := t.carried }) ∧
  (portsOpen s = true →
    ((w.extractLsb' 0 12 - s.evt.logRead).toNat ≤ unread s.evt → exec (.evlogReadWrite w) s =
      .next (settleLog (s.onEvt fun e => { e with logRead := w.extractLsb' 0 12 }))) ∧
    (unread s.evt < (w.extractLsb' 0 12 - s.evt.logRead).toNat →
      exec (.evlogReadWrite w) s = .next s) ∧
    exec (.evlogCtrlWrite w) s = .next (settleLog (s.onEvt fun e => { e with
      watermark := if w.toNat / 2 ^ 16 % 2 ^ 12 = 0 then e.watermark else w.extractLsb' 16 12
      overwrite := bit w 0 })))

/-- Outside RESET: D3HOT_ENTRY and D0_RETURN change the power state and raise PCIE_D3HOT and
PCIE_D0; when the function may write again, waiting completions are written and requesting MSIX
groups delivered (R419, R551). Bus Master Enable and MSI-X Enable are set and cleared. A cleared
vector or function mask sends the messages whose pending bit is set, clears those bits and loads
no timer (R418). Link changes and errors raise their sources (R442). PERST_N resets the
configuration space, the MSI-X table and the ring registers (which values those are is the PCIe
Base Specification's: PRESUMED, log entry 13), marks every outstanding ring command's completion
for discarding and leaves the mailbox commands and everything outside these parts (R494). Next
states given here: D3HOT_ENTRY, D0_RETURN, BUS_MASTER_ENABLE_SET, BUS_MASTER_ENABLE_CLEAR,
MSIX_ENABLE_SET, MSIX_MASK_CLEAR, PCIE_LINK_UP, PCIE_LINK_DOWN, PCIE_ERROR, PERST_ASSERT,
I2C_ERROR, QSPI_ERROR. (14_interrupts_and_event_log.md, 17_power_reset_modes.md) -/
def Obligations.PcieFunctionStates : Prop :=
  ∀ (pme u : Bool) (v : Nat) (s : State),
  (exec (.pcieError u) s = .next (raiseLimited 373 373 (if u then 1 else 0) s)) ∧
  (exec .i2cError s = .next (raiseLimited 374 374 0 s)) ∧
  (s.pwr.mode ≠ .boot → exec .qspiError s = .next (raiseLimited 375 375 0 s)) ∧
  (portsOpen s = true →
    (s.evt.d3hot = false → s.evt.perst = false → exec (.d3hotEntry pme) s =
      .next (raise 370 0 (s.onEvt fun e => { e with d3hot := true, pmeEnable := pme }))) ∧
    (s.evt.d3hot = true → Gives (.d0Return pme) s fun t =>
      t.evt.d3hot = false ∧ (s.evt.busMaster = false → t =
        raise 371 0 (s.onEvt fun e => { e with
          d3hot := false, pmeStatus := e.pmeStatus && !pme })) ∧
      (s.evt.busMaster = true → s.evt.perst = false → t = deliverMsix (withheld
        (fun u => writeWaiting (raise 371 0 u)) (s.onEvt fun e => { e with
          d3hot := false, pmeStatus := e.pmeStatus && !pme })))) ∧
    (s.evt.busMaster = false → s.evt.perst = false → s.evt.d3hot = true →
      exec .busMasterEnableSet s = .next (s.onEvt fun e => { e with busMaster := true })) ∧
    (s.evt.busMaster = false → s.evt.perst = false → s.evt.d3hot = false →
      exec .busMasterEnableSet s =
        .next (deliverMsix (withheld writeWaiting (s.onEvt fun e => { e with busMaster := true })))) ∧
    (exec .busMasterEnableClear s = .next (s.onEvt fun e => { e with busMaster := false })) ∧
    (s.evt.msixEnable = false → s.evt.perst = false → exec .msixEnableSet s =
      .next (deliverMsix (s.onEvt fun e => { e with msixEnable := true }))) ∧
    (v < 32 → s.evt.pba.getLsbD v = true → s.evt.functionMask = false → s.evt.msixEnable = true →
      s.evt.d3hot = false → s.evt.busMaster = true → exec (.msixMaskClear (some v)) s =
        .next (s.onEvt fun e => { e with
          vectorMask := e.vectorMask &&& ~~~(1#32 <<< v)
          pba := e.pba &&& ~~~(1#32 <<< v), sent := .msix v :: e.sent })) ∧
    (exec (.msixMaskClear none) s = .next (s.onEvt fun e =>
      (List.range 32).foldl (fun e k => sendPending k e) { e with functionMask := false })) ∧
    (s.evt.linkUp = false → exec .pcieLinkUp s =
      .next (raise 368 0 (s.onEvt fun e => { e with linkUp := true, perst := false }))) ∧
    (s.evt.linkUp = true → exec .pcieLinkDown s =
      .next (raise 369 0 (s.onEvt fun e => { e with linkUp := false }))) ∧
    (s.evt.perst = false → Gives .perstAssert s fun t =>
      t.evt.perst = true ∧ t.evt.busMaster = false ∧ t.evt.d3hot = false ∧
      t.evt.msixEnable = false ∧ t.evt.vectorMask = 0xFFFFFFFF ∧ t.evt.pba = 0 ∧
      t.cmd.sq = [] ∧ t.cmd.cq = [] ∧
      t.cmd.jobs = s.cmd.jobs.map (fun j => if j.mailbox then j else
        { j with discarded := true, waits := false, stalled := false }) ∧
      t.cmd = { s.cmd with sq := [], cq := [], discardRaised := false, lastRing := 3, jobs := t.cmd.jobs,
                           takes := t.cmd.takes } ∧
      t = { s with evt := t.evt, cmd := t.cmd, noted := t.noted }))

/-- A trap (cause 3) or a watchdog (cause 2) in a core that is in service halts it: it is
RESTARTING with that LAST_CAUSE and its fault's period noted, CMD_CORE_FAULTS counts and
CORE_FAULT is raised; every command bound to it that has not committed ends ST_ABORTED_FAULT, one
already refused among them (DEDUCED, log entry 23), and every other command keeps its stage and
outcome (R403). A core out of service does not fault. A restart ends with the core in service
where it did not fault twice within a second and the next peer's body reads good; with it OFFLINE
where it did, or no peer is in service (R404); and a peer whose body does not read good faults in
turn, with cause MEM. The peer that a copy takes next is the lowest in service, as the text under
R403 says. OP_CORE_RETURN of an OFFLINE core is accepted and restarts it; of any other core it is
refused ST_NOT_FOUND (R407). Next states given here: OP_CORE_RETURN, CORE_TRAP, CORE_WATCHDOG,
CORE_RESTARTED. (13_command_packets.md) -/
def Obligations.CoreFaultsAndReturns : Prop :=
  ∀ (c j : Nat) (job : Job) (s : State), c < 4 →
  (coreInService s c = true →
    (∀ u : Nat → State, (u = fun k => releaseCore c (raise 32 (c + k * 16) (errAdd 0x10038 1
        (onCore c (fun x => { x with
          state := .restarting, lastCause := BitVec.ofNat 2 k, lastFault := some s.evt.period
          again := match (coreAt s c).lastFault with
            | some p => decide ((s.evt.period - p).toNat < 250000000)
            | none => false }) s)))) →
      exec (.coreTrap c) s = .next (u 3) ∧ exec (.coreWatchdog c) s = .next (u 2)) ∧
    (JobIdsFresh s → ∀ x ∈ s.cmd.jobs, Gives (.coreTrap c) s fun t =>
      (x.core = some c → x.released = false → x.committed = false →
        Ended x.id stAbortedFault false [] t) ∧
      (x.core ≠ some c ∨ x.committed = true → ∃ y, findJob x.id t = some y ∧
        y.stage = x.stage ∧ y.status = x.status ∧ y.result = x.result ∧
        y.committed = x.committed ∧ y.core = x.core))) ∧
  (coreInService s c = false → exec (.coreTrap c) s = .next s ∧ exec (.coreWatchdog c) s = .next s) ∧
  (s.codeS = true → (coreAt s c).state = .restarting →
    ((coreAt s c).returnJob = none →
      ((coreAt s c).again = true ∨ (coreAt s c).again = false ∧ peerOf c s = none) →
      exec (.coreRestarted c) s = .next (raise 34 c (onCore c (fun x => { x with
        state := .offline, again := false, returnJob := none }) s))) ∧
    (∀ p, (coreAt s c).again = false → peerOf c s = some p →
      ((copyBody (2 + p) (2 + c) 0 (bodyCount s) s).1 = none → exec (.coreRestarted c) s =
        .next (coreFault p 1 (copyBody (2 + p) (2 + c) 0 (bodyCount s) s).2)) ∧
      ((copyBody (2 + p) (2 + c) 0 (bodyCount s) s).1.isSome = true →
        Gives (.coreRestarted c) s fun t =>
          t.cmd.core = (onCore c (fun x => { x with
            state := .inService, again := false, returnJob := none }) s).cmd.core ∧
          t = { s with cmd := t.cmd, mem := t.mem, evt := t.evt, noted := t.noted
                       carried := t.carried }))) ∧
  (∀ d : Nat, Taken 0x0910 1 j job s → (job.param 0).toNat % 4 = d →
    ((coreAt s d).state = .offline → exec (.opCoreReturn j) s =
      .next (modJob j (fun x => { x with stage := .running }) (onCore d (fun x => { x with
        state := .restarting, again := false, returnJob := some j }) s))) ∧
    ((coreAt s d).state ≠ .offline → exec (.opCoreReturn j) s =
      .next (finish j stNotFound (word (8 * 2 ^ 16)) [] s)))

/-- In a canonical memory, a full-width write leaves its word valid, without poison and with fresh
check bits, and leaves every other word as it was; a checked read of a word then returns what was
written. A read of a word with V = 0 returns zero and counts nothing; of a word with P = 1,
poison; of a word with one flipped bit, the stored data; of a word with two, poison, and P is then
set (R444, R445, R448). A read changes the counted bytes of its port only (R479). An injected
error flips the named bits only, a word with V = 0 first becoming zero data (R458).
(15_memory_integrity.md) -/
def Obligations.ProtectedWordsReadAndWritten : Prop :=
  ∀ (g a h b det : Nat) (d : BitVec 128) (m : BitVec 137) (s : State), MemoryCanonical s →
  (cellAt (writeWord g a d s) g a = { valid := true, poison := false, data := d, flips := 0 } ∧
    (memKey h b ≠ memKey g a → cellAt (writeWord g a d s) h b = cellAt s h b) ∧
    seeWord g a det (writeWord g a d s) = (some d, touched g 1 (writeWord g a d s))) ∧
  ((cellAt s g a).valid = false → seeWord g a det s = (some 0, touched g 1 s)) ∧
  ((cellAt s g a).valid = true → (cellAt s g a).poison = true →
    seeWord g a det s = (none, touched g 1 s)) ∧
  (touched g 1 s = { s with carried := (touched g 1 s).carried }) ∧
  ((cellAt s g a).valid = true → (cellAt s g a).poison = false →
    (popCount (cellAt s g a).flips = 1 → (seeWord g a det s).1 = some (cellAt s g a).data) ∧
    (popCount (cellAt s g a).flips = 2 → (seeWord g a det s).1 = none ∧
      cellAt (seeWord g a det s).2 g a = { cellAt s g a with poison := true } ∧
      (memKey h b ≠ memKey g a → cellAt (seeWord g a det s).2 h b = cellAt s h b))) ∧
  (cellAt (injectWord g a m s) g a = (if (cellAt s g a).valid then
      { cellAt s g a with flips := (cellAt s g a).flips ^^^ m }
    else { valid := true, poison := false, data := 0, flips := m }) ∧
    (memKey h b ≠ memKey g a → cellAt (injectWord g a m s) h b = cellAt s h b))

/-- OP_MEM_RECOVER over a group whose domain runs and that no pass runs on commits at acceptance:
the pass starts at word 0, the scrubber waits, and the log table is emptied; it is refused
ST_BAD_PARAM for a group above 11, ST_MODE where the domain is stopped and ST_BUSY during a pass
(R450, R457, R459). OP_MEM_INJECT flips the masked bits of the named word and completes; group 6
is refused ST_DENIED (R458). A pass that has run long enough for its next read (R457), which is
one word, or in group 0 one of each bank (DEDUCED, log entry 159), and reads good or invalid words
counts them and moves on; a poisoned word has its memory's consequence and without CLEAR stays as
it is, and CLEAR invalidates and counts it in the skim capture memory; a correctable and an
uncorrectable error are counted in the pass and handled; a pass that has read every word, or ran
for two lap limits, ends, ST_OK or ST_TIMEOUT, with its five result words. Next states given here:
OP_MEM_RECOVER, RECOVERY_PASS_END, OP_MEM_INJECT, RECOVERY_PASS_READ. (15_memory_integrity.md) -/
def Obligations.MemoryCommands : Prop :=
  ∀ (g j n : Nat) (job : Job) (p : Pass) (r : Pass × State) (s : State),
  (Taken 0x0801 1 j job s → (job.param 0).toNat % 16 = g →
    (g ≤ 11 → groupRuns s g = true → (memGrp s g).pass = none → exec (.opMemRecover j) s =
      .next (commit j (onGrp g (fun m => { m with
        pass := some { job := j, addr := 0, clear := bit (job.param 0) 8
                       start := s.evt.period } }) (clearLog g (pauseLap g s))))) ∧
    (11 < g → exec (.opMemRecover j) s =
      .next (finish j stBadParam (word (7 * 2 ^ 16)) [] s)) ∧
    (g ≤ 11 → groupRuns s g = false → exec (.opMemRecover j) s =
      .next (finish j stMode (word s.pwr.mode.code) [] s)) ∧
    (g ≤ 11 → groupRuns s g = true → (memGrp s g).pass ≠ none → exec (.opMemRecover j) s =
      .next (finish j stBusy (word (8 * 2 ^ 16)) [] s))) ∧
  (∀ a : Nat, Taken 0x0802 7 j job s → (job.param 0).toNat % 16 = g →
    (job.param 1).toNat % 2 ^ 24 = a → g ≤ 11 → addrOk g a = true →
    (groupData g ≤ 32 → job.param 3 = 0) →
    (groupData g ≤ 64 → job.param 4 = 0 ∧ job.param 5 = 0) →
    (job.param 6).toNat < 2 ^ groupCheck g →
    (g ≠ 6 → exec (.opMemInject j) s = .next (commitDone j [] (injectWord g a (injectMask job) s))) ∧
    (g = 6 → exec (.opMemInject j) s = .next (finish j stDenied (word (8 * 2 ^ 16)) [] s))) ∧
  ((memGrp s g).pass = some p → groupRuns s g = true → p.addr < groupReads g →
    (passDue s g p = false → exec (.recoveryPassRead g) s = .next s) ∧
    (passDue s g p = true →
      ((∀ a ∈ readAddrs g p.addr, (cellAt s g a).valid = false ∨
          (cellAt s g a).poison = false ∧ (cellAt s g a).flips = 0) →
        Gives (.recoveryPassRead g) s fun t =>
          t.mem = (onGrp g (fun m => { m with pass := some { p with
            addr := p.addr + 1, read := p.read + (readAddrs g p.addr).length } }) s).mem ∧
          t = { s with mem := t.mem, carried := t.carried }) ∧
      (∀ a, readAddrs g p.addr = [a] → (cellAt s g a).valid = true → (cellAt s g a).poison = true →
        (p.clear = false → exec (.recoveryPassRead g) s = .next (onGrp g (fun m => { m with
          pass := m.pass.map fun _ => { p with addr := p.addr + 1, read := p.read + 1 } })
          (consequence g a (touched g 1 s)))) ∧
        (p.clear = true → g = 10 → exec (.recoveryPassRead g) s = .next (onGrp g (fun m => { m with
          pass := m.pass.map fun _ => { p with
            addr := p.addr + 1, read := p.read + 1, invalidated := p.invalidated + 1 } })
          (invalidateRange g a (a + 1) (touched g 1 s)))))) ∧
    (passDue s g p = true → r = (readAddrs g p.addr).foldl (fun q a => passStep g a q) (p, s) →
      exec (.recoveryPassRead g) s = .next (onGrp g (fun m => { m with
        pass := m.pass.map fun _ => { r.1 with addr := p.addr + 1 } }) r.2))) ∧
  ((cellAt s g n).valid = true → (cellAt s g n).poison = false →
    (popCount (cellAt s g n).flips = 1 → passWord g n s = (1, 0, foundCe g n 10 (touched g 1 s))) ∧
    (popCount (cellAt s g n).flips = 2 →
      passWord g n s = (0, 1, consequence g n (poisonWord g n 10 false (touched g 1 s)))) ∧
    passStep g n (p, s) = (let x := passWord g n s
      let y := p.clear && (cellAt x.2.2 g n).poison && clearable x.2.2 g n
      ({ p with read := p.read + 1, ce := p.ce + x.1, ue := p.ue + x.2.1
                invalidated := p.invalidated + b2n y },
       if y then invalidateRange g n (n + 1) x.2.2 else x.2.2))) ∧
  (readAddrs g n = (if g = 0 then (List.range 32).map fun b => b * 2 ^ 17 + n else [n])) ∧
  ((memGrp s g).pass = some p → findJob p.job s = some job → job.stage = .working →
    job.committed = true →
    (groupReads g ≤ p.addr ∨ 2 * (memGrp s g).lapLimit.toNat ≤
        (s.evt.period - p.start).toNat / 250) →
    Gives (.recoveryPassEnd g) s fun t =>
      Ended p.job (if groupReads g ≤ p.addr then stOk else stTimeout) true
        [word p.read, word p.ce, word p.ue, word p.invalidated,
         word ((s.evt.period - p.start).toNat / 250)] t ∧
      t.mem.cells = s.mem.cells ∧
      t = { s with cmd := t.cmd, mem := t.mem, evt := t.evt, noted := t.noted })

/-- While its group's domain runs and no pass runs, the scrubber makes its next read once the lap
has run long enough for it (R456), of one word, or in group 0 of one of each bank (DEDUCED, log
entry 159): an invalid or poisoned word is passed over, a good one only read, one with one flipped
bit is written back and counted in MEMG_CE_FIXED and as a correctable error (R472), one with two
flipped bits is poisoned, counted, logged, raises MEM_UE and has its memory's consequence; after
the last read the lap ends (R448, R449, R454 to R456). While a memory is clocked, in BOOT too, a
datapath reader's error poisons the word once; a word already poisoned gives only the consequence.
A merge-buffer entry drains into zero, into the good word, or is discarded where the word is
poisoned, and leaves the buffer; a store of a core or DMA write joins its word's entry or waits
behind it, and a read through the port sees the word as the entry changes it (R452; which master
an entry keeps is the model's choice, log entry 160). When the other coefficient set has been
rebuilt it is switched in, holding the coefficients of the applied dispersion, and the poisoned
one invalidated (R449; which half a set is, log entry 56); no other memory changes. Next states
given here: SCRUB_READ, SCRUB_LAP_LONG, MERGE_DRAIN, COEFF_SET_REBUILT, DATAPATH_UE_READ.
(15_memory_integrity.md) -/
def Obligations.ScrubbersAndErrors : Prop :=
  ∀ (g a n : Nat) (e : MergeEntry) (w : NarrowWrite) (r : PortRead) (s : State), g < 12 →
  (groupRuns s g = true → (memGrp s g).pass = none → (memGrp s g).scrubAddr = n →
    (scrubDue s g = false → exec (.scrubRead g) s = .next s) ∧
    (scrubDue s g = true → n + 1 < groupReads g → exec (.scrubRead g) s =
      .next (onGrp g (fun m => { m with scrubAddr := n + 1 })
        ((readAddrs g n).foldl (fun u b => scrubWord g b u) s))) ∧
    (scrubDue s g = true → groupReads g ≤ n + 1 → exec (.scrubRead g) s =
      .next (endLap g ((readAddrs g n).foldl (fun u b => scrubWord g b u) s)))) ∧
  (((cellAt s g a).valid = false ∨ (cellAt s g a).poison = true → scrubWord g a s = s) ∧
    ((cellAt s g a).valid = true → (cellAt s g a).poison = false →
      ((cellAt s g a).flips = 0 → scrubWord g a s = touched g 1 s) ∧
      (popCount (cellAt s g a).flips = 1 → logging s g = false → scrubWord g a s =
        writeBack g a (noteError 0x301 g a 7 (errAdd (0x51000 + 0x200 * g + 0x20) 1 (touched g 1 s)))) ∧
      (popCount (cellAt s g a).flips = 1 → logging s g = true → scrubWord g a s =
        writeBack g a (noteError 0x301 g a 7
          (errAdd (0x51000 + 0x200 * g + 0x20) 1 (logCe g a 7 false (touched g 1 s))))) ∧
      (popCount (cellAt s g a).flips = 2 → scrubWord g a s =
        consequence g a (poisonWord g a 7 false (touched g 1 s))))) ∧
  (groupRuns s g = true → (memGrp s g).lapLong = false → (memGrp s g).lapLimit.toNat ≤ lapUs s g →
    exec (.scrubLapLong g) s =
      .next (raise 67 g (onGrp g (fun m => { m with lapLong := true }) s))) ∧
  (groupClocked s g = true → addrOk g a = true → (cellAt s g a).valid = true →
    ((cellAt s g a).poison = true → exec (.datapathUeRead g a) s = .next (consequence g a s)) ∧
    ((cellAt s g a).poison = false → popCount (cellAt s g a).flips = 2 →
      exec (.datapathUeRead g a) s =
        .next (consequence g a (poisonWord g a (if 2 ≤ g ∧ g ≤ 5 then g else 9) false s))) ∧
    ((cellAt s g a).poison = false → (cellAt s g a).flips = 0 →
      exec (.datapathUeRead g a) s = .next (consequence g a
        (poisonWord g a (if 2 ≤ g ∧ g ≤ 5 then g else 9) false (upsetWord g a s))))) ∧
  (2 ≤ g → g ≤ 6 → groupClocked s g = true → addrOk g a = true → ∀ u : State,
    u = (if g = 6 then s else s.onMem fun m => { m with loaded := [] }) →
    (narrowEntry g a s = none → exec (.mergeDrain g a [] []) s = .next u) ∧
    (narrowEntry g a s = some e →
      ((cellAt s g a).valid = false → exec (.mergeDrain g a [] []) s =
        .next (writeWord g a (e.data &&& (e.mask &&& BitVec.ofNat 128 (2 ^ groupData g - 1)))
          (touched g 1 (dropMerge g a u)))) ∧
      ((cellAt s g a).valid = true → (cellAt s g a).poison = false → (cellAt s g a).flips = 0 →
        exec (.mergeDrain g a [] []) s = .next (writeWord g a
          (((cellAt s g a).data &&& ~~~(e.mask &&& BitVec.ofNat 128 (2 ^ groupData g - 1))) |||
            (e.data &&& (e.mask &&& BitVec.ofNat 128 (2 ^ groupData g - 1))))
          (touched g 1 (dropMerge g a u)))) ∧
      ((cellAt s g a).valid = true → (cellAt s g a).poison = true → exec (.mergeDrain g a [] []) s =
        .next (discardWrite g a e.master (touched g 1 (dropMerge g a u))))) ∧
    (narrowEntry g a s = none → g ≠ 6 →
      (addrOk g w.addr = true → w.addr ≠ a → 2 ≤ w.master → w.master ≤ 6 →
        exec (.mergeDrain g a [w] []) s = .next ((onMerge g (addNarrow w.addr w.master
          (w.data.setWidth 128) (enabledBits w.bytes)) s).onMem fun m => { m with loaded := [] })) ∧
      (addrOk g r.addr = true → 1 ≤ r.master → r.master ≤ 8 → r.master ≠ 7 →
        masterStalled g r.master s = false → (cellAt s g r.addr).valid = true →
        (cellAt s g r.addr).poison = false → (cellAt s g r.addr).flips = 0 →
        Gives (.mergeDrain g a [] [r]) s fun t =>
          t.mem = { s.mem with loaded := [some ((match narrowEntry g r.addr s with
            | some x => x.apply g (cellAt s g r.addr).data
            | none => (cellAt s g r.addr).data).setWidth 64)] } ∧
          t = { s with mem := t.mem, carried := t.carried }))) ∧
  (∀ b, s.mem.coeffRebuild = some b → s.codeP = true → MemoryCanonical s → Gives .coeffSetRebuilt s fun t =>
    t.mem.coeffSet = !b ∧ t.mem.coeffRebuild = none ∧ t.rx = { s.rx with cdDead := [] } ∧
    (∀ k, k < 2 ^ 17 → cellAt t 9 k = (if decide (2 ^ 16 ≤ k) = b then {} else
      { valid := true
        data := (Config.coefficient s.rx.cdApplied (k % 2 ^ 16)).setWidth 128 })) ∧
    (∀ h k, h ≠ 9 → k < 2 ^ 24 → cellAt t h k = cellAt s h k) ∧
    t = { s with rx := t.rx, mem := { s.mem with
      cells := t.mem.cells, coeffs := t.mem.coeffs, coeffSet := !b, coeffRebuild := none } })

/-- In every mode but RESET, MEMG_LAP_LIMIT takes the written value held to 100 to 1,000,000 and
raises SCRUB_LAP_LONG at once for a lap that has already run as long and has not raised it;
LOG_CLEAR empties the log table and clears LOG_OVERFLOW; a 1 to LOG_OVERFLOW clears it; CLEAR_LAPS
marks the next lap's time to be taken as both MIN and MAX (R450, R456, R460). In RESET none of
them does anything. Next states given here: MEMG_LAP_LIMIT_WRITE, MEMG_LOG_CLEAR,
MEMG_LOG_OVERFLOW_CLEAR, MEMG_CLEAR_LAPS. (15_memory_integrity.md) -/
def Obligations.MemoryGroupRegisters : Prop :=
  ∀ (g v : Nat) (w : Word) (s : State), g < 12 →
  (portsOpen s = true →
    (v = max 100 (min 1000000 (w.toNat % 2 ^ 20)) → exec (.memgLapLimitWrite g w) s =
      .next (lapWatchdog g (onGrp g (fun m => { m with lapLimit := BitVec.ofNat 20 v }) s))) ∧
    exec (.memgLogClear g) s =
      .next (onGrp g (fun m => { m with log := [], logOverflow := false }) s) ∧
    exec (.memgLogOverflowClear g) s = .next (onGrp g (fun m => { m with logOverflow := false }) s) ∧
    exec (.memgClearLaps g) s = .next (onGrp g (fun m => { m with clearLaps := true }) s)) ∧
  (s.pwr.mode = .reset → ∀ c ∈ [Instr.memgLapLimitWrite g w, .memgLogClear g,
    .memgLogOverflowClear g, .memgClearLaps g], exec c s = .next s)

/-- With its words in range, OP_CTR_CONFIG of a host counter without a pending configuration is
accepted and waits for its tick; for counters 56 to 63 it is refused ST_DENIED, and while one is
pending ST_BUSY (R471, R478, R482). Zilvy's own, on a core in service, configures counters 56 to
63 at privilege FIRMWARE, bit 1 of their privilege mask included (R471, R474), and no host counter
(DEDUCED, log entry 161). OP_CTR_SNAPSHOT and OP_BW_CONFIG are accepted and wait for their tick
and window end; a snapshot of no block or with a reserved bit is refused ST_BAD_PARAM. Nothing
else changes before the commit. A counter configured at USER privilege never has bit 1 of its
privilege mask set (R474). Next states given here: OP_CTR_CONFIG, OP_CTR_SNAPSHOT, OP_BW_CONFIG.
(16_counters.md) -/
def Obligations.CounterCommands : Prop :=
  ∀ (j k c : Nat) (ws : List Word) (job : Job) (s : State), tabWf {} s.pmu.pmc = true →
  (Taken 0x0A01 9 j job s → (job.param 0).toNat % 64 = k → onlyBits (job.param 0) 0x13F = true →
    onlyBits (job.param 1) 0x1E0FFF = true → eventOk ((job.param 1).extractLsb' 0 12) = true →
    onlyBits (job.param 2) 0x03FF3FFF = true → onlyBits (job.param 8) 0xFFFF = true →
    (k < 56 → (pmcAt s k).pending = none → exec (.opCtrConfig (.packet j)) s =
      .next (modJob j (fun x => { x with stage := .running }) (onPmc k (fun p => { p with
        pending := some (.packet j, bit (job.param 0) 8, pmcConfigOf job.priv job.param) }) s))) ∧
    (k < 56 → (pmcAt s k).pending ≠ none → exec (.opCtrConfig (.packet j)) s =
      .next (finish j stBusy (word (8 * 2 ^ 16)) [] s)) ∧
    (56 ≤ k → exec (.opCtrConfig (.packet j)) s =
      .next (finish j stDenied (word (8 * 2 ^ 16)) [] s))) ∧
  (ws.length = 9 → s.codeS = true → c < 4 → coreInService s c = true → (ws.getD 0 0).toNat % 64 = k →
    onlyBits (ws.getD 0 0) 0x13F = true → onlyBits (ws.getD 1 0) 0x1E0FFF = true →
    eventOk ((ws.getD 1 0).extractLsb' 0 12) = true → onlyBits (ws.getD 2 0) 0x03FF3FFF = true →
    onlyBits (ws.getD 8 0) 0xFFFF = true →
    (56 ≤ k → (pmcAt s k).pending = none → Gives (.opCtrConfig (.zilvy c ws)) s fun t =>
      (pmcAt t k).pending = some (.zilvy c, bit (ws.getD 0 0) 8, pmcConfigOf 2 fun i => ws.getD i 0) ∧
      (pmcConfigOf 2 fun i => ws.getD i 0).privMask = (ws.getD 2 0).extractLsb' 10 4 ∧
      t = { s with pmu := (onPmc k (fun p => { p with pending := (pmcAt t k).pending }) s).pmu
                   noted := t.noted }) ∧
    (k < 56 → Gives (.opCtrConfig (.zilvy c ws)) s fun t => t = { s with noted := t.noted })) ∧
  ((pmcConfigOf 0 job.param).privMask.getLsbD 1 = false) ∧
  (Taken 0x0A02 1 j job s →
    (job.param 0 ≠ 0 → onlyBits (job.param 0) 0x1FFFF = true → exec (.opCtrSnapshot j) s =
      .next (modJob j (fun x => { x with stage := .running }) (s.onPmu fun p => { p with
        snapJobs := p.snapJobs ++ [(j, (job.param 0).extractLsb' 0 17)] }))) ∧
    ((job.param 0 = 0 ∨ onlyBits (job.param 0) 0x1FFFF = false) → exec (.opCtrSnapshot j) s =
      .next (finish j stBadParam (word (7 * 2 ^ 16)) [] s))) ∧
  (Taken 0x0A03 2 j job s → onlyBits (job.param 0) 0xFFFFF = true →
    1 ≤ (job.param 0).toNat → (job.param 0).toNat ≤ 1000000 → onlyBits (job.param 1) 1 = true →
    exec (.opBwConfig j) s =
      .next (modJob j (fun x => { x with stage := .running }) (s.onPmu fun p => { p with
        bwPending := p.bwPending ++ [(j, (job.param 0).extractLsb' 0 20, bit (job.param 1) 0)] })))

/-- In the modes of code S a tick takes the 64 counters in ascending order: each adds the events
that pass its filters, those that the model's parts noted since the last tick, a stall for each
master that waits at a merge buffer (R452, R472; what it serves, log entry 160) and those the
command brings (the model's choice, log entry 152), wrapping past 2^48 - 1 as R475 states; after
that tick each waiting configuration commits (R471, R478). At a snapshot's instant every counter
of the named blocks has its shadow equal to its value, the other blocks' shadows stay, PMU_SNAP_TS
holds the period, and PMU_SNAP_OVF gains the named blocks of which a counter passed its limit in
its capture cycle (R469, R470; of counters that TIMESTAMP's clock does not count the command says
which: the model's choice, log entry 188). At a window's end, WINDOW us after its start, each
port's bytes and rate are latched, BW_SEQ rises by one and the next window starts (R480); a port
counts what the model's own parts carried and, but for the line's and the steal ring's, what the
command brings beside it (the model's choice, log entry 153). PMU_SNAP, PMU_VIEW and
PMU_SAMPLE_READ take the written fields outside RESET, an index beyond the unread range being
ignored (R483). Next states given here: PMC_TICK, SNAPSHOT_INSTANT, BW_WINDOW, PMU_SNAP_WRITE,
PMU_VIEW_WRITE, PMU_SAMPLE_READ_WRITE. (16_counters.md) -/
def Obligations.CountersTickAndLatch : Prop :=
  ∀ (k off : Nat) (w : Word) (events : List PmcEvent) (bytes : List Nat) (wrapped : BitVec 17)
    (s : State), CounterTablesCanonical s →
  (s.codeS = true → exec (.pmcTick events) s = .next ((List.range 64).foldl
    (fun s k => commitPmc k s) ((List.range 64).foldl
      (fun t k => countPmc (s.noted ++ stallEvents s ++ events) k t) { s with noted := [] }))) ∧
  ((∀ g, 2 ≤ g → g ≤ 6 → (mergeList g s).length ≤ 8) → stallEvents s = []) ∧
  (∀ v n : Nat, (counter s (0x40100 + 0x40 * k)).toNat = v →
    ((events.filter (passes (pmcAt s k).cfg)).map fun e => e.times).sum = n →
    (v + n < 2 ^ 48 →
      (counter (countPmc events k s) (0x40100 + 0x40 * k)).toNat = v + n ∧
      (∀ o, o ≠ 0x40100 + 0x40 * k → counter (countPmc events k s) o = counter s o) ∧
      (countPmc events k s).pmu = s.pmu) ∧
    (2 ^ 48 ≤ v + n → n ≤ 2 ^ 47 → v < 2 ^ 48 → (pmcAt s k).cfg.reload = false → k < 64 →
      (pmcAt s k).cfg.int = false → (pmcAt s k).cfg.sample = false →
      (counter (countPmc events k s) (0x40100 + 0x40 * k)).toNat = v + n - 2 ^ 48 ∧
      (countPmc events k s).pmu.overflow = s.pmu.overflow ||| (1#64 <<< k))) ∧
  (s.codeS = true → snapMask s.pmu ≠ 0 → s.pmu.snapJobs = [] → Gives (.snapshotInstant wrapped) s fun t =>
    t.pmu.snapTs = s.evt.period ∧ t.pmu.snapPending = 0 ∧
    t.pmu.snapOvf = (s.pmu.snapOvf ||| (overtaken wrapped s.evt &&& snapMask s.pmu)) ∧
    (∀ b, b < 17 → s.pmu.snapPending.getLsbD b = true → (blockSpan b).1 ≤ off →
      off < (blockSpan b).2 → tabGet 0 t.pmu.shadow off = counter s off) ∧
    ((∀ b, b < 17 → s.pmu.snapPending.getLsbD b = true →
        ¬ ((blockSpan b).1 ≤ off ∧ off < (blockSpan b).2)) →
      tabGet 0 t.pmu.shadow off = tabGet 0 s.pmu.shadow off) ∧
    t = { s with pmu := t.pmu, evt := t.evt }) ∧
  (s.codeS = true →
    ((s.evt.period - s.pmu.bwStart).toNat < s.pmu.window.toNat * 250 →
      exec (.bwWindow bytes) s = .next s) ∧
    (s.pmu.window.toNat * 250 ≤ (s.evt.period - s.pmu.bwStart).toNat →
      s.pmu.bwInt = false → s.pmu.bwPending = [] → ∀ b : Nat, k < 49 →
      b = tabGet 0 s.carried k + (if k = 35 then 4 * (messagesSent s.evt - s.pmu.bwMessages) else 0) +
        (if k = 32 ∨ k = 33 ∨ k = 36 then 0 else bytes.getD k 0) →
      Gives (.bwWindow bytes) s fun t =>
        counter t (0x44000 + 0x20 * k) = BitVec.ofNat 64 b ∧
        counter t (0x44008 + 0x20 * k) = BitVec.ofNat 64 (8 * b / s.pmu.window.toNat % 2 ^ 32) ∧
        t.pmu = { s.pmu with bwSeq := s.pmu.bwSeq + 1, bwMessages := messagesSent s.evt
                             bwStart := s.pmu.bwStart + BitVec.ofNat 64 (s.pmu.window.toNat * 250) } ∧
        t = { s with pmu := t.pmu, evt := t.evt, carried := [] })) ∧
  (portsOpen s = true →
    exec (.pmuSnapWrite w) s = .next (s.onPmu fun p => { p with
      snapPending := p.snapPending ||| w.extractLsb' 0 17 }) ∧
    exec (.pmuViewWrite w) s = .next (s.onPmu fun p => { p with view := w.extractLsb' 0 17 }) ∧
    ((w.extractLsb' 0 8 - s.pmu.sampleRead).toNat ≤ (s.pmu.sampleWrite - s.pmu.sampleRead).toNat →
      exec (.pmuSampleReadWrite w) s =
        .next (settleSamples (s.onPmu fun p => { p with sampleRead := w.extractLsb' 0 8 }))) ∧
    ((s.pmu.sampleWrite - s.pmu.sampleRead).toNat < (w.extractLsb' 0 8 - s.pmu.sampleRead).toNat →
      exec (.pmuSampleReadWrite w) s = .next s))

/-- A write TLP whose byte enables are not all set is ignored whole, and one of several words is
the single writes in ascending address order (R540); so is a write to any address or in any mode
that the table of R549 does not list ignored (R541, R549), while the device is closed under
BOOT_SEL 0b11 included (R495); address bits [1:0] play no part. Only its bytes are counted at port
34 while code S runs (R479; log entry 153). A write to a listed register acts as that register's
own command does: the ring registers, the interrupt groups, the event log, the PMU, the memory
groups, TIME_BASE_HI, DPLL_NCO_HI, MONADC_CTRL.START and TXDSP_OUTPUT; a ring's base takes its
half, bits [11:0] reserved, while the ring is disabled; TIME_BASE_LO and DPLL_NCO_LO take their
low words; MEMG_STATUS acts by its three bits; DEV_RESET_CAUSE, PMU_SNAP_OVF and PMU_OVERFLOW are
write 1 to clear; ICU_LOGMASK takes the bits of defined sources. Next states given here:
REGISTER_WRITE. (19_address_map.md) -/
def Obligations.HostWritesReachOnlyTheirRegisters : Prop :=
  ∀ (addr : BitVec 24) (w : Word) (ws : List Word) (es : List (BitVec 4)) (r n g : Nat) (s u : State),
    r < 4 → n < 25 → g < 12 → u = (if portsOpen s then carry 34 4 s else s) →
  (es ≠ List.replicate ws.length 0xF → exec (.registerWrite addr ws es) s =
    .next (if portsOpen s then carry 34 (4 * ws.length) s else s)) ∧
  (∀ v : State, v = (if portsOpen s then carry 34 (4 * (ws.length + 1)) s else s) →
    exec (.registerWrite addr (w :: ws) (List.replicate (ws.length + 1) 0xF)) s =
      .next (hostWriteWords ((addr.toNat / 4 * 4 + 4) % 2 ^ 24) ws
        (hostWrite (addr.toNat / 4 * 4) w v))) ∧
  (writableNow (addr.toNat / 4 * 4) s = false → exec (.registerWrite addr [w] [0xF]) s = .next u) ∧
  (∀ a : Nat, addr.toNat / 4 * 4 = a → portsOpen s = true → ∀ c,
    (a, c) ∈ [(0x1010C + 0x20 * r, Instr.sqDoorbell r w), (0x10108 + 0x20 * r, .sqEnableWrite r w),
      (0x10210 + 0x20 * r, .cqHeadWrite r w), (0x10208 + 0x20 * r, .cqEnableWrite r w),
      (0x21000 + 0x40 * n, .icuEnableWrite n w), (0x21004 + 0x40 * n, .icuEnableSet n w),
      (0x21008 + 0x40 * n, .icuEnableClr n w), (0x2100C + 0x40 * n, .icuPendingWrite n w),
      (0x21010 + 0x40 * n, .icuPendingSet n w), (0x21014 + 0x40 * n, .icuPendingClr n w),
      (0x21020 + 0x40 * n, .icuCfgWrite n w), (0x21028 + 0x40 * n, .icuCompleteWrite n w),
      (0x20010, .icuGpioModeWrite w), (0x30004, .evlogCtrlWrite w), (0x3000C, .evlogReadWrite w),
      (0x40004, .pmuSnapWrite w), (0x40008, .pmuViewWrite w), (0x40034, .pmuSampleReadWrite w),
      (0x51004 + 0x200 * g, .memgLapLimitWrite g w), (0x60018, .timeBaseHiWrite w),
      (0x70018, .dpllNcoHiWrite w), (0xA0004, .txdspOutputWrite w)] →
    exec (.registerWrite addr [w] [0xF]) s = exec c u) ∧
  (addr.toNat / 4 * 4 = 0x80004 → bit w 0 = true → portsOpen s = true →
    exec (.registerWrite addr [w] [0xF]) s = exec .monadcStartWrite u) ∧
  (s.codeS = true →
    (addr.toNat / 4 * 4 = 0x60014 → exec (.registerWrite addr [w] [0xF]) s =
      .next (u.onTim fun t => { t with baseLo := w })) ∧
    (addr.toNat / 4 * 4 = 0x70014 → exec (.registerWrite addr [w] [0xF]) s =
      .next (u.onDpll fun d => { d with ncoLo := w, ncoWritten := w }))) ∧
  (portsOpen s = true →
    (addr.toNat / 4 * 4 = 0x10100 + 0x20 * r → exec (.registerWrite addr [w] [0xF]) s =
      .next (onSq r (fun q => if q.enable then q else { q with
        base := (q.base.extractLsb' 32 32).append (w &&& 0xFFFFF000) }) u)) ∧
    (addr.toNat / 4 * 4 = 0x10104 + 0x20 * r → exec (.registerWrite addr [w] [0xF]) s =
      .next (onSq r (fun q => if q.enable then q else { q with
        base := w.append (q.base.extractLsb' 0 32) }) u)) ∧
    (addr.toNat / 4 * 4 = 0x10200 + 0x20 * r → exec (.registerWrite addr [w] [0xF]) s =
      .next (onCq r (fun q => if q.enable then q else { q with
        base := (q.base.extractLsb' 32 32).append (w &&& 0xFFFFF000) }) u)) ∧
    (addr.toNat / 4 * 4 = 0x10204 + 0x20 * r → exec (.registerWrite addr [w] [0xF]) s =
      .next (onCq r (fun q => if q.enable then q else { q with
        base := w.append (q.base.extractLsb' 0 32) }) u)) ∧
    (addr.toNat / 4 * 4 = 0x51000 + 0x200 * g → ∀ v x : State,
      v = (if bit w 8 then onGrp g (fun m => { m with logOverflow := false }) u else u) →
      x = (if bit w 9 then onGrp g (fun m => { m with log := [], logOverflow := false }) v else v) →
      exec (.registerWrite addr [w] [0xF]) s =
        .next (if bit w 10 then onGrp g (fun m => { m with clearLaps := true }) x else x)) ∧
    (addr.toNat / 4 * 4 = 0x08 → exec (.registerWrite addr [w] [0xF]) s = .next (u.onPwr fun p => { p with
      causePowerOn := p.causePowerOn && !bit w 0, causePin := p.causePin && !bit w 1
      causeSupply := p.causeSupply && !bit w 2, causeThermal := p.causeThermal && !bit w 3
      causeCommand := p.causeCommand && !bit w 4 })) ∧
    (addr.toNat / 4 * 4 = 0x4000C → exec (.registerWrite addr [w] [0xF]) s = .next (u.onPmu fun p =>
      { p with snapOvf := p.snapOvf &&& ~~~(w.extractLsb' 0 17) })) ∧
    (addr.toNat / 4 * 4 = 0x40020 → exec (.registerWrite addr [w] [0xF]) s = .next (u.onPmu fun p =>
      { p with overflow := p.overflow &&& ~~~((0 : Word).append w) })) ∧
    (addr.toNat / 4 * 4 = 0x40024 → exec (.registerWrite addr [w] [0xF]) s = .next (u.onPmu fun p =>
      { p with overflow := p.overflow &&& ~~~(w.append (0 : Word)) })) ∧
    (addr.toNat / 4 * 4 = 0x21034 + 0x40 * n → exec (.registerWrite addr [w] [0xF]) s =
      .next (u.onEvt (setGrp n fun x => { x with
        logmask := (w.extractLsb' 0 16 &&& BitVec.ofNat 16 (definedInGroup n)) |||
          (x.logmask &&& ~~~BitVec.ofNat 16 (definedInGroup n)) }))))

/-- A read of the first word of a pair or triple returns it and loads the reading master's latch
with the count's other words and its address; a later read of a high word returns the latched word
while the latch holds that count, and changes nothing but what is returned (R468). A read of
several words is the single reads in ascending address order (R540). A window read of an invalid
word returns 0, of a good word its half; of a poisoned word 0xFFFF_FFFF with EP set in the
completion, which is recorded, counted and raised, and of a closed window 0 (R369, R445, R446,
R545). The host's bytes are counted at port 35 and a window's at its memory's port (R479; log
entry 153). The I²C port answers at the target address 0b10011 with its two pins and at no other
(R534); it sets its address rounded down to a word, writes whole words, the address advancing by 4
after each and a last word cut short discarded, and reads the words it asks for from its address
on (R546). Next states given here: LOW_WORD_READ, I2C_WRITE, I2C_SET_ADDRESS, I2C_READ,
DIAG_WINDOW_READ. (16_counters.md, 19_address_map.md, 15_memory_integrity.md,
18_balls_electrical_package.md) -/
def Obligations.ReadsAndLatches : Prop :=
  ∀ (m a g cw half n : Nat) (addr : BitVec 24) (t' : BitVec 7) (b0 b1 b2 b3 : Byte) (bytes : List Byte)
    (s u : State), portsOpen s = true → addr.toNat / 4 * 4 = a →
    u = (if m = 0 then carry 35 4 s else s) →
  (readReaches s m a = true → windowAt a = none → headWords a ≠ 0 →
    exec (.lowWordRead m { addr := addr }) s = .next (u.onBus fun b => { b with
      readData := [(wordsFor m s a).getD 0 0], poisoned := false
      latch := tabSet {} b.latch m { addr := some a, words := (wordsFor m s a).drop 1 } })) ∧
  (∀ h i, readReaches s m a = true → windowAt a = none → headWords a = 0 →
    highOf a = some (h, i) → exec (.lowWordRead m { addr := addr }) s = .next (u.onBus fun b => { b with
      poisoned := false
      readData := [if (latchAt s m).addr = some h then (latchAt s m).words.getD (i - 1) 0
        else (wordsFor m s h).getD i 0] })) ∧
  (Gives (.lowWordRead m { addr := addr, words := n + 1 }) s fun t =>
    t.bus.readData.length = n + 1 ∧ t.bus.readData.head? = some (busRead m addr.toNat
      ((if m = 0 then carry 35 (4 * (n + 1)) s else s).onBus fun b => { b with poisoned := false })).1) ∧
  (readReaches s 0 a = true → windowAt a = some (g, cw, half) →
    (windowClosed s g = true → exec (.diagWindowRead addr) s =
      .next ((carry 35 4 s).onBus fun b => { b with readData := [0], poisoned := false })) ∧
    (windowClosed s g = false →
      ((cellAt s g cw).valid = false → exec (.diagWindowRead addr) s =
        .next ((touched g 1 (carry 35 4 s)).onBus fun b => { b with
          readData := [0], poisoned := false })) ∧
      ((cellAt s g cw).valid = true → (cellAt s g cw).poison = false → (cellAt s g cw).flips = 0 →
        exec (.diagWindowRead addr) s = .next ((touched g 1 (carry 35 4 s)).onBus fun b => { b with
          readData := [(cellAt s g cw).data.extractLsb' (32 * half) 32], poisoned := false })) ∧
      ((cellAt s g cw).valid = true → (cellAt s g cw).poison = true → Gives (.diagWindowRead addr) s
        fun t => t.bus.readData = [0xFFFFFFFF] ∧ t.bus.poisoned = true ∧
          t.mem.poisonRead = word (g + cw * 2 ^ 8) ∧ t.mem.cells = s.mem.cells ∧ t = { s with
            bus := { s.bus with readData := t.bus.readData, poisoned := true }
            mem := { s.mem with poisonRead := t.mem.poisonRead }, evt := t.evt
            carried := t.carried }))) ∧
  (i2cTarget s = (0b10011#5).append s.bus.i2cPins) ∧
  (t' ≠ i2cTarget s → exec (.i2cSetAddress { target := t', addr := addr }) s = .next s ∧
    exec (.i2cWrite { target := t', addr := addr } bytes) s = .next s ∧
    exec (.i2cRead { target := t', words := n }) s = .next s) ∧
  (t' = i2cTarget s →
    exec (.i2cSetAddress { target := t', addr := addr }) s =
      .next (s.onBus fun b => { b with i2cAddr := BitVec.ofNat 24 a }) ∧
    (bytes.length < 4 → exec (.i2cWrite { target := t', addr := addr } bytes) s =
      .next (s.onBus fun b => { b with i2cAddr := BitVec.ofNat 24 a })) ∧
    exec (.i2cWrite { target := t', addr := addr } [b0, b1, b2, b3]) s =
      .next ((i2cWord a (word (b0.toNat + 2 ^ 8 * b1.toNat + 2 ^ 16 * b2.toNat + 2 ^ 24 * b3.toNat))
        s).onBus fun b => { b with i2cAddr := BitVec.ofNat 24 (a + 4) }) ∧
    (portsOpen (i2cWord a (word (b0.toNat + 2 ^ 8 * b1.toNat + 2 ^ 16 * b2.toNat + 2 ^ 24 * b3.toNat))
        s) = true →
      i2cTarget (i2cWord a (word (b0.toNat + 2 ^ 8 * b1.toNat + 2 ^ 16 * b2.toNat + 2 ^ 24 * b3.toNat))
        s) = i2cTarget s →
      exec (.i2cWrite { target := t', addr := addr } (b0 :: b1 :: b2 :: b3 :: bytes)) s =
        exec (.i2cWrite { target := t', addr := BitVec.ofNat 24 (a + 4) } bytes)
          (i2cWord a (word (b0.toNat + 2 ^ 8 * b1.toNat + 2 ^ 16 * b2.toNat + 2 ^ 24 * b3.toNat)) s)) ∧
    (Gives (.i2cRead { target := t', words := n }) s fun t => t.bus.readData.length = n ∧
      t.bus.i2cAddr = s.bus.i2cAddr + BitVec.ofNat 24 (4 * n)) ∧
    exec (.i2cRead { target := t', words := 1 }) s =
      .next ((busRead 1 s.bus.i2cAddr.toNat s).2.onBus fun b => { b with
        readData := [(busRead 1 s.bus.i2cAddr.toNat s).1], poisoned := false
        i2cAddr := s.bus.i2cAddr + 4 }))

/-- OP_MON_SEQUENCE with 1 to 16 entries in range loads at once and completes while no pass runs,
results reading 0 and the window starting again, and otherwise waits for the next pass start;
OP_MON_TESTDAC takes its word; 10 us later the test DAC's voltage stands at input 37 and, with
INJECT, drives the AIN ball it names through 10 kOhm, against what stands outside (R359, R362,
R374; that inputs come with the command is the model's choice, log entry 187). In the modes of
code S a write of START with a sequence loaded starts a pass, makes one pending, or is counted as
merged (R358). A voltage input above its full scale converts to 4095, over range, one below ground
to 0, under range, and any other to the nearest step of 4096 over the full scale (R354, R355,
R360). A conversion ends when its s + 13 converter cycles have passed (R356): it writes the
entry's result with the over-range flags and whether the conversion before was over range, which
with S_CODE below 3 may change the code by at most 8, a free value (R361), and passes to the next
entry; the last entry ends the pass (R357). Next states given here: OP_MON_SEQUENCE,
OP_MON_TESTDAC, MONADC_START_WRITE, CONVERSION_END. (12_telemetry_and_skim.md) -/
def Obligations.TelemetryConverter : Prop :=
  ∀ (j n d : Nat) (job : Job) (x : Rat) (v : InputSource) (code : BitVec 12) (ov un : Bool) (e : MonEntry) (s : State),
  (Taken 0x0701 1 j job s → (job.param 0).toNat % 32 = n → (job.param 0).toNat / 2 ^ 8 % 16 = d →
    1 ≤ n → n ≤ 16 → d ≤ 8 → 1 + 2 * n ≤ job.params.length →
    (∀ i, i < n → monEntryBad (monEntryOf job i) = false) →
    (s.mon.pend = none → s.mon.running = false → exec (.opMonSequence j) s =
      .next (commitDone j [] (s.onMon fun m => { m with
        seq := (List.range n).map (monEntryOf job), log2 := d, pend := none
        result := [], dec := [], sums := [], fill := 0 }))) ∧
    (s.mon.pend = none → s.mon.running = true → exec (.opMonSequence j) s =
      .next (modJob j (fun x => { x with stage := .running }) (s.onMon fun m => { m with
        pend := some (j, (List.range n).map (monEntryOf job), d) }))) ∧
    (s.mon.pend ≠ none → exec (.opMonSequence j) s =
      .next (finish j stBusy (word (8 * 2 ^ 16)) [] s))) ∧
  (Taken 0x0702 1 j job s → exec (.opMonTestdac j) s =
    .next (commitDone j [] (s.onMon fun m => { m with
      testDac := job.param 0, dacSet := s.evt.period }))) ∧
  (s.codeS = true → s.mon.seq ≠ [] →
    (s.mon.running = false → s.mon.pend = none → exec .monadcStartWrite s =
      .next (s.onMon fun m => { m with
        running := true, passPending := false, active := 0
        overRange := m.overRange && !decide (250 ≤ (s.evt.period - s.mon.lastEnd).toNat)
        lastEnd := s.evt.period })) ∧
    (s.mon.running = true → s.mon.passPending = false → exec .monadcStartWrite s =
      .next (s.onMon fun m => { m with passPending := true })) ∧
    (s.mon.running = true → s.mon.passPending = true →
      exec .monadcStartWrite s = .next (statAdd 0x800D0 1 s))) ∧
  (8 ≤ e.input.toNat →
    (fullScale e < x → convert e x = (4095, true, false)) ∧
    (x < 0 → convert e x = (0, false, true)) ∧
    (0 ≤ x → x ≤ fullScale e →
      convert e x = (BitVec.ofInt 12 (clampInt 0 4095 (nearest (4096 * x / fullScale e))), false, false))) ∧
  (bit s.mon.testDac 10 = true → 2500 ≤ (s.evt.period - s.mon.dacSet).toNat →
    inputValue s 37 v = ((s.mon.testDac.toNat % 2 ^ 10 : Nat) : Rat) * (12 / 10) / 1024 + v.value ∧
    (∀ k, 20 ≤ k → k < 36 →
      (bit s.mon.testDac 16 = true → s.mon.testDac.toNat / 2 ^ 12 % 16 = k - 20 →
        (v.ohms = none → inputValue s k v = ((s.mon.testDac.toNat % 2 ^ 10 : Nat) : Rat) * (12 / 10) / 1024) ∧
        (∀ r, v.ohms = some r → inputValue s k v =
          (((s.mon.testDac.toNat % 2 ^ 10 : Nat) : Rat) * (12 / 10) / 1024 * r + v.value * 10000) /
            (r + 10000))) ∧
      ((bit s.mon.testDac 16 = false ∨ s.mon.testDac.toNat / 2 ^ 12 % 16 ≠ k - 20) →
        inputValue s k v = v.value))) ∧
  (s.codeS = true → s.mon.running = true → s.mon.seq[s.mon.active]? = some e →
    ((s.evt.period - s.mon.lastEnd).toNat < convPeriods e.sCode.toNat →
      exec (.conversionEnd s.mon.active e.input.toNat v) s = .next s) ∧
    (convPeriods e.sCode.toNat ≤ (s.evt.period - s.mon.lastEnd).toNat →
      convert e (inputValue s e.input.toNat v) = (code, ov, un) →
    ((s.mon.active + 1 < s.mon.seq.length ∨ s.mon.passPending = false) →
      Gives (.conversionEnd s.mon.active e.input.toNat v) s fun t =>
        (∃ c : BitVec 12, ((c.toNat : Int) - code.toNat).natAbs ≤ 8 ∧
          (s.mon.overRange = false ∨ 3 ≤ e.sCode.toNat ∨ ov = true ∨ un = true → c = code) ∧
          t.mon.result = tabSet 0 s.mon.result s.mon.active (word ((s.mon.tag + 1).toNat * 2 ^ 28 +
            e.input.toNat * 2 ^ 22 + 2 ^ 18 + b2n s.mon.overRange * 2 ^ 17 + b2n un * 2 ^ 16 +
            b2n ov * 2 ^ 15 + c.toNat))) ∧
        t.mon.overRange = (ov || un) ∧
        t.mon.lastEnd = s.mon.lastEnd + BitVec.ofNat 64 (convPeriods e.sCode.toNat) ∧
        (e.decimate = false → s.mon.active + 1 < s.mon.seq.length →
          t.mon.sums = s.mon.sums ∧ t.mon.dec = s.mon.dec) ∧
        (s.mon.active + 1 < s.mon.seq.length →
          t.mon.active = s.mon.active + 1 ∧ t.mon.running = true ∧ t.mon.tag = s.mon.tag) ∧
        (s.mon.active + 1 = s.mon.seq.length →
          t.mon.running = false ∧ t.mon.tag = s.mon.tag + 1) ∧
        t.mon.seq = s.mon.seq ∧ t.mon.testDac = s.mon.testDac ∧ t.mon.pend = s.mon.pend ∧
        t = { s with mon := t.mon, evt := t.evt, free := t.free }) ∧
    (s.mon.active + 1 = s.mon.seq.length → s.mon.passPending = true →
      Gives (.conversionEnd s.mon.active e.input.toNat v) s fun t =>
        t.mon.running = true ∧ t.mon.active = 0 ∧ t.mon.passPending = false ∧
        t.mon.tag = s.mon.tag + 1 ∧ t.mon.pend = none ∧
        t = { s with mon := t.mon, evt := t.evt, cmd := t.cmd, free := t.free, noted := t.noted })))

/-- OP_SKIM_CONFIG with DEC_CIC 5 to 12 and SHIFT up to 8 sets the tap outside a running capture,
where it is refused ST_BUSY, and requests a decimator reset; OP_SKIM_ARM with a non-zero mask
clears the buffer and arms the capture; OP_SKIM_TRIGGER triggers an armed capture whose mask has
bit 0 and completes in any case; OP_SKIM_SYNC waits for the reset it requests (R370 to R374).
SYNC_N_FALL in code P triggers by mask bit 4 and requests a reset; a cause while a reset is
pending is merged and counted. At a DECIMATOR_RESET, 64 cycles of the skim clock after its oldest
cause, counted as 26 TIMESTAMP periods or more (107.8 ns are 26.95; the model's counting, log
entry 145), and at a sample number that is a multiple of 256, the filters are cleared, the sample
and its time are recorded and the waiting commands complete (R372). A triggered capture whose POST
samples are written freezes (R370). Next states given here: OP_SKIM_CONFIG, OP_SKIM_ARM,
OP_SKIM_TRIGGER, OP_SKIM_SYNC, SKIM_FROZEN, SYNC_N_FALL, DECIMATOR_RESET.
(12_telemetry_and_skim.md) -/
def Obligations.SkimTapCommands : Prop :=
  ∀ (j : Nat) (w : Word) (job : Job) (sample : BitVec 64) (age : Nat) (who : Option Nat)
    (since : Quad) (rest : List (Option Nat × Quad)) (s : State),
  (Taken 0x0710 1 j job s → job.param 0 = w → 5 ≤ w.toNat / 2 ^ 4 % 16 → w.toNat / 2 ^ 4 % 16 ≤ 12 →
    w.toNat / 2 ^ 12 % 16 ≤ 8 →
    (s.skim.capture ≠ .armed → s.skim.capture ≠ .triggered → exec (.opSkimConfig j) s =
      .next (commitDone j [] (requestReset none (s.onSkim fun k => { k with
        corrected := bit w 0, c := w.toNat / 2 ^ 4 % 16, fir := w.toNat / 2 ^ 8 % 8
        shift := w.toNat / 2 ^ 12 % 16 })))) ∧
    ((s.skim.capture = .armed ∨ s.skim.capture = .triggered) → exec (.opSkimConfig j) s =
      .next (finish j stBusy (word (8 * 2 ^ 16)) [] s))) ∧
  (Taken 0x0711 2 j job s →
    ((job.param 0).toNat % 64 ≠ 0 → exec (.opSkimArm j) s =
      .next (commitDone j [] ((invalidate 10 s).onSkim fun k => { k with
        capture := .armed, wrapped := false, aborted := false, cause := 0
        mask := (job.param 0).extractLsb' 0 6, post := (job.param 1).toNat % 2 ^ 18
        left := 0, index := 0 }))) ∧
    ((job.param 0).toNat % 64 = 0 → exec (.opSkimArm j) s =
      .next (finish j stBadParam (word (7 * 2 ^ 16)) [] s))) ∧
  (Taken 0x0712 0 j job s →
    (s.skim.capture = .armed → s.skim.mask.getLsbD 0 = true → exec (.opSkimTrigger j) s =
      .next (commitDone j [] (raise 144 0 (s.onSkim fun k => { k with
        capture := .triggered, left := k.post, cause := 1, trigIndex := k.index
        trigTime := s.tim.counter })))) ∧
    ((s.skim.capture ≠ .armed ∨ s.skim.mask.getLsbD 0 = false) →
      exec (.opSkimTrigger j) s = .next (commitDone j [] s))) ∧
  (Taken 0x0713 0 j job s → exec (.opSkimSync j) s =
    .next (modJob j (fun x => { x with stage := .running })
      ((if s.skim.syncs = [] then s else statAdd 0x90058 1 s).onSkim fun k => { k with
        syncs := k.syncs ++ [(some j, s.evt.period)] }))) ∧
  (s.codeP = true → (s.skim.capture ≠ .armed ∨ s.skim.mask.getLsbD 4 = false) →
    (s.skim.syncs = [] → exec .syncNFall s =
      .next (s.onSkim fun k => { k with syncs := [(none, s.evt.period)] })) ∧
    (s.skim.syncs ≠ [] → exec .syncNFall s = .next ((statAdd 0x90058 1 s).onSkim fun k => { k with
      syncs := k.syncs ++ [(none, s.evt.period)] }))) ∧
  (s.codeP = true → s.skim.capture = .armed → s.skim.mask.getLsbD 4 = true →
    exec .syncNFall s = .next (requestReset none (raise 144 0 (s.onSkim fun k => { k with
      capture := .triggered, left := k.post, cause := 1#6 <<< 4, trigIndex := k.index
      trigTime := s.tim.counter })))) ∧
  (s.skim.syncs = [] → exec (.decimatorReset sample age) s = .next s) ∧
  (s.codeP = true → s.skim.syncs = (who, since) :: rest →
    ((s.evt.period - since).toNat < 26 ∨ sample.toNat % 256 ≠ 0) →
    exec (.decimatorReset sample age) s = .next s) ∧
  (s.codeP = true → s.skim.syncs = (who, since) :: rest → 26 ≤ (s.evt.period - since).toNat →
    sample.toNat % 256 = 0 → exec (.decimatorReset sample age) s =
    .next (((((who, since) :: rest).filterMap fun q => q.1).foldl (fun s j => commitDone j [] s))
      (raise 146 0 (statAdd 0x90050 1 (s.onSkim fun k => { k with
        lanes := [], syncs := [], syncSample := sample
        syncTime := sampleTime s age
        syncIndex := if capturing k then k.index else k.syncIndex }))))) ∧
  (s.skim.capture = .triggered → s.skim.left = 0 → exec .skimFrozen s =
    .next (raise 145 0 (s.onSkim fun k => { k with capture := .frozen })))

/-- In code P, the 2 x 2^DEC_CIC samples of one output interval, the ADC's codes or with CORRECTED
what stage V1 gives (R365), pass through each lane's decimators; a lane's output outside -128 to
127 is held, counted and raised at most once a second (R366 to R368; that the row brings the codes
and how words are rounded between the stages, logs 43 and 145). While the capture writes, the
index moves on by one modulo 262,144 and each lane's sample is written; otherwise the memory and
the capture stay (R369, R370). Next states given here: SKIM_SAT_EVENT. (12_telemetry_and_skim.md) -/
def Obligations.SkimSamples : Prop :=
  ∀ (xi xq yi yq : List Int) (codes : List FourCodes) (s : State), s.codeP = true →
  codes = fourCodes xi xq yi yq →
  (codes.length ≠ 2 * 2 ^ s.skim.c → exec (.skimSatEvent xi xq yi yq) s = .next s) ∧
  (s.skim.corrected = false → ∀ l, tapSamples s codes l = codes.map fun c => codeOn c l) ∧
  (codes.length = 2 * 2 ^ s.skim.c →
  let d := fun l => laneStep s.skim l (tapSamples s codes l)
  let sat := fun l (u : State) =>
    if -128 ≤ outputStage s.skim.shift (firOutput s.skim.fir (d l)) ∧
        outputStage s.skim.shift (firOutput s.skim.fir (d l)) ≤ 127 then u
    else raiseLimited (147 * 2 ^ 16 + l) 147 l (errAdd (0x90030 + 8 * l) 1 u)
  Gives (.skimSatEvent xi xq yi yq) s fun t =>
    t.skim.lanes = tabSet {} (tabSet {} (tabSet {} (tabSet {} s.skim.lanes 0 (d 0)) 1 (d 1))
      2 (d 2)) 3 (d 3) ∧
    t.skim.tail = (s.skim.tail ++ codes).drop ((s.skim.tail ++ codes).length - 128) ∧
    t.evt = (sat 3 (sat 2 (sat 1 (sat 0 s)))).evt ∧
    (capturing s.skim = false → t = { s with
      skim := { s.skim with lanes := t.skim.lanes, tail := t.skim.tail }, evt := t.evt }) ∧
    (capturing s.skim = true → t.skim.index = (s.skim.index + 1) % 262144 ∧
      t.skim.capture = s.skim.capture ∧ t.mem.grp = s.mem.grp ∧
      (∀ g a, (g ≠ 10 ∨ ∀ l, l < 4 → a ≠ l * 32768 + s.skim.index / 8) → a < 2 ^ 24 →
        MemoryCanonical s → s.skim.index < 262144 → cellAt t g a = cellAt s g a) ∧
      t = { s with skim := t.skim, evt := t.evt, mem := t.mem, carried := t.carried }))

/-- With every field in range, OP_TIME_CONFIG commits and completes at acceptance: the four
registers take its words without their reserved bits, a changed role starts the servo anew
(FOLLOWER in WAIT, another role OFF) with correction, integral, refused offsets and advice at
zero, the bandwidth limit is evaluated and in HOLD the correction follows the gain (R331, R334,
R336, R348). OP_TIME_SET and OP_TIME_STEP are accepted and wait: a set for its tick or pulse, a
step, or one by the advice, for its tick (R339, R340). OP_TIME_PULSE sets its PPSOUT's mode, OFF,
ONCE or PERIODIC, start in 25 ps steps, period and width: a ONCE instant already past is late, and
a PERIODIC series begins at its first instant that the counter has not passed (R344 to R346); the
output is in TIMED mode, an armed alignment of it stays armed (the model's reading, log 175), and
OFF drops the level at once (the model's reading, log 143). Time, period and width are checked in
every mode, OFF included (R348). A pulse-aligned set without captures, a nanoseconds field of 10^9
or more, a period outside 1,000 to 10^12 ns, a width outside 8 to 500,000,000 ns or beyond the
period less 8 ns, advice that is not valid, and a pulse without valid time are refused, and change
nothing else. Next states given here: OP_TIME_CONFIG, OP_TIME_SET, OP_TIME_STEP, OP_TIME_PULSE.
(11_time_and_transfer.md) -/
def Obligations.TimeCommands : Prop :=
  ∀ (j k v per wid : Nat) (m : PulseMode) (job : Job) (s : State),
  (Taken 0x0501 4 j job s →
    (fld (job.param 0) 31 30 ≠ 3 → 1 ≤ fld (job.param 0) 19 10 → fld (job.param 0) 19 10 ≤ 1000 →
      5 ≤ fld (job.param 0) 9 0 → fld (job.param 0) 9 0 ≤ 1000 →
      1 ≤ fld (job.param 1) 28 20 → fld (job.param 1) 28 20 ≤ 500 →
      8 ≤ fld (job.param 1) 19 0 → fld (job.param 1) 19 0 ≤ 1000000 →
      fld (job.param 2) 31 16 ≤ 50000 → fld (job.param 2) 15 0 ≤ 50000 →
      (signed 32 (job.param 3).toNat).natAbs ≤ 1000000 →
      2 * fld (job.param 0) 9 0 < 5 * fld (job.param 1) 19 0 →
      (bit (job.param 0) 25 = true → (candAt s (fld (job.param 0) 23 21)).pulse = true ∧
        (candAt s (fld (job.param 0) 23 21)).state ≠ .disabled) →
      exec (.opTimeConfig j) s = .next (commitDone j [] (settleServo (changeRole (role s)
        (s.onTim fun t => { t with
          config := job.param 0 &&& 0xFEEFFFFF, limits := job.param 1 &&& 0x1FFFFFFF
          planes := job.param 2, asym := job.param 3 }))))) ∧
    (fld (job.param 0) 31 30 = 3 → exec (.opTimeConfig j) s =
      .next (finish j stBadParam (word (7 * 2 ^ 16)) [] s))) ∧
  ((changeRole (role s) s = s) ∧
    (role s ≠ v → (changeRole v s).tim.servo = (if role s = 2 then .wait else .off) ∧
      (changeRole v s).tim.corr = 0 ∧ (changeRole v s).tim.integral = 0 ∧
      (changeRole v s).tim.refusedRun = [] ∧ (changeRole v s).tim.adviceValid = false ∧
      (changeRole v s).tim.counter = s.tim.counter) ∧
    (evalBw s).tim = { s.tim with bwClamped := decide (bwLimit s < servoBw s) } ∧
    (settleServo s).tim = { s.tim with
      bwClamped := decide (bwLimit s < servoBw s)
      corr := if s.tim.servo = .hold then clampRat (corrLimit s) (-(gainI s) * s.tim.integral)
        else s.tim.corr }) ∧
  (triple96 (job.param 1) (job.param 2) (job.param 3) = v →
    (Taken 0x0502 4 j job s →
      ((bit (job.param 0) 0 = true → captureEnabled s = true) → tripleNs v < 1000000000 →
        exec (.opTimeSet j) s = .next (modJob j (fun x => { x with stage := .running })
          (s.onTim fun t => { t with pendingSets := t.pendingSets ++
            [{ job := j, kind := 0, value := tripleTime v, atPulse := bit (job.param 0) 0
               since := s.evt.period }] }))) ∧
      (bit (job.param 0) 0 = true → captureEnabled s = false → exec (.opTimeSet j) s =
        .next (finish j stBadParam (word (7 * 2 ^ 16)) [] s)) ∧
      (bit (job.param 0) 0 = false → 1000000000 ≤ tripleNs v → exec (.opTimeSet j) s =
        .next (finish j stBadParam (word (7 * 2 ^ 16 + 2)) [] s))) ∧
    (Taken 0x0503 4 j job s →
      (bit (job.param 0) 0 = false → tripleNs v < 1000000000 →
        exec (.opTimeStep j) s = .next (modJob j (fun x => { x with stage := .running })
          (s.onTim fun t => { t with pendingSets := t.pendingSets ++
            [{ job := j, kind := 1, value := tripleSigned v, atPulse := false, since := s.evt.period }] }))) ∧
      (bit (job.param 0) 0 = true → s.tim.adviceValid = true →
        exec (.opTimeStep j) s = .next (modJob j (fun x => { x with stage := .running })
          (s.onTim fun t => { t with pendingSets := t.pendingSets ++
            [{ job := j, kind := 2, value := t.advice, atPulse := false, since := s.evt.period }] }))) ∧
      (bit (job.param 0) 0 = true → s.tim.adviceValid = false → exec (.opTimeStep j) s =
        .next (finish j stNotFound (word (8 * 2 ^ 16)) [] s))) ∧
    (Taken 0x0504 7 j job s → fld (job.param 0) 1 0 = k →
      pulseModeOf (fld (job.param 0) 5 4) = m →
      (job.param 4).toNat + fld (job.param 5) 7 0 * 2 ^ 32 = per → (job.param 6).toNat = wid →
      (fld (job.param 0) 5 4 ≠ 3 → (m ≠ .off → s.tim.valid = true) → tripleNs v < 1000000000 →
        1000 ≤ per → per ≤ 1000000000000 → 8 ≤ wid → wid ≤ 500000000 → wid + 8 ≤ per →
        Gives (.opTimePulse j) s fun t =>
          (m = .off → pulseAt t k = {
            mode := .off, start := steps25 (tripleTime v), period := per, width := wid
            next := steps25 (tripleTime v), late := none, high := none, fired := false
            edge := (pulseAt s k).edge }) ∧
          (m = .once → pulseAt t k = {
            mode := .once, start := steps25 (tripleTime v), period := per, width := wid
            next := steps25 (tripleTime v)
            late := if s.tim.counter * 40 < steps25 (tripleTime v) * 2 ^ 32 then none
              else some s.evt.period
            high := (pulseAt s k).high, fired := false, edge := (pulseAt s k).edge }) ∧
          (m = .periodic → ∃ n, pulseAt t k = {
              mode := .periodic, start := steps25 (tripleTime v), period := per, width := wid
              next := steps25 (tripleTime v) + n * per * 40, late := none
              high := (pulseAt s k).high, fired := false, edge := (pulseAt s k).edge } ∧
            s.tim.counter * 40 ≤ (steps25 (tripleTime v) + n * per * 40) * 2 ^ 32 ∧
            (0 < n → (steps25 (tripleTime v) + (n - 1) * per * 40) * 2 ^ 32 < s.tim.counter * 40)) ∧
          (∀ l, l ≠ k → pulseAt t l = pulseAt s l) ∧
          outAt t (4 + k) = { outAt s (4 + k) with
            timed := true, armed := (outAt s (4 + k)).armed.map fun a => { a with timed := true } } ∧
          Ended j stOk true [] t ∧
          t = { s with tim := { s.tim with pulse := t.tim.pulse }
                       dpll := { s.dpll with out := t.dpll.out }, cmd := t.cmd, noted := t.noted }) ∧
      (fld (job.param 0) 5 4 = 3 ∨ (m ≠ .off ∧ s.tim.valid = false) → exec (.opTimePulse j) s =
        .next (finish j stBadParam (word (7 * 2 ^ 16)) [] s)) ∧
      (fld (job.param 0) 5 4 ≠ 3 → (m ≠ .off → s.tim.valid = true) →
        (1000000000 ≤ tripleNs v → exec (.opTimePulse j) s =
          .next (finish j stBadParam (word (7 * 2 ^ 16 + 2)) [] s)) ∧
        (tripleNs v < 1000000000 → (per < 1000 ∨ 1000000000000 < per) → exec (.opTimePulse j) s =
          .next (finish j stBadParam (word (7 * 2 ^ 16 + 4)) [] s)) ∧
        (tripleNs v < 1000000000 → 1000 ≤ per → per ≤ 1000000000000 →
          (wid < 8 ∨ 500000000 < wid ∨ per < wid + 8) → exec (.opTimePulse j) s =
          .next (finish j stBadParam (word (7 * 2 ^ 16 + 6)) [] s)))))

/-- In the modes of code S a tick adds BASE, and in FOLLOWER the rounded correction, to the
counter modulo 2^48 seconds, and TIMESTAMP counts one period; a written BASE pair is applied
first, held within 500 ppm of 4 ns (R322, R323, R430). The increment that a tick adds, while it
stays the same, runs on one course; a tick also counts the running pulse widths down. A set that
waits for the tick gives the counter its value whatever the tick added, and a step adds its signed
value; the command completes ST_OK with no result words for a set and the signed triple of the
step, time is valid, and a LOCKED servo falls to TRACKING (R333, R339, R340). A pulse of the
capture REFIN records the captured time, and a pulse-aligned set that waits then commits: the
counter reads the value at the instant of the pulse, the command ends ST_OK, time is valid, and
the pulse is captured at that value (R339, R341); one that meets no pulse within 2 s ends
ST_TIMEOUT and changes nothing. The courses of the counter are the model's record of it (R327, log
126). Next states given here: TIME_SET_PULSE_TIMEOUT, TIME_TICK, TIME_BASE_HI_WRITE, REFIN_PULSE.
(11_time_and_transfer.md) -/
def Obligations.TimeCounterTicks : Prop :=
  ∀ (i sub : Nat) (w : Word) (p : PendingSet) (x : Job) (s : State),
  (s.codeS = true → s.tim.pendingSets = [] → Gives .timeTick s fun t =>
    t.tim.counter =
      ((s.tim.counter + (t.tim.base + (if role s = 2 then corrUnits s.tim.corr else 0) : Int)) %
        (timeModulus : Int)).toNat ∧
    (s.tim.basePending = false → t.tim.base = s.tim.base ∧ t.tim.baseLo = s.tim.baseLo ∧
      t.tim.baseHi = s.tim.baseHi) ∧
    (s.tim.basePending = true →
      t.tim.base = clampBase (s.tim.baseHi.toNat * 2 ^ 32 + s.tim.baseLo.toNat) ∧
      t.tim.baseHi.toNat * 2 ^ 32 + t.tim.baseLo.toNat = t.tim.base ∧
      17171279250 ≤ t.tim.base ∧ t.tim.base ≤ 17188459118) ∧
    (∀ c cs, s.tim.courses = c :: cs → c.inc = increment t → t.tim.courses = s.tim.courses) ∧
    ((∀ c cs, s.tim.courses = c :: cs → c.inc ≠ increment t) → t.tim.courses =
      ({ since := s.evt.period, value := s.tim.counter, inc := increment t } ::
        s.tim.courses).take 64) ∧
    t.tim = { s.tim with
      counter := t.tim.counter, before := s.tim.counter, courses := t.tim.courses
      base := t.tim.base, baseLo := t.tim.baseLo, baseHi := t.tim.baseHi, basePending := false
      pulse := tabMap {} (fun x => { x with high := x.high.map fun n => n - 1 }) s.tim.pulse } ∧
    t.evt = { s.evt with period := s.evt.period + 1 } ∧
    t = { s with tim := t.tim, evt := t.evt }) ∧
  (s.codeS = true → exec (.timeBaseHiWrite w) s = .next (s.onTim fun t => { t with
    baseHi := w.extractLsb' 0 8, basePending := true })) ∧
  (s.codeS = true → s.tim.pendingSets = [p] → p.atPulse = false →
    findJob p.job s = some x → x.stage ≠ .decided → Gives .timeTick s fun t =>
      (p.kind = 0 → t.tim.counter = (p.value % (timeModulus : Int)).toNat ∧
        Ended p.job stOk true [] t) ∧
      (p.kind ≠ 0 → s.tim.basePending = false → t.tim.counter =
        (((((s.tim.counter + (s.tim.base + (if role s = 2 then corrUnits s.tim.corr else 0) : Int)) %
          (timeModulus : Int)).toNat : Int) + p.value) % (timeModulus : Int)).toNat ∧
        Ended p.job stOk true (signedTripleWords p.value) t) ∧
      t.tim.valid = true ∧ t.tim.pendingSets = [] ∧ t.tim.adviceValid = false ∧
      t.tim.servo = (if s.tim.servo = .locked then .tracking else s.tim.servo) ∧
      t = { s with tim := t.tim, evt := t.evt, cmd := t.cmd, dpll := t.dpll, noted := t.noted }) ∧
  (s.codeS = true → i < 8 → (candAt s i).pulse = true → (candAt s i).state ≠ .disabled →
    Gives (.refinPulse i sub) s fun t =>
      (captureEnabled s = true → captureRefin s = i → s.tim.pendingSets = [] →
        t.tim.cap = (s.tim.counter + sub * 2 ^ 32 / 40) % timeModulus ∧ t.tim.captured = true ∧
        t.tim.counter = s.tim.counter) ∧
      (captureEnabled s = true → captureRefin s = i → s.tim.pendingSets = [p] → p.atPulse = true →
        p.kind = 0 → findJob p.job s = some x → x.stage ≠ .decided →
        t.tim.counter = ((p.value - sub * 2 ^ 32 / 40) % (timeModulus : Int)).toNat ∧
        t.tim.cap = (t.tim.counter + sub * 2 ^ 32 / 40) % timeModulus ∧ t.tim.captured = true ∧
        t.tim.valid = true ∧ t.tim.pendingSets = [] ∧ t.tim.adviceValid = false ∧
        t.tim.servo = (if s.tim.servo = .locked then .tracking else s.tim.servo) ∧
        Ended p.job stOk true [] t) ∧
      (captureEnabled s = false ∨ captureRefin s ≠ i → t.tim.cap = s.tim.cap ∧
        t.tim.counter = s.tim.counter ∧ t.tim.pendingSets = s.tim.pendingSets) ∧
      t.pwr = s.pwr ∧ t.frm = s.frm ∧ t.tx = s.tx ∧ t.rx = s.rx ∧ t.cry = s.cry ∧ t.mem = s.mem) ∧
  (s.tim.pendingSets = [p] → p.atPulse = true → findJob p.job s = some x → x.stage ≠ .decided →
    x.committed = false →
    ((s.evt.period - p.since).toNat < 500000000 → exec .timeSetPulseTimeout s = .next s) ∧
    (500000000 ≤ (s.evt.period - p.since).toNat → Gives .timeSetPulseTimeout s fun t =>
      Ended p.job stTimeout false [] t ∧ t.tim = { s.tim with pendingSets := [] } ∧
      t = { s with tim := t.tim, cmd := t.cmd, noted := t.noted })) ∧
  ((s.tim.pendingSets.find? fun p => p.atPulse) = none →
    exec .timeSetPulseTimeout s = .next s)

/-- A pulse output whose instant the counter has reached, or whose instant was late a tick before,
goes high for its width in whole 4 ns ticks; a PERIODIC one is armed for one period later, and an
instant that was late raises PULSE_LATE (R345, R346). A late pulse rises at the tick, any other
within the tick that passed its instant. The output falls when its ticks have elapsed; a ONCE
output then turns OFF and raises PULSE_DONE, and until then it does not rise again. Before its
instant, and while OFF, nothing happens. That the ticks of a width are (width + 3) / 4, rounded up
to whole ticks, is the model's reading (log 89); so is the edge of a late pulse at the tick, and
of any other in 25 ps steps of root time (log 143). Next states given here: PULSE_INSTANT,
PULSE_WIDTH_END. (11_time_and_transfer.md) -/
def Obligations.TimedPulses : Prop :=
  ∀ (k : Nat) (s : State),
  (s.codeS = true → (pulseAt s k).mode ≠ .off →
    (∀ p, (pulseAt s k).late = some p → 1 ≤ (s.evt.period - p).toNat) →
    ((pulseAt s k).late = none → (pulseAt s k).fired = false ∧
      (pulseAt s k).next * 2 ^ 32 ≤ s.tim.counter * 40) →
    Gives (.pulseInstant k) s fun t =>
      ((pulseAt s k).mode = .once → pulseAt t k = { pulseAt s k with
        late := none, high := some (((pulseAt s k).width + 3) / 4), fired := true
        edge := some (edgeTime s (pulseAt s k)) }) ∧
      ((pulseAt s k).mode = .periodic → pulseAt t k = { pulseAt s k with
        next := (pulseAt s k).next + (pulseAt s k).period * 40, late := none
        high := some (((pulseAt s k).width + 3) / 4), fired := false
        edge := some (edgeTime s (pulseAt s k)) }) ∧
      t.evt = (if (pulseAt s k).late.isSome then raise 104 k s else s).evt ∧
      (∀ l, l ≠ k → pulseAt t l = pulseAt s l) ∧
      t = { s with tim := { s.tim with pulse := t.tim.pulse }, evt := t.evt }) ∧
  ((pulseAt s k).late.isSome = true → edgeTime s (pulseAt s k) = s.evt.period.toNat * 160) ∧
  ((pulseAt s k).late = none →
    (s.evt.period.toNat - 1) * 160 ≤ edgeTime s (pulseAt s k) ∧
    edgeTime s (pulseAt s k) ≤ (s.evt.period.toNat - 1) * 160 + 160) ∧
  ((pulseAt s k).mode = .off → exec (.pulseInstant k) s = .next s) ∧
  ((pulseAt s k).late = none → (s.tim.counter * 40 < (pulseAt s k).next * 2 ^ 32 ∨
      (pulseAt s k).fired = true) → exec (.pulseInstant k) s = .next s) ∧
  ((pulseAt s k).late = some s.evt.period → exec (.pulseInstant k) s = .next s) ∧
  ((pulseAt s k).high = some 0 →
    ((pulseAt s k).fired = true → exec (.pulseWidthEnd k) s = .next (raise 103 k
      (onPulse k (fun p => { p with mode := .off, high := none, fired := false }) s))) ∧
    ((pulseAt s k).fired = false → exec (.pulseWidthEnd k) s =
      .next (onPulse k (fun p => { p with high := none }) s))) ∧
  ((pulseAt s k).high ≠ some 0 → exec (.pulseWidthEnd k) s = .next s)

/-- Once INTERVAL frames have been received, the interval's end reports the mean offset and path
delay of the usable measurements of those frames, or keeps the last ones with MEASURING 0, and
starts the next interval with the frames beyond it (R332); outside FOLLOWER the servo does
nothing. In FOLLOWER an interval that yields an offset within JUMP_THRESHOLD of zero, time being
valid, is accepted: the refusals end and the servo leaves WAIT and HOLD; LOCKED is lost beyond
four times LOCK_LIMIT and reached at the sixteenth offset in a row within it (R333, R337). Any
other offset is refused and counted, and LOCKED falls to TRACKING; 64 intervals in a row without
an accepted offset lead from TRACKING or LOCKED to HOLD (R333). At the end of every interval of
WAIT, one that yields no offset included, c moves by half the slope of the offsets, held within
CORR_LIMIT (R335); the slope is that of the offsets after the interval's last set, step or change
of D_RX (the model's reading, log 176), by least squares over the frame index times the nominal
frame period (log 142). Next states given here: SERVO_INTERVAL_END. (11_time_and_transfer.md) -/
def Obligations.ServoIntervals : Prop :=
  ∀ (th : Rat) (us : List Meas) (s : State),
  (s.codeS = true → intervalFrames s ≤ s.tim.frames → role s ≠ 2 →
    exec (.servoIntervalEnd (intervalFrames s)) s = .next (reportInterval s)) ∧
  (s.codeS = true → intervalFrames s ≤ s.tim.frames → role s = 2 →
    exec (.servoIntervalEnd (intervalFrames s)) s = .next (servoStep
      (s.tim.usable.filter fun u => u.far && decide (u.index < intervalFrames s)) s.tim.spoiled
      (reportInterval s))) ∧
  (s.tim.frames < intervalFrames s → exec (.servoIntervalEnd (intervalFrames s)) s = .next s) ∧
  ((s.tim.usable.filter fun u => decide (u.index < intervalFrames s)) = us →
    (reportInterval s).tim = { s.tim with
      offset := if us = [] then s.tim.offset else psSigned (mean (us.map fun u => u.offset))
      pathDelay := if us = [] then s.tim.pathDelay else psWord (mean (us.map fun u => u.delay))
      measuring := decide (us ≠ []), frames := s.tim.frames - intervalFrames s
      usable := (s.tim.usable.filter fun u => decide (intervalFrames s ≤ u.index)).map fun u =>
        { u with index := u.index - intervalFrames s }
      spoiled := false }) ∧
  (us ≠ [] → mean (us.map fun u => u.offset) = th → s.tim.valid = true →
    absRat th ≤ jumpThreshold s → s.tim.servo ≠ .off →
    (servoStep us false s).tim.servo =
      (if s.tim.servo = .locked then
        (if 4 * lockLimit s < absRat th then .tracking else .locked)
      else if s.tim.servo = .tracking ∧ absRat th ≤ lockLimit s ∧ 15 ≤ s.tim.goodRun then .locked
      else .tracking) ∧
    (servoStep us false s).tim.refusing = false ∧
    (servoStep us false s).tim.refusedRun = [] ∧
    (servoStep us false s).tim.emptyRun = 0 ∧
    (servoStep us false s).tim.counter = s.tim.counter) ∧
  (us ≠ [] → mean (us.map fun u => u.offset) = th →
    (s.tim.valid = false ∨ jumpThreshold s < absRat th) →
    s.tim.servo = .locked → s.tim.emptyRun < 63 →
    (servoStep us false s).tim.servo = .tracking ∧
    (servoStep us false s).tim.refusing = true ∧
    (servoStep us false s).tim.refusedRun = (th :: s.tim.refusedRun).take 8 ∧
    (servoStep us false s).tim.goodRun = 0) ∧
  ((us = [] ∨ s.tim.spoiled = true) →
    servoStep us s.tim.spoiled s = emptyInterval (preAcquire us s) ∧
    (emptyInterval s).tim.servo = (if (s.tim.servo = .tracking ∨ s.tim.servo = .locked) ∧
      63 ≤ s.tim.emptyRun then .hold else s.tim.servo)) ∧
  (s.tim.servo = .wait → preAcquire us s = s.onTim fun t => { t with
    corr := clampRat (corrLimit s) (t.corr -
      slopeOf ((us.filter fun u => u.fresh).map fun u =>
        ((u.index : Rat) * framePeriodNs s, u.offset)) / 2) }) ∧
  (s.tim.servo ≠ .wait → preAcquire us s = s) ∧
  (-2147483648 ≤ openRound (th * 1000) → openRound (th * 1000) ≤ 2147483647 →
    psSigned th = psWord th) ∧
  (2147483647 < openRound (th * 1000) → psSigned th = 0x7FFFFFFF) ∧
  (openRound (th * 1000) < -2147483648 → psSigned th = 0x80000000)

/-- With every field in range each commits and completes at acceptance and writes exactly its
settings: a candidate's, of either type and any number up to 25, which restarts in FAILED unless
the priority alone changed, or a REFIN's DISABLED state; the selection mode, manual candidate,
revertive flag and WTR; the bandwidths, damping codes and limits; an output's settings, which
relock it where its frequency, F_DIV or mode changes (R296 to R298, R311 to R313, R317). A
configuration that would disable the current input or the target of a switch, or change its type
or nominal frequency, or would disable the REFIN to which captures are bound or change its type,
is refused ST_BUSY (R317). A value out of range is refused ST_BAD_PARAM with its word. An output
named with an alignment is armed and completes at the aligning pulse; while one is armed another
is refused ST_BUSY, and a FAILED or DISABLED candidate ends it ST_TIMEOUT with ALIGN_FAIL (R314,
R315). A relock holds the output low for at most 50 us; where in that time it ends, and where an
output begins that has run none, are free values (log 179). Next states given here:
OP_DPLL_REF_CONFIG, OP_DPLL_SELECT, OP_DPLL_LOOP, OP_DPLL_OUTPUT. (10_references_and_dpll.md) -/
def Obligations.DpllCommands : Prop :=
  ∀ (j i o : Nat) (change : Bool) (ok : List Bool) (n : Cand) (job : Job) (s : State),
  (Taken 0x0601 4 j job s → fld (job.param 0) 4 0 = i →
    change = (decide ((candAt s i).state ≠ .disabled) && decide (i < 8) &&
      (decide ((candAt s i).pulse ≠ bit (job.param 0) 8) ||
        decide ((candAt s i).nominal ≠ job.param 1))) →
    (bit (job.param 0) 9 = true → i < 8 →
      (s.dpll.current ≠ some i → s.dpll.target ≠ some i → captureBound s i = false →
        exec (.opDpllRefConfig j) s = .next (commitDone j [] (onCand i (fun c => { c with
          state := .disabled, valid := false, activityOk := false, freqOk := false, read := false
          pulseAt := none, gaps := [] }) s))) ∧
      (s.dpll.current = some i ∨ s.dpll.target = some i ∨ captureBound s i = true →
        exec (.opDpllRefConfig j) s = .next (finish j stBusy (word (8 * 2 ^ 16)) [] s))) ∧
    (bit (job.param 0) 9 = false → i ≤ 25 → (8 ≤ i → bit (job.param 0) 8 = false) →
      (i < 8 → if bit (job.param 0) 8 = true then (job.param 1).toNat = 1
        else 1000 ≤ (job.param 1).toNat ∧ (job.param 1).toNat ≤ 800000000) →
      1 ≤ fld (job.param 2) 15 0 → fld (job.param 2) 15 0 ≤ 5000 →
      fld (job.param 2) 31 16 ≤ 5000 → fld (job.param 2) 15 0 < fld (job.param 2) 31 16 →
      fld (job.param 3) 15 0 ≤ 600 → 1 ≤ fld (job.param 3) 31 16 →
      fld (job.param 3) 31 16 ≤ 10000 →
      n = { candAt s i with
        pulse := decide (i < 8) && bit (job.param 0) 8
        nominal := if i < 8 then job.param 1 else (candAt s i).nominal
        priority := if i < 24 then (job.param 0).extractLsb' 12 4 else (candAt s i).priority
        accept := (job.param 2).extractLsb' 0 16, reject := (job.param 2).extractLsb' 16 16
        qualTime := (job.param 3).extractLsb' 0 16, window := (job.param 3).extractLsb' 16 16
        valid := decide (i < 8) || (candAt s i).valid } →
      ((change = true → s.dpll.current ≠ some i ∧ s.dpll.target ≠ some i) →
        (i < 8 → (candAt s i).pulse ≠ bit (job.param 0) 8 → captureBound s i = false) →
        exec (.opDpllRefConfig j) s = .next (commitDone j []
          (if { n with priority := (candAt s i).priority } = candAt s i then onCand i (fun _ => n) s
           else failCand i (onCand i (fun _ => { n with
             activityOk := false, pulseAt := none, gaps := []
             read := (candAt s i).read && !change }) s)))) ∧
      ((change = true ∧ (s.dpll.current = some i ∨ s.dpll.target = some i)) ∨
        (i < 8 ∧ (candAt s i).pulse ≠ bit (job.param 0) 8 ∧ captureBound s i = true) →
        exec (.opDpllRefConfig j) s = .next (finish j stBusy (word (8 * 2 ^ 16)) [] s))) ∧
    (25 < i ∨ (8 ≤ i ∧ (bit (job.param 0) 8 = true ∨ bit (job.param 0) 9 = true)) →
      exec (.opDpllRefConfig j) s = .next (finish j stBadParam (word (7 * 2 ^ 16)) [] s)) ∧
    (bit (job.param 0) 9 = false → i ≤ 25 → (8 ≤ i → bit (job.param 0) 8 = false) →
      ok = [true,
        decide (8 ≤ i) || (if bit (job.param 0) 8 then decide ((job.param 1).toNat = 1)
          else decide (1000 ≤ (job.param 1).toNat ∧ (job.param 1).toNat ≤ 800000000)),
        decide (1 ≤ fld (job.param 2) 15 0 ∧ fld (job.param 2) 15 0 ≤ 5000 ∧
          fld (job.param 2) 31 16 ≤ 5000 ∧ fld (job.param 2) 15 0 < fld (job.param 2) 31 16),
        decide (fld (job.param 3) 15 0 ≤ 600 ∧ 1 ≤ fld (job.param 3) 31 16 ∧
          fld (job.param 3) 31 16 ≤ 10000)] →
      ok.contains false = true → exec (.opDpllRefConfig j) s =
        .next (finish j stBadParam (word (7 * 2 ^ 16 + ok.idxOf false)) [] s))) ∧
  (Taken 0x0602 2 j job s →
    ok = [!(decide (fld (job.param 0) 1 0 = 1) && (decide (25 < fld (job.param 0) 12 8) ||
        (decide (fld (job.param 0) 12 8 < 8) &&
          decide ((candAt s (fld (job.param 0) 12 8)).state = .disabled)))),
      decide ((job.param 1).toNat ≤ 3600)] →
    (ok.contains false = false →
      exec (.opDpllSelect j) s = .next (commitDone j [] (s.onDpll fun d => { d with
        mode := selModeOf (fld (job.param 0) 1 0), revertive := bit (job.param 0) 2
        manual := (job.param 0).extractLsb' 8 5, wtr := job.param 1, commanded := true }))) ∧
    (ok.contains false = true → exec (.opDpllSelect j) s =
      .next (finish j stBadParam (word (7 * 2 ^ 16 + ok.idxOf false)) [] s))) ∧
  (Taken 0x0603 6 j job s →
    ok = [decide (1 ≤ fld (job.param 0) 6 0 ∧ fld (job.param 0) 6 0 ≤ 100),
      decide (1 ≤ fld (job.param 1) 9 0 ∧ fld (job.param 1) 9 0 ≤ 1000),
      decide (1 ≤ fld (job.param 2) 9 0 ∧ fld (job.param 2) 9 0 ≤ 1000),
      decide (1 ≤ fld (job.param 3) 8 0 ∧ fld (job.param 3) 8 0 ≤ 400),
      decide (1 ≤ fld (job.param 4) 15 0 ∧ fld (job.param 4) 15 0 ≤ 1000 ∧
        1 ≤ fld (job.param 4) 31 16 ∧ fld (job.param 4) 31 16 ≤ 10000),
      decide (60 ≤ fld (job.param 5) 15 0 ∧ fld (job.param 5) 15 0 ≤ 10000 ∧
        fld (job.param 5) 19 16 ≤ 10)] →
    (ok.contains false = false →
      exec (.opDpllLoop j) s = .next (commitDone j [] (s.onDpll fun d => { d with
        pulseBw := (job.param 0).extractLsb' 0 7, pulseDamp := (job.param 0).extractLsb' 16 2
        freqBw := (job.param 1).extractLsb' 0 10, freqDamp := (job.param 1).extractLsb' 16 2
        timeBw := (job.param 2).extractLsb' 0 10, timeDamp := (job.param 2).extractLsb' 16 2
        lineBw := (job.param 3).extractLsb' 0 9, lineDamp := (job.param 3).extractLsb' 16 2
        disagreeLimit := (job.param 4).extractLsb' 0 16, slew := (job.param 4).extractLsb' 16 16
        holdTau := (job.param 5).extractLsb' 0 16
        holdGuard := (job.param 5).extractLsb' 16 4 }))) ∧
    (ok.contains false = true → exec (.opDpllLoop j) s =
      .next (finish j stBadParam (word (7 * 2 ^ 16 + ok.idxOf false)) [] s))) ∧
  (∀ off : Int, Taken 0x0604 5 j job s → fld (job.param 0) 2 0 = o → fld (job.param 0) 15 11 = i →
    off = signed 37 ((job.param 3).toNat + fld (job.param 4) 4 0 * 2 ^ 32) →
    ok = [!bit (job.param 0) 10 || (decide (i < 8) && (candAt s i).pulse),
      if 4 ≤ o then decide (1 ≤ (job.param 1).toNat ∧ (job.param 1).toNat ≤ 500000)
        else decide (1000 ≤ (job.param 1).toNat ∧ (job.param 1).toNat ≤ 800000000),
      decide (4 ≤ o) || !bit (job.param 0) 9 ||
        decide (2 ≤ (job.param 2).toNat ∧ (job.param 2).toNat ≤ 16777216),
      !bit (job.param 0) 10 || decide (off.natAbs ≤ 40000000000)] →
    (∀ q : OutSet, ok.contains false = false → q = (if 4 ≤ o then
        { enable := bit (job.param 0) 8, frame := false, freq := 0, fdiv := 0, width := job.param 1 }
        else { enable := bit (job.param 0) 8, frame := bit (job.param 0) 9, freq := job.param 1
               fdiv := job.param 2, width := 100 }) →
      (bit (job.param 0) 10 = false → exec (.opDpllOutput j) s =
        .next (commitDone j [] (toAligned o (putOut o q s)))) ∧
      (bit (job.param 0) 10 = true → (outAt s o).armed = none → (candAt s i).state ≠ .failed →
        (candAt s i).state ≠ .disabled → exec (.opDpllOutput j) s =
          .next (modJob j (fun x => { x with stage := .running }) (onOut o (fun x => { x with
            armed := some { job := j, cand := i, offset := off, since := s.evt.period, set := q
                            timed := false } }) s))) ∧
      (bit (job.param 0) 10 = true → (outAt s o).armed ≠ none → exec (.opDpllOutput j) s =
        .next (finish j stBusy (word (8 * 2 ^ 16)) [] s)) ∧
      (bit (job.param 0) 10 = true → (outAt s o).armed = none →
        ((candAt s i).state = .failed ∨ (candAt s i).state = .disabled) →
        exec (.opDpllOutput j) s = .next (raise 125 o (finish j stTimeout 0 [] s)))) ∧
    (ok.contains false = true → exec (.opDpllOutput j) s =
      .next (finish j stBadParam (word (7 * 2 ^ 16 + ok.idxOf false)) [] s))) ∧
  (∀ (q : OutSet) (y : ClkOut) (same : Bool), q ≠ {} → y = outAt (runOutputs s) o →
    same = (decide ((outAt s o).set.freq = q.freq) && decide ((outAt s o).set.fdiv = q.fdiv) &&
      decide ((outAt s o).set.frame = q.frame)) →
    ∃ r, rootNow s ≤ r ∧ r ≤ rootNow s + 2000000 ∧
      (same = false → outAt (putOut o q s) o = { y with
        set := q, timed := false, relock := some r, last := none
        next := if q.enable then some (r : Rat) else none }) ∧
      (same = true → (outAt s o).set.enable = true → (outAt s o).next ≠ none →
        outAt (putOut o q s) o = { y with
          set := q, timed := false
          next := if q.enable then y.next else none }) ∧
      (same = true → ((outAt s o).set.enable = false ∨ (outAt s o).next = none) →
        ∃ e, (rootNow s : Nat) ≤ e ∧ e < (rootNow s : Nat) + max 1 (outPeriod (putOut o q s) o) ∧
          outAt (putOut o q s) o = { y with
            set := q, timed := false, last := none
            next := if q.enable then some e else none }) ∧
      putOut o q s = { s with dpll := { s.dpll with out := (putOut o q s).dpll.out }
                              free := s.free + 1 })

/-- The aligning pulse of the named candidate gives the armed output its settings and its
alignment, raises ALIGN_DONE and commits the command: the next edge moves to pulse plus offset, or
a whole number of periods from it, later than the cycle in progress would end by less than one
period and never earlier (R314). An output that an OP_TIME_PULSE has named since it was armed
stays in TIMED mode (R313; the model's reading, log 175). A pulse of another candidate leaves an
armed output alone. Without one within 2 s the command ends ST_TIMEOUT, the output keeps its phase
and settings, and ALIGN_FAIL is raised (R315). A write of DPLL_NCO_HI applies the 40-bit pair, its
low word the last one written, held within 500,000,000,000 units either way, in the modes of code
S and in no other (R309). Next states given here: ALIGN_FAIL, DPLL_NCO_HI_WRITE.
(10_references_and_dpll.md) -/
def Obligations.AlignmentAndNco : Prop :=
  ∀ (i time o : Nat) (v : Int) (w : Word) (a : Armed) (s : State),
  ((outAt s o).armed = some a → a.cand = i → alignOutput i time o s =
    raise 124 o (commitDone a.job [] ((if a.timed then id else toAligned o)
      (onOut o (fun x => { x with
        armed := none, aligned := some (i, (time : Int) + a.offset), timed := a.timed })
        (moveEdge o ((time : Int) + a.offset : Int) (putOut o a.set s)))))) ∧
  (∀ (at' e : Rat), 0 < outPeriod s o → (outAt (runOutputs s) o).next = some e →
    (∃ k : Int, (outAt (moveEdge o at' s) o).next = some (at' + k * outPeriod s o)) ∧
    (∀ e', (outAt (moveEdge o at' s) o).next = some e' → e ≤ e' ∧ e' < e + outPeriod s o) ∧
    moveEdge o at' s = { s with dpll := { s.dpll with out := (moveEdge o at' s).dpll.out } }) ∧
  ((outAt s o).armed = some a → a.cand ≠ i → alignOutput i time o s = s) ∧
  ((outAt s o).armed = some a → (s.evt.period - a.since).toNat < 500000000 →
    exec (.alignFail o) s = .next s) ∧
  ((outAt s o).armed = some a → 500000000 ≤ (s.evt.period - a.since).toNat →
    exec (.alignFail o) s = .next (raise 125 o
      (finish a.job stTimeout 0 [] (onOut o (fun x => { x with armed := none }) s)))) ∧
  ((outAt s o).armed = none → exec (.alignFail o) s = .next s) ∧
  (signed 40 ((w.toNat % 256) * 2 ^ 32 + s.dpll.ncoWritten.toNat) = v →
    (s.codeS = true → -500000000000 ≤ v → v ≤ 500000000000 → Gives (.dpllNcoHiWrite w) s fun t =>
      t.dpll = { s.dpll with nco := v, ncoLo := s.dpll.ncoWritten, ncoHi := w.extractLsb' 0 8 } ∧ t = { s with dpll := t.dpll }) ∧
    (s.codeS = true → 500000000000 < v → Gives (.dpllNcoHiWrite w) s fun t =>
      t.dpll = { s.dpll with nco := 500000000000, ncoLo := 0x6A528800, ncoHi := 0x74 } ∧
      t = { s with dpll := t.dpll }) ∧
    (s.codeS = true → v < -500000000000 → Gives (.dpllNcoHiWrite w) s fun t =>
      t.dpll = { s.dpll with nco := -500000000000, ncoLo := 0x95AD7800, ncoHi := 0x8B } ∧
      t = { s with dpll := t.dpll }) ∧
    (s.codeS = false → exec (.dpllNcoHiWrite w) s = .next s))

/-- In the modes of code S a new frequency reading of a candidate that is neither disabled nor
PULSE, at most one each millisecond, is stored, its offset that of the measured frequency from the
nominal one; LINECLK and TIMECLK read the mean of their rates of the last 100 readings (the
model's reading of 100 ms, log 177). A FAILED candidate that is valid, shows edges and reads
within ACCEPT starts QUALIFYING, a QUALIFYING one beyond ACCEPT, and a QUALIFIED or SUSPECT one
beyond REJECT, becomes FAILED with REF_FAILED (R296, R297, R321). FREQ_OK is the last reading
against the limit of the present state, 0 before any reading (R320; the latter the model's
reading, log 178). An activity fault fails any candidate that is not disabled, at once; a PULSE
candidate's when no pulse came by the end of PULSE_WINDOW. That a pulse before the window is such
a fault, that one after it is a fault and begins a new run, and that a PULSE candidate reads its
frequency over its last 16 intervals, are the model's readings (log 138). A QUALIFYING candidate
whose QUAL_TIME has passed becomes QUALIFIED with REF_QUALIFIED; a PULSE candidate only after its
sixteen good intervals. Next states given here: REF_FREQ_UPDATE, REF_ACTIVITY_FAULT,
REF_QUALIFIED. (10_references_and_dpll.md) -/
def Obligations.ReferenceCandidates : Prop :=
  ∀ (i time : Nat) (off : Int) (hz : Rat) (edges : Bool) (rs : List Rat) (c : Cand) (s : State),
    s.codeS = true → i < 26 → candAt s i = c →
  (c.pulse = false → rs = (if 24 ≤ i then (ownHz s i :: c.rates).take 100 else c.rates) →
    off = offsetOf (nominalHz s i) (if 24 ≤ i then mean rs else hz) →
    -8388607 ≤ off → off ≤ 8388607 →
    (∀ p, c.readAt = some p → 250000 ≤ (s.evt.period - p).toNat) →
    (c.state = .failed → Gives (.refFreqUpdate i ⟨hz, edges⟩) s fun t =>
      (c.valid = true → edges = true → off.natAbs ≤ c.accept.toNat * 100 →
        candAt t i = { c with offset := off, read := true, readAt := some s.evt.period, rates := rs
                              activityOk := true, freqOk := true
                              state := .qualifying, since := s.evt.period, agreeSince := none }) ∧
      (c.valid = false ∨ edges = false ∨ c.accept.toNat * 100 < off.natAbs →
        candAt t i = { c with offset := off, read := true, readAt := some s.evt.period, rates := rs
                              activityOk := c.valid && edges
                              freqOk := decide (off.natAbs ≤ c.accept.toNat * 100) }) ∧
      t = { s with dpll := { s.dpll with cand := t.dpll.cand } }) ∧
    (c.state = .qualifying → Gives (.refFreqUpdate i ⟨hz, edges⟩) s fun t =>
      (off.natAbs ≤ c.accept.toNat * 100 →
        candAt t i = { c with offset := off, read := true, readAt := some s.evt.period, rates := rs
                              freqOk := true } ∧ t.evt = s.evt) ∧
      (c.accept.toNat * 100 < off.natAbs →
        candAt t i = { c with offset := off, read := true, readAt := some s.evt.period, rates := rs
                              freqOk := false, state := .failed
                              since := s.evt.period, agreeSince := none } ∧
        t.evt = (raise 113 i s).evt)) ∧
    ((c.state = .qualified ∨ c.state = .suspect) → Gives (.refFreqUpdate i ⟨hz, edges⟩) s fun t =>
      (off.natAbs ≤ c.reject.toNat * 100 →
        candAt t i = { c with offset := off, read := true, readAt := some s.evt.period, rates := rs
                              freqOk := true } ∧ t.evt = s.evt) ∧
      (c.reject.toNat * 100 < off.natAbs →
        candAt t i = { c with offset := off, read := true, readAt := some s.evt.period, rates := rs
                              freqOk := decide (off.natAbs ≤ c.accept.toNat * 100), state := .failed
                              since := s.evt.period, agreeSince := none } ∧
        t.evt = (raise 113 i s).evt) ∧
      t = { s with dpll := { s.dpll with cand := t.dpll.cand }, evt := t.evt })) ∧
  ((c.state = .disabled ∨ c.pulse = true ∨
      ∃ p, c.readAt = some p ∧ (s.evt.period - p).toNat < 250000) →
    exec (.refFreqUpdate i ⟨hz, edges⟩) s = .next s) ∧
  (ownHz s 25 = 250000000 * ((increment s : Rat) / (4 * 2 ^ 32 : Nat))) ∧
  (c.state = .disabled → exec (.refActivityFault i) s = .next s) ∧
  (c.state ≠ .disabled →
    (c.pulse = true → ∀ p, c.pulseAt = some p →
      p + 40000000000 + c.window.toNat * 400000 < s.evt.period.toNat * 160) →
    exec (.refActivityFault i) s = .next (failCand i (onCand i (fun x =>
      { x with activityOk := false, gaps := [] }) s))) ∧
  (∀ p, c.pulse = true → c.state ≠ .disabled → c.pulseAt = some p →
    (time - p + c.window.toNat * 400000 < 40000000000 → candAt (takePulse i time s) i =
      { c with pulseAt := some time, activityOk := false, gaps := [], state := .failed
               freqOk := c.read && decide (c.offset.natAbs ≤ c.accept.toNat * 100)
               since := s.evt.period, agreeSince := none }) ∧
    (40000000000 ≤ time - p + c.window.toNat * 400000 →
      time - p ≤ 40000000000 + c.window.toNat * 400000 →
      (c.gaps.length < 15 → c.state = .qualifying → candAt (takePulse i time s) i =
        { c with pulseAt := some time, activityOk := true, gaps := (time - p) :: c.gaps
                 freqOk := c.read && decide (c.offset.natAbs ≤ c.accept.toNat * 100) }) ∧
      (∀ gs, 15 ≤ c.gaps.length → c.state = .qualified → gs = ((time - p) :: c.gaps).take 16 →
        off = nearest ((640000000000 : Rat) / (gs.sum : Nat) * 1000000000 - 1000000000) →
        off.natAbs ≤ c.reject.toNat * 100 → -8388607 ≤ off → off ≤ 8388607 →
        candAt (takePulse i time s) i = { c with
          pulseAt := some time, activityOk := true, gaps := gs, offset := off, read := true
          freqOk := true })) ∧
    (40000000000 + c.window.toNat * 400000 < time - p → candAt (takePulse i time s) i =
        { c with pulseAt := some time, activityOk := true, gaps := [], state := .qualifying
                 freqOk := c.read && decide (c.offset.natAbs ≤ c.accept.toNat * 100)
                 since := s.evt.period, agreeSince := none } ∧
      (takePulse i time s).evt = (if c.state = .failed then s else raise 113 i s).evt)) ∧
  ((candAt (failCand i s) i).state = .failed ∧
    (failCand i s).evt = (if c.state = .qualifying ∨ c.state = .qualified ∨ c.state = .suspect
      then raise 113 i s else s).evt) ∧
  (c.state = .qualifying → (c.pulse = true → c.gaps.length = 16) →
    c.qualTime.toNat * 250000000 ≤ (s.evt.period - c.since).toNat →
    exec (.refQualified i) s = .next (raise 112 i (onCand i (fun x => { x with
      state := .qualified, since := s.evt.period, agreeSince := none
      freqOk := x.read && decide (x.offset.natAbs ≤ x.reject.toNat * 100) }) s))) ∧
  ((c.state ≠ .qualifying ∨ c.pulse = true ∧ c.gaps.length < 16 ∨
      (s.evt.period - c.since).toNat < c.qualTime.toNat * 250000000) →
    exec (.refQualified i) s = .next s)

/-- At each evaluation, one a millisecond, the DPLL in NCO mode is in state NCO, in
FORCED_HOLDOVER in HOLDOVER with a valid estimate of 60 values and in FREERUN without one (R298,
R308); with no eligible candidate it enters the same, each entry counted, and without a current
input a switch to the eligible candidate begins, raising SWITCH_STARTED (R300, R302). A phase
reading stands until the next edge (the model's reading of the loop in time, log 140); a switch's
target is measured against the output as it stands, the current input less the offset absorbed at
COMMIT (R302, R304). TIMECLK's phase follows the counter's increment against the output's offset,
evaluation by evaluation (R295; the model's reading, log 174). The output moves no farther than
the SLEW limit in each. At COMMIT, after 100 ms, 10 ms for LINECLK or three pulses of a PULSE
target, the loop closes on the target, absorbing the phase measured so far but of a PULSE target
(R304), and the switch is counted; a phase within the lock limit for 2 / BW locks, and one beyond
four times the limit loses the lock with LOCK_LOST (R311). A holdover sample, once a second while
LOCKED, takes y as it stood HOLD_GUARD seconds earlier if the DPLL was LOCKED then (R308). Next
states given here: DPLL_EVALUATION, SWITCH_COMMITTED, DPLL_LOCKED, LOCK_LOST, HOLDOVER_SAMPLE.
(10_references_and_dpll.md) -/
def Obligations.DpllStates : Prop :=
  ∀ (phase v : Int) (fresh : Bool) (k b : Nat) (s : State),
  (∀ p, s.dpll.evalAt = some p → (s.evt.period - p).toNat < 250000 →
    exec (.dpllEvaluation phase fresh) s = .next s) ∧
  (s.codeS = true → (∀ p, s.dpll.evalAt = some p → 250000 ≤ (s.evt.period - p).toNat) →
    Gives (.dpllEvaluation phase fresh) s fun t =>
    t.dpll.commanded = false ∧ t.dpll.evalAt = some s.evt.period ∧
    t.dpll.timePhase = s.dpll.timePhase + timeGain s ∧
    (measured t.dpll = some 25 → t.dpll.raw = nearest t.dpll.timePhase) ∧
    (measured t.dpll ≠ some 25 → t.dpll.raw = (if fresh then phase else s.dpll.raw)) ∧
    t.dpll.phase = (if measured t.dpll = some 25 ∨ fresh = true then
      (if t.dpll.state = .switching ∨ t.dpll.current = none then t.dpll.raw
        else t.dpll.raw - s.dpll.built) else s.dpll.phase) ∧
    t.dpll.trail = ((s.evt.period, t.dpll.y, t.dpll.state == .locked) :: s.dpll.trail).take 11000 ∧
    (t.dpll.y - s.dpll.y).natAbs ≤ s.dpll.slew.toNat * 10000 ∧
    (s.dpll.mode = .nco → t.dpll.state = .nco ∧ t.dpll.current = none ∧ t.dpll.target = none ∧
      (t.dpll.slewLimited = false → t.dpll.y = s.dpll.nco)) ∧
    (s.dpll.mode = .forcedHoldover → s.dpll.state = .locked →
      t.dpll.state = (if 60 ≤ s.dpll.history then .holdover else .freerun) ∧
      t.dpll.current = none) ∧
    t = { s with dpll := t.dpll, evt := t.evt }) ∧
  (∀ p, s.dpll.evalAt = some p → timeGain s = ((increment s : Rat) / (4 * 2 ^ 32 : Nat) - 1 -
    (s.dpll.y : Rat) / 10 ^ 15) * (4000 * (s.evt.period - p).toNat : Nat)) ∧
  (s.dpll.current = none → (s.dpll.mode = .auto ∨ s.dpll.mode = .manual) →
    (s.dpll.state ≠ .switching ∨ s.dpll.target = none) →
    (wanted s = some b → selection s = raise 116 b (s.onDpll fun d => { d with
      state := .switching, target := some b, decideY := d.y
      settleAt := s.evt.period, settlePulses := 0 })) ∧
    (wanted s = none → selection s = enterHoldover s)) ∧
  (s.dpll.state ≠ .holdover → s.dpll.state ≠ .freerun →
    enterHoldover s = errAdd 0x70038 1 (s.onDpll fun d => { d with
      state := if 60 ≤ d.history then .holdover else .freerun
      current := none, target := none })) ∧
  (s.dpll.state = .switching → s.dpll.target = some k →
    (((candAt s k).pulse = true ∧ 3 ≤ s.dpll.settlePulses) ∨ ((candAt s k).pulse = false ∧
        (if k = 24 then 2500000 else 25000000) ≤ (s.evt.period - s.dpll.settleAt).toNat) →
      exec .switchCommitted s =
        .next (settleDpll (raise 118 k (statAdd 0x70028 1 (s.onDpll fun d => { d with
          state := .acquire, current := some k, target := none
          built := if (candAt s k).pulse then 0 else d.raw
          phase := if (candAt s k).pulse then d.raw else 0
          loop := (d.y : Rat), lockFrom := s.evt.period }))))) ∧
    (((candAt s k).pulse = true ∧ s.dpll.settlePulses < 3) ∨ ((candAt s k).pulse = false ∧
        (s.evt.period - s.dpll.settleAt).toNat < (if k = 24 then 2500000 else 25000000)) →
      exec .switchCommitted s = .next s)) ∧
  (s.dpll.state ≠ .switching → exec .switchCommitted s = .next s) ∧
  (s.dpll.current = some k →
    (s.dpll.state = .acquire →
      (500000000 ≤ ((s.evt.period - s.dpll.lockFrom).toNat : Rat) * (loopSettings s k).1 →
        exec .dpllLocked s = .next (settleDpll (s.onDpll fun d => { d with state := .locked }))) ∧
      (((s.evt.period - s.dpll.lockFrom).toNat : Rat) * (loopSettings s k).1 < 500000000 →
        exec .dpllLocked s = .next s)) ∧
    (s.dpll.state = .locked →
      (4 * (loopSettings s k).2.2 < s.dpll.phase.natAbs → exec .lockLost s =
        .next (settleDpll (raise 121 k (s.onDpll fun d => { d with
          state := .acquire, lockFrom := s.evt.period })))) ∧
      (s.dpll.phase.natAbs ≤ 4 * (loopSettings s k).2.2 → exec .lockLost s = .next s))) ∧
  (s.dpll.state ≠ .acquire → exec .dpllLocked s = .next s) ∧
  (s.dpll.state ≠ .locked → exec .lockLost s = .next s) ∧
  (s.dpll.state = .locked →
    (∀ p, s.dpll.sampledAt = some p → 250000000 ≤ (s.evt.period - p).toNat) →
    Gives (.holdoverSample s.dpll.holdGuard.toNat) s fun t =>
    (guarded s = some (v, true) → t.dpll.history = s.dpll.history + 1 ∧
      t.dpll.estimate = s.dpll.estimate + ((v : Rat) - s.dpll.estimate) /
        (min (s.dpll.history + 1) s.dpll.holdTau.toNat : Nat)) ∧
    (guarded s = none ∨ guarded s = some (v, false) → t.dpll.history = s.dpll.history ∧
      t.dpll.estimate = s.dpll.estimate) ∧
    t.dpll.sampledAt = some s.evt.period ∧ t = { s with dpll := t.dpll }) ∧
  (∀ p, s.dpll.sampledAt = some p → (s.evt.period - p).toNat < 250000000 →
    exec (.holdoverSample b) s = .next s) ∧
  (s.dpll.state ≠ .locked → exec (.holdoverSample b) s = .next s)

/-- POWER_ON, RESET_N_LOW, SUPPLY_FAULT, THERMAL_TRIP and the end of OP_RESET's 10 us each put the
device in RESET from any mode, with every register, queue, counter and memory at its reset value
(RESET_COMMAND_ENTRY once 10 us have passed since the completion of OP_RESET was written); each
records its own cause, and only POWER_ON clears the others, the recorded rail among them (R507).
What a reset keeps is the recorded causes, the fuses, the levels on pins, the comparators, what
has gone out of the device and the boot flash (R491, R493, R498; which fields these are is the
model's reading, log 94). Before the completion of OP_RESET is written its 10 us do not run
(R405). THERMAL_WARN sets at 115 and clears at 110 degrees C of the hottest sensor, SUPPLY_LOW
follows the rails within 20 mV above their trip levels (60 mV for VDDIO_MGMT), and AVS_LOW sets
more than 25 mV below the published target and clears from 15 mV below it, each with its level
source (R489, R490); the AVS target, at most once in 100 ms, moves at most 5 mV toward the
computed one, within 700 to 800 mV (R489). Next states given here: RESET_COMMAND_ENTRY, POWER_ON,
RESET_N_LOW, SUPPLY_FAULT, THERMAL_TRIP, THERMAL_WARN, SUPPLY_LOW, AVS_UPDATE, AVS_LOW.
(17_power_reset_modes.md) -/
def Obligations.ResetsAndMonitors : Prop :=
  ∀ (P : Instr → State → Prop) (rail : BitVec 4) (hot : Bool) (h v : Int) (core : Nat)
    (rails : Vector Nat 10) (s : State),
  (P = (fun c t =>
    t.pwr = { State.reset.pwr with
      mode := .reset
      causePowerOn := decide (c = .powerOn) || s.pwr.causePowerOn
      causePin := decide (c = .resetNLow) || decide (c ≠ .powerOn) && s.pwr.causePin
      causeSupply := decide (c = .supplyFault rail) || decide (c ≠ .powerOn) && s.pwr.causeSupply
      causeThermal := decide (c = .thermalTrip) || decide (c ≠ .powerOn) && s.pwr.causeThermal
      causeCommand :=
        decide (c = .resetCommandEntry) || decide (c ≠ .powerOn) && s.pwr.causeCommand
      rail := if c = .supplyFault rail then rail else if c = .powerOn then 0 else s.pwr.rail
      tripped := decide (c = .thermalTrip) || decide (c ≠ .powerOn) && s.pwr.tripped
      fusedAdvance := s.pwr.fusedAdvance, flash := s.pwr.flash, qspi := s.pwr.qspi
      thermalWarn := s.pwr.thermalWarn, supplyLow := s.pwr.supplyLow } ∧
    t.bus = { State.reset.bus with readData := s.bus.readData, spiData := s.bus.spiData } ∧
    t.pmu = { State.reset.pmu with bwMessages := messagesSent s.evt } ∧
    t.evt = { State.reset.evt with
      gpioPin := s.evt.gpioPin, perst := s.evt.perst, sent := s.evt.sent } ∧
    t.cmd = { State.reset.cmd with written := s.cmd.written } ∧
    t.tx = { State.reset.tx with alert := s.tx.alert } ∧
    t.cry = { State.reset.cry with
      zeroisePin := s.cry.zeroisePin, tamperPin := s.cry.tamperPin } ∧
    t = { State.reset with
      pending := s.pending, free := s.free, pwr := t.pwr, evt := t.evt, cmd := t.cmd
      bus := t.bus, pmu := t.pmu, tx := t.tx, cry := t.cry }) →
    Gives .powerOn s (P .powerOn) ∧ Gives .resetNLow s (P .resetNLow) ∧
    Gives (.supplyFault rail) s (P (.supplyFault rail)) ∧ Gives .thermalTrip s (P .thermalTrip) ∧
    (s.cmd.resetWritten = true → 2500 ≤ (s.evt.period - s.cmd.resetAt).toNat →
      Gives .resetCommandEntry s (P .resetCommandEntry))) ∧
  (s.cmd.resetWritten = false ∨ (s.evt.period - s.cmd.resetAt).toNat < 2500 →
    exec .resetCommandEntry s = .next s) ∧
  (hot = (if 1150 ≤ h then true else if h ≤ 1100 then false else s.pwr.thermalWarn) →
    exec (.thermalWarn h) s =
      .next (setLevel 3 hot (s.onPwr fun p => { p with thermalWarn := hot }))) ∧
  (exec (.supplyLow rails) s =
    .next (setLevel 6 (nearTrip rails) (s.onPwr fun p => { p with supplyLow := nearTrip rails }))) ∧
  (nearTrip rails = true ↔ ∃ i, ∃ l : i < 10, tripLevels.getD i 0 ≤ rails[i] ∧
    rails[i] ≤ tripLevels.getD i 0 + if i = 9 then 60 else 20) ∧
  (s.pwr.avsValid = true →
    hot = (if core + 25 < s.pwr.avsTarget.toNat then true
      else if s.pwr.avsTarget.toNat ≤ core + 15 then false else s.pwr.avsLow) →
    exec (.avsLow core) s =
      .next (setLevel 5 hot (s.onPwr fun p => { p with avsLow := hot }))) ∧
  (s.pwr.avsValid = false → exec (.avsLow core) s = .next s ∧ exec (.avsUpdate h) s = .next s) ∧
  (∀ p, s.pwr.avsAt = some p → (s.evt.period - p).toNat < 25000000 →
    exec (.avsUpdate h) s = .next s) ∧
  (s.pwr.avsValid = true → (∀ p, s.pwr.avsAt = some p → 25000000 ≤ (s.evt.period - p).toNat) →
    700 ≤ s.pwr.avsTarget.toNat → s.pwr.avsTarget.toNat ≤ 800 → v = Config.avsTarget h →
    Gives (.avsUpdate h) s fun t =>
      700 ≤ t.pwr.avsTarget.toNat ∧ t.pwr.avsTarget.toNat ≤ 800 ∧
      t.pwr.avsTarget.toNat ≤ s.pwr.avsTarget.toNat + 5 ∧
      s.pwr.avsTarget.toNat ≤ t.pwr.avsTarget.toNat + 5 ∧
      (t.pwr.avsTarget.toNat : Int) = clampInt (s.pwr.avsTarget.toNat - 5) (s.pwr.avsTarget.toNat + 5)
        (clampInt 700 800 v) ∧
      (t.pwr.avsTarget ≠ s.pwr.avsTarget → t.pwr.avsAt = some s.evt.period) ∧
      t = { s with
        pwr := { s.pwr with avsTarget := t.pwr.avsTarget, avsAt := t.pwr.avsAt }, evt := t.evt })

/-- The end of RESET, after a thermal trip not before the hottest sensor has cooled, samples the
straps, invalidates every memory and enters BOOT, with the sources that BOOT_SEL names: the two
flash slots, the one that a valid boot record prefers first, the mailbox, or both (R492, R495,
R496). A flash slot's image is what the slot holds, erased bytes reading 0xFF; it is read over
QSPI by fast reads at its address, slot A at 0, slot B at 0x100000, the boot record at 0x200000
(R496; one entry for each read, the model's record, log 173). One that passes every check is
copied to the four cores as the image to run, with its source recorded and its fail code 0 (R500);
one that fails records the number of the check that failed, in the order of R498 (which number the
form of a header has, the model's reading, log 62), and the next source is tried. A mailbox load
without a chunk for 10 s fails with code 7 (R499). BOOT_COMPLETE then enters STANDBY, where the
image runs, OPT_RESET_N is released and TIMESTAMP starts at 0 (R500, R507), and where the
candidates other than the REFINs start in FAILED (R316). Next states given here: RESET_END,
BOOT_SOURCE_ATTEMPT_END, MBX_LOAD_TIMEOUT, BOOT_COMPLETE. (17_power_reset_modes.md) -/
def Obligations.BootSequence : Prop :=
  ∀ (sel pins : BitVec 2) (flash : Option Flash) (record : List Byte) (read : FlashRead)
    (r : ImageRead) (src : ImageSource) (rest : List ImageSource) (i : Image) (s : State),
  (s.pwr.mode = .reset → s.pwr.tripped = false ∨ s.pwr.thermalWarn = false →
    record = (flash.getD s.pwr.flash).record → Gives (.resetEnd sel pins flash) s fun t =>
    t.pwr = { s.pwr with
      mode := .boot, bootSel := sel, flash := flash.getD s.pwr.flash, tripped := false
      bootOrder := t.pwr.bootOrder, bootFirst := t.pwr.bootOrder.head?
      qspi := (if sel = 0 ∨ sel = 2 then
        [{ opcode := 0x6B, addr := 0x200000, dummy := 8, count := 16 }] else []) ++ s.pwr.qspi } ∧
    (sel = 0 → t.pwr.bootOrder =
      if preferB record then [.slotB, .slotA] else [.slotA, .slotB]) ∧
    (sel = 1 → t.pwr.bootOrder = [.mailbox]) ∧
    (sel = 2 → t.pwr.bootOrder =
      if preferB record then [.slotB, .slotA, .mailbox] else [.slotA, .slotB, .mailbox]) ∧
    (sel = 3 → t.pwr.bootOrder = []) ∧
    t = { s with pwr := t.pwr, mem := { s.mem with cells := [], coeffs := [] }, evt := t.evt
                 bus := { s.bus with i2cPins := pins } }) ∧
  (s.pwr.mode ≠ .reset ∨ s.pwr.tripped = true ∧ s.pwr.thermalWarn = true →
    exec (.resetEnd sel pins flash) s = .next s) ∧
  (preferB (recordOf true) = true ∧ preferB (recordOf false) = false) ∧
  ((readImage src read s).header = (if read = .headerError then [] else
      flashBytes 4096 (slotBytes src s)) ∧
    ((readImage src read s).readOk = true ↔ read = .whole) ∧
    (4096 ≤ (slotBytes src s).length → flashBytes 4096 (slotBytes src s) = (slotBytes src s).take 4096)) ∧
  (s.pwr.mode = .boot → s.pwr.verified = none → s.pwr.bootOrder = .slotA :: rest →
    r = readImage .slotA read s →
    (imageFail s r = 0 → exec (.bootSourceAttemptEnd read) s = .next (verifyImage
      (imageOf .slotA r.header r.body) (sendFlash (imageReads .slotA read s) s))) ∧
    (imageFail s r ≠ 0 → exec (.bootSourceAttemptEnd read) s = .next
      ((sendFlash (imageReads .slotA read s) s).onPwr fun p => { p with
        failA := BitVec.ofNat 4 (imageFail s r), bootOrder := rest }))) ∧
  (s.pwr.mode = .boot → s.pwr.verified = none → s.pwr.bootOrder = .slotB :: rest →
    r = readImage .slotB read s →
    (imageFail s r = 0 → exec (.bootSourceAttemptEnd read) s = .next (verifyImage
      (imageOf .slotB r.header r.body) (sendFlash (imageReads .slotB read s) s))) ∧
    (imageFail s r ≠ 0 → exec (.bootSourceAttemptEnd read) s = .next
      ((sendFlash (imageReads .slotB read s) s).onPwr fun p => { p with
        failB := BitVec.ofNat 4 (imageFail s r), bootOrder := rest }))) ∧
  ((verifyImage i s).pwr = { setFail i.source 0 s.pwr with
      source := (match i.source with | .slotA => 1 | .slotB => 2 | .mailbox => 3)
      verified := some i } ∧
    (verifyImage i s).mem =
      ((List.range 4).foldl (fun u c => loadCore c (bodyWords i.body) u) s).mem ∧
    (s.codeS = false →
      verifyImage i s = { s with pwr := (verifyImage i s).pwr, mem := (verifyImage i s).mem })) ∧
  (sendFlash (imageReads .slotA .whole s) s = s.onPwr fun p => { p with qspi :=
    (if headerFail s (flashBytes 4096 s.pwr.flash.slotA) = 0 then
      [{ opcode := 0x6B, addr := 0x1000, dummy := 8
         count := headerField (flashBytes 4096 s.pwr.flash.slotA) 16 4 }] else []) ++
    { opcode := 0x6B, addr := 0, dummy := 8, count := 4096 } :: p.qspi }) ∧
  (sendFlash (imageReads .slotB .whole s) s = s.onPwr fun p => { p with qspi :=
    (if headerFail s (flashBytes 4096 s.pwr.flash.slotB) = 0 then
      [{ opcode := 0x6B, addr := 0x101000, dummy := 8
         count := headerField (flashBytes 4096 s.pwr.flash.slotB) 16 4 }] else []) ++
    { opcode := 0x6B, addr := 0x100000, dummy := 8, count := 4096 } :: p.qspi }) ∧
  (r.header.length = 4096 →
    (formOk r.header = false → imageFail s r = 2) ∧
    (formOk r.header = true →
      (headerField r.header 16 4 % 16 ≠ 0 → imageFail s r = 3) ∧
      (lengthOk (headerField r.header 16 4) = true →
        (headerField r.header 12 4 < fusedMinimum s → imageFail s r = 4) ∧
        (imageFail s r = 0 → fusedMinimum s ≤ headerField r.header 12 4 ∧
          signatureOk r.header (r.body.take (headerField r.header 16 4)) = true ∧
          headerField r.header 16 4 ≤ r.body.length)))) ∧
  ((s.pwr.mode ≠ .boot ∨ s.pwr.verified = some i) →
    exec (.bootSourceAttemptEnd read) s = .next s) ∧
  (s.pwr.mode = .boot → (∃ l, s.cmd.load = some l ∧ l.body.length < l.bodyLength) →
    Gives .mbxLoadTimeout s fun t =>
      t.pwr = { s.pwr with failMbox := 7 } ∧ t.cmd.load = none ∧
      t = { s with pwr := t.pwr, cmd := t.cmd }) ∧
  (s.pwr.mode ≠ .boot → exec .mbxLoadTimeout s = .next s) ∧
  (s.pwr.mode = .boot → s.pwr.verified = some i → pinsAsserted s = false →
    Gives .bootComplete s fun t =>
      t.pwr = { s.pwr with mode := .standby, image := some i, verified := none, avsValid := true } ∧
      t.tx = { s.tx with resetActive := false } ∧ t.evt.period = 0 ∧ t.cmd = s.cmd ∧
      t.tim = s.tim ∧ t.dpll = { s.dpll with cand := t.dpll.cand } ∧
      (∀ k, candAt t k = if 8 ≤ k ∧ k < 26 then { candAt s k with state := .failed } else candAt s k) ∧
      t.cry = s.cry ∧ t.rx = s.rx ∧ t.dec = s.dec) ∧
  ((s.pwr.mode ≠ .boot ∨ s.pwr.verified = none) → exec .bootComplete s = .next s)

/-- OP_FW_STAGE refuses the running slot ST_BUSY and a packet without a pointer; it records the
outcome of the image's checks, refuses ST_AUTH_FAIL where one fails, and otherwise commits, erases
the slot, its programming going on (R501). The end of programming completes it, ST_OK with the
image in the slot or ST_TIMEOUT with the slot's header erased (what such a slot holds is the
model's choice, log 60), and raises FW_STAGED. OP_FW_ACTIVATE checks the image in the slot
likewise, makes the boot record prefer the slot, and with its fuse bit set raises the fused
minimum to the image's security version, never lowers it. Erasures, programming and reads go to
the flash at the slot's and the record's addresses (R496; the record of them is the model's, log
173). OP_BIST with a non-empty mask commits and its tests begin, any acquisition ending; it is
refused ST_BUSY while the skim tap would lose a capture (R508). Its end reports the failed tests
among those named, and the first fail. Next states given here: OP_BIST, BIST_DONE, OP_FW_STAGE,
FW_STAGED, OP_FW_ACTIVATE. (17_power_reset_modes.md) -/
def Obligations.FirmwareAndSelfTests : Prop :=
  ∀ (j k : Nat) (b : Bool) (m failed : BitVec 5) (first : Word) (e : FlashEnd) (read : FlashRead)
    (img : ImageRead) (bytes : List Byte) (job : Job) (rest : List (Nat × Bool × List Byte)) (more : List (Nat × BitVec 5)) (s : State),
  (Taken 0x0901 1 j job s → bit (job.param 0) 0 = b →
    (job.pointer = false → exec (.opFwStage j) s =
      .next (finish j stBadParam (word (7 * 2 ^ 16)) [] s)) ∧
    (job.pointer = true → (s.pwr.image.map fun i => i.source) = some (slotOf b) →
      exec (.opFwStage j) s = .next (finish j stBusy (word (8 * 2 ^ 16)) [] s)) ∧
    (job.pointer = true → (s.pwr.image.map fun i => i.source) ≠ some (slotOf b) →
      (imageFail s (stagedImage job) = 0 → exec (.opFwStage j) s = .next (commit j
        ((setSlot (slotOf b) [] s).onPwr fun p => { p with
          stageFail := 0, staging := p.staging ++ [(j, b, wordBytes (job.params.drop 1))]
          qspi := { opcode := 0x05, addr := 0, count := 1 } ::
            { opcode := 0x20, addr := if b then 0x100000 else 0, count := 0x100000 } ::
            p.qspi }))) ∧
      (imageFail s (stagedImage job) ≠ 0 → job.priv = 0 → exec (.opFwStage j) s =
        .next (finish j stAuthFail (word (8 * 2 ^ 16)) [] (s.onPwr fun p => { p with
          stageFail := BitVec.ofNat 4 (imageFail s (stagedImage job)) }))))) ∧
  ((setSlot .slotA bytes s).pwr = { s.pwr with flash := { s.pwr.flash with slotA := bytes } } ∧
    (setSlot .slotB bytes s).pwr = { s.pwr with flash := { s.pwr.flash with slotB := bytes } }) ∧
  (s.pwr.staging = (k, b, bytes) :: rest → exec (.fwStaged e) s =
    .next (raise 8 (b2n b + (if e = .done then 0 else 0x18 * 2 ^ 8))
      (finish k (if e = .done then stOk else stTimeout) 0 []
        ((setSlot (slotOf b) (if e = .done then bytes else
          List.replicate 4096 0xFF ++ bytes.drop 4096) s).onPwr fun p => { p with
            staging := rest, qspi := (stagingOps (slotOf b) e bytes.length).reverse ++ p.qspi })))) ∧
  (stagingOps (slotOf b) .done bytes.length =
    [{ opcode := 0x02, addr := if b then 0x100000 else 0, count := bytes.length },
     { opcode := 0x05, addr := 0, count := 1 },
     { opcode := 0x6B, addr := if b then 0x100000 else 0, dummy := 8, count := bytes.length }] ∧
   (e ≠ .done → stagingOps (slotOf b) e bytes.length = stagingOps (slotOf b) .done bytes.length ++
    [{ opcode := 0x20, addr := if b then 0x100000 else 0, count := 4096 },
     { opcode := 0x05, addr := 0, count := 1 }])) ∧
  (s.pwr.staging = [] → exec (.fwStaged e) s = .next s) ∧
  (Taken 0x0902 1 j job s → img = readImage (slotOf (bit (job.param 0) 0)) read s →
    (imageFail s img = 0 → Gives (.opFwActivate j read) s fun t =>
      t.pwr.stageFail = 0 ∧
      t.pwr.flash = { s.pwr.flash with record := recordOf (bit (job.param 0) 0) } ∧ s.pwr.fusedAdvance ≤ t.pwr.fusedAdvance ∧
      (bit (job.param 0) 1 = false → t.pwr.fusedAdvance = s.pwr.fusedAdvance) ∧
      (bit (job.param 0) 1 = true → fusedMinimum t =
        max (fusedMinimum s) (min 32 (headerField img.header 12 4))) ∧
      t.pwr.qspi = { opcode := 0x05, addr := 0, count := 1 } ::
        { opcode := 0x02, addr := 0x200000, count := 16 } ::
        { opcode := 0x05, addr := 0, count := 1 } ::
        { opcode := 0x20, addr := 0x200000, count := 16 } ::
        (imageReads (slotOf (bit (job.param 0) 0)) read s).reverse ++ s.pwr.qspi ∧
      t.pwr = { s.pwr with stageFail := 0, flash := t.pwr.flash, fusedAdvance := t.pwr.fusedAdvance
                           qspi := t.pwr.qspi } ∧
      Ended j stOk true [] t ∧ t = { s with pwr := t.pwr, cmd := t.cmd, noted := t.noted }) ∧
    (imageFail s img ≠ 0 → job.priv = 0 → exec (.opFwActivate j read) s =
      .next (finish j stAuthFail (word (8 * 2 ^ 16)) []
        ((sendFlash (imageReads (slotOf (bit (job.param 0) 0)) read s) s).onPwr fun p => { p with
          stageFail := BitVec.ofNat 4 (imageFail s img) })))) ∧
  (Taken 0x0810 1 j job s → (job.param 0).extractLsb' 0 5 = m →
    (m ≠ 0 → (m.getLsbD 3 = true → s.skim.capture ≠ .armed ∧ s.skim.capture ≠ .triggered) →
      exec (.opBist j) s = .next (commit j ((if s.rx.acq = 0 then s else toAcq 0 false s).onPwr
        fun p => { p with bist := p.bist ++ [(j, m)] }))) ∧
    (m = 0 → exec (.opBist j) s = .next (finish j stBadParam (word (7 * 2 ^ 16)) [] s)) ∧
    (m.getLsbD 3 = true → s.skim.capture = .armed → exec (.opBist j) s =
      .next (finish j stBusy (word (8 * 2 ^ 16)) [] s))) ∧
  (s.pwr.bist = (k, m) :: more → findJob k s = some job → job.stage = .working →
    job.committed = true → Gives (.bistDone failed first) s fun t =>
      Ended k stOk true [(failed &&& m).setWidth 32,
        if (failed &&& m).toNat % 16 = 0 then 0 else first] t ∧
      t.pwr = { s.pwr with bist := more } ∧ t.cry = s.cry ∧ t.tim = s.tim ∧ t.frm = s.frm ∧
      (∀ g a, g ∉ [0, 1, 9, 10] → MemoryCanonical s → g < 12 → a < groupSpan g →
        cellAt t g a = cellAt s g a)) ∧
  (s.pwr.bist = [] → exec (.bistDone failed first) s = .next s)

/-- OP_MODE_SET to the present mode completes at once. Along a transition of R502 it commits: to
ACQUIRE and MAINTENANCE, and to READY from ACQUIRE, TRAFFIC and MAINTENANCE, it completes with the
mode entered; STANDBY to READY enters READY and completes with the start-up, READY to STANDBY
starts the wind-down and completes with it (R502 to R505). Any other target mode is refused
ST_MODE, a target that no command may name ST_BAD_PARAM, and any transition during a start-up or
wind-down ST_BUSY. OP_RESET commits and completes, ends every other outstanding command, with the
work that a committed one still had in flash programming and on the optics port, and starts the
wind-down where the domains of code P run (R405; during a start-up too, the model's reading, log
70). Next states given here: OP_MODE_SET, OP_RESET. (17_power_reset_modes.md,
13_command_packets.md) -/
def Obligations.ModeCommands : Prop :=
  ∀ (j k n : Nat) (m : Mode) (job x : Job) (s : State),
  (Taken 0x0103 1 j job s → fld (job.param 0) 2 0 = n →
    (targetMode n = none → exec (.opModeSet j) s =
      .next (finish j stBadParam (word (7 * 2 ^ 16)) [] s)) ∧
    (targetMode n = some s.pwr.mode → exec (.opModeSet j) s = .next (commitDone j [] s)) ∧
    (targetMode n = some m → m ≠ s.pwr.mode →
      (s.pwr.mode, m) ∉ [(Mode.standby, Mode.ready), (.ready, .standby), (.ready, .acquire),
        (.ready, .maintenance), (.acquire, .ready), (.traffic, .ready), (.maintenance, .ready)] →
      exec (.opModeSet j) s = .next (finish j stMode (word s.pwr.mode.code) [] s)) ∧
    (targetMode n = some m → listed s.pwr.mode m = true →
      (s.pwr.starting = true ∨ s.pwr.windDown ≠ none) → exec (.opModeSet j) s =
        .next (finish j stBusy (word (8 * 2 ^ 16)) [] s)) ∧
    (s.pwr.starting = false → s.pwr.windDown = none →
      (s.pwr.mode = .ready → n = 4 → exec (.opModeSet j) s =
        .next (commitDone j [] (enterMode false .acquire s))) ∧
      (s.pwr.mode = .ready → n = 6 → exec (.opModeSet j) s =
        .next (commitDone j [] (enterMode false .maintenance s))) ∧
      (s.pwr.mode = .ready → n = 2 → exec (.opModeSet j) s =
        .next (commit j ((startWindDown s).onPwr fun p => { p with modeJob := some j }))) ∧
      (s.pwr.mode = .standby → n = 3 → exec (.opModeSet j) s =
        .next (commit j ((enterReady false s).onPwr fun p => { p with modeJob := some j }))) ∧
      ((s.pwr.mode = .acquire ∨ s.pwr.mode = .traffic ∨ s.pwr.mode = .maintenance) → n = 3 →
        exec (.opModeSet j) s = .next (commitDone j [] (enterReady false s))))) ∧
  ((enterMode false m s).pwr = { s.pwr with mode := m } ∧
    (enterReady false s).pwr = { s.pwr with
      mode := .ready, readyEntryDue := true, starting := s.pwr.starting || !s.pwr.pRunning
      readyAt := if s.pwr.pRunning then s.pwr.readyAt else s.evt.period } ∧
    (s.pwr.windDown = none → startWindDown s = { s with
      tx := { s.tx with request := false }
      pwr := { s.pwr with starting := false, windDown := some .output } })) ∧
  (Taken 0x0104 0 j job s → Gives (.opReset j) s fun t =>
    Ended j stOk true [] t ∧ t.cmd.resetJob = some j ∧ t.pwr.mode = s.pwr.mode ∧
    (s.pwr.pRunning = true → t.pwr.windDown ≠ none ∧
      (s.pwr.windDown = none → t.tx.request = false)) ∧
    (s.pwr.pRunning = false → t.pwr.windDown = s.pwr.windDown) ∧
    (JobIdsFresh s → k ≠ j → findJob k s = some x →
      (x.stage = .decided → findJob k t = some x) ∧
      (x.stage ≠ .decided → x.committed = true → Ended k stOk true [] t) ∧
      (x.stage ≠ .decided → x.committed = false → Ended k stAborted false [] t) ∧
      (x.stage ≠ .decided → x.committed = true → (∀ q ∈ t.pwr.staging, q.1 ≠ k) ∧
        (∀ q ∈ t.pwr.bist, q.1 ≠ k) ∧ (∀ q ∈ t.tx.hostQueue, q.job ≠ some k) ∧
        (∀ q ∈ t.tx.optResetJobs, q.1 ≠ k))))

/-- READY_ENTRY runs once for each entry: groups 0, 1 and 9 are invalidated, the known-answer
test's result is recorded, and where the domains of code P stood still they run, with DEV_START
empty, the output QUIET and the clipping windows begun anew (R109, R166, R443, R504). During the
start-up a converter or churn group sets its bit of DEV_START from its time after entry into READY
on, 250 us times its number or 100 us times its group; a converter with its synthesiser locked
ends its calibration; once all eight have, READY_DONE ends the start-up and the OP_MODE_SET
(R504). In a wind-down the units stop one by one once the output is QUIET, in the opposite order
and at the same spacing (among units of one time, the model's order, log 68), and STANDBY_ENTRY,
50 us after the last, stops the domains of code P and enters STANDBY from READY (R505). Next
states given here: READY_ENTRY, READY_UNIT_START, READY_DONE, WIND_DOWN_UNIT_STOP, STANDBY_ENTRY,
CONVERTER_CALIBRATION_END. (17_power_reset_modes.md) -/
def Obligations.StartUpAndWindDown : Prop :=
  ∀ (kat : Bool) (i g n j : Nat) (x : Job) (s : State),
  (s.pwr.readyEntryDue = true → Gives (.readyEntry kat) s fun t =>
    t.pwr.pRunning = true ∧ t.pwr.readyEntryDue = false ∧ t.cry.katFailed = !kat ∧
    (s.pwr.pRunning = false → t.pwr.start = 0 ∧ t.tx.out = .quiet ∧ t.tx.request = false ∧
      t.tx.clips = [] ∧ t.tx.before = [] ∧ t.tx.now = {} ∧ t.tx.clipAt = s.evt.period ∧
      t.tx.clipSum = { xi := 0, xq := 0, yi := 0, yq := 0 } ∧ t.rx.clipAt = s.evt.period) ∧
    (s.pwr.pRunning = true → t.pwr.start = s.pwr.start ∧ t.tx = s.tx ∧
      t.rx = { s.rx with cdDead := [] }) ∧
    t.rx = { s.rx with cdDead := [], clipAt := t.rx.clipAt } ∧ t.mem.coeffRebuild = none ∧
    t.mem.coeffs = [] ∧
    t.mem.cells = (invalidate 9 (invalidate 1 (invalidate 0 s))).mem.cells ∧
    t = { s with
      pwr := t.pwr, tx := t.tx, rx := t.rx, mem := t.mem, cry := t.cry, evt := t.evt }) ∧
  (s.pwr.readyEntryDue = false → exec (.readyEntry kat) s = .next s) ∧
  (s.pwr.starting = true → s.codeP = true →
    (i < 8 → (s.evt.period - s.pwr.readyAt).toNat < 62500 * i →
      exec (.readyUnitStart (.converter i)) s = .next s) ∧
    (i < 8 → 62500 * i ≤ (s.evt.period - s.pwr.readyAt).toNat →
      exec (.readyUnitStart (.converter i)) s =
        .next (s.onPwr fun p => { p with start := p.start ||| (1#32 <<< i) })) ∧
    (g < 8 → (s.evt.period - s.pwr.readyAt).toNat < 25000 * g →
      exec (.readyUnitStart (.churnGroup g)) s = .next s) ∧
    (g < 8 → bit s.pwr.start (16 + g) = false →
      25000 * g ≤ (s.evt.period - s.pwr.readyAt).toNat → exec (.readyUnitStart (.churnGroup g)) s =
      .next (startChurnGroup g (s.onPwr fun p => { p with
        start := p.start ||| (1#32 <<< (16 + g)) }))) ∧
    (fld s.pwr.start 15 8 = 255 → s.pwr.modeJob = some j → exec .readyDone s =
      .next (finishOk j [] ((raise 1 0 (s.onPwr fun p => { p with starting := false })).onPwr
        fun p => { p with modeJob := none }))) ∧
    (fld s.pwr.start 15 8 ≠ 255 → exec .readyDone s = .next s)) ∧
  (s.pwr.starting = false → exec (.readyUnitStart (.converter i)) s = .next s ∧
    exec .readyDone s = .next s) ∧
  (i < 8 → s.codeP = true → bit s.pwr.start i = true →
    (converterLocked s i = true → exec (.converterCalibrationEnd i) s =
      .next (s.onPwr fun p => { p with start := p.start ||| (1#32 <<< (8 + i)) })) ∧
    (converterLocked s i = false → exec (.converterCalibrationEnd i) s = .next s)) ∧
  (s.pwr.windDown = some .output →
    (s.tx.out = .quiet → s.tx.hooks = none → exec .windDownUnitStop s =
      .next (stopNext 24 (stopFabric (s.onPwr fun p => { p with windAt := s.evt.period })))) ∧
    (s.tx.out ≠ .quiet → exec .windDownUnitStop s = .next s)) ∧
  (s.pwr.windDown = some (.units n) → stopDue n s = false → exec .windDownUnitStop s = .next s) ∧
  (stopDue n s = true ↔ (1750 - startTime (startOrder.getD (n - 1) 0)) * 250 ≤
    (s.evt.period - s.pwr.windAt).toNat) ∧
  (s.pwr.windDown = some (.units n) → stopDue n s = true → Gives .windDownUnitStop s fun t =>
    (2 ≤ n → t.pwr.windDown = some (.units (n - 1))) ∧
    (n ≤ 1 → t.pwr.windDown = some .unitsStopped) ∧ t.pwr.mode = s.pwr.mode ∧
    bit t.pwr.start (startOrder.getD (n - 1) 0) = false) ∧
  (s.pwr.windDown = some .unitsStopped → (s.evt.period - s.pwr.windAt).toNat < 450000 →
    exec .standbyEntry s = .next s) ∧
  (s.pwr.windDown = some .unitsStopped → s.cmd.resetJob = none →
    450000 ≤ (s.evt.period - s.pwr.windAt).toNat → Gives .standbyEntry s fun t =>
      t.pwr.mode = (if s.pwr.mode = .ready then .standby else s.pwr.mode) ∧
      t.pwr.pRunning = false ∧ t.pwr.start = 0 ∧ t.pwr.windDown = none ∧
      t.pwr.modeJob = none ∧ t.rx.acq = 0 ∧ t.tx.synthLocked = false ∧ t.rx.adcLocked = false ∧
      (s.pwr.modeJob = some j → findJob j s = some x → x.stage = .working → x.committed = true →
        s.frm.switch = none → s.rx.pend = [] → s.dec.cfgPend = [] → s.dec.sharesPend = [] →
        (∀ g, g < 12 → (memGrp s g).pass = none) → Ended j stOk true [] t)) ∧
  (s.pwr.windDown = some .unitsStopped → s.cmd.resetJob = some j →
    450000 ≤ (s.evt.period - s.pwr.windAt).toNat → Gives .standbyEntry s fun t => t.pwr.windDown = some .done ∧ t.pwr.mode = s.pwr.mode ∧
      t.pwr.pRunning = false) ∧
  (s.pwr.windDown ≠ some .unitsStopped → exec .standbyEntry s = .next s)

/-- OP_LINE_PROFILE with a preset of 1 to 6, or with explicit parameters in range whose frame
holds its slots, commits and completes: the profile is in force, and both maps hold its plain map
with its MAP_CRC; where the symbol rate changed both synthesisers lose lock and the output is
QUIET (R7, R61, R168). Preset 7, and a profile during a map switch, are refused. OP_MAP_LOAD of a
valid map writes all 1,024 words of a map that neither the transmitter nor the last received
MAP_SEL uses, and that is not the target of a switch (R62); an invalid one is refused with the
first row that breaks R55, or else the last (R392; which row that is is the model's reading, log
164). OP_MAP_SWITCH reads its target: poison ends it ST_POISON; a header that does not fit, and a
map that is not valid, ST_BAD_PARAM; a switch in progress ST_BUSY; the map in use completes at
once, the other waits for its superframes (R63). Its reading of the target as its core is the
model's choice (log 74). Next states given here: OP_LINE_PROFILE, OP_MAP_LOAD, OP_MAP_SWITCH.
(02_line_frame.md) -/
def Obligations.MapCommands : Prop :=
  ∀ (j preset : Nat) (b : Bool) (p : Profile) (rows words : List Word) (seen : State)
    (job : Job) (s : State),
  (Taken 0x0201 1 j job s → fld (job.param 0) 14 12 = preset →
    ((preset = 0 ∧ explicitFault job = none ∧ p = explicitProfile job) ∨
        (1 ≤ preset ∧ preset ≤ 6 ∧ p = presetProfile preset) →
      0 ≤ frameFill p (p.slots / 20) →
      (s.frm.switch = none → Gives (.opLineProfile j) s fun t =>
        t.prof = p ∧ Ended j stOk true [] t ∧
        storedMap t false = mapWords p (plainRows p.slots) ∧
        storedMap t true = mapWords p (plainRows p.slots) ∧
        t.frm = { s.frm with
          crcA := mapCrc (mapWords p (plainRows p.slots))
          crcB := mapCrc (mapWords p (plainRows p.slots)) } ∧
        (p.rate ≠ s.prof.rate → t.tx.out = .quiet ∧ t.tx.synthLocked = false ∧
          t.tx.request = false ∧ t.tx.phi = 0 ∧ t.rx.adcLocked = false) ∧
        (p.rate = s.prof.rate → t.tx = s.tx ∧ t.rx.adcLocked = s.rx.adcLocked) ∧
        t.cry = s.cry ∧ t.circ = s.circ ∧ t.lane = s.lane ∧ t.pwr = s.pwr) ∧
      (s.frm.switch ≠ none → exec (.opLineProfile j) s =
        .next (finish j stBusy (word (8 * 2 ^ 16)) [] s))) ∧
    (preset = 7 → exec (.opLineProfile j) s =
      .next (finish j stBadParam (word (7 * 2 ^ 16)) [] s))) ∧
  (Taken 0x0310 1 j job s → bit (job.param 0) 0 = b → rows = job.params.drop 1 →
    2 ≤ rows.length → rows.length ≤ 1006 → words = mapWords s.prof rows →
    (mapValid s.prof words = true →
      (s.frm.txMap ≠ b → s.frm.rxNamed ≠ some b → switchTarget s ≠ some b →
        exec (.opMapLoad j) s = .next (commitDone j [] (writeMap b words s))) ∧
      (s.frm.txMap = b ∨ s.frm.rxNamed = some b → poisonPresent s (mapGroup b) = false →
        exec (.opMapLoad j) s = .next (finish j stBusy (word (8 * 2 ^ 16)) [] s)) ∧
      (switchTarget s = some b → exec (.opMapLoad j) s =
        .next (finish j stBusy (word (8 * 2 ^ 16)) [] s))) ∧
    (mapValid s.prof words = false →
      (∀ i, i < rows.length → rowOffends s.prof.slots rows i = true →
        (∀ h, h < i → rowOffends s.prof.slots rows h = false) → exec (.opMapLoad j) s =
          .next (finish j stBadParam (word (7 * 2 ^ 16 + (i + 1))) [] s)) ∧
      ((∀ i, i < rows.length → rowOffends s.prof.slots rows i = false) → exec (.opMapLoad j) s =
        .next (finish j stBadParam (word (7 * 2 ^ 16 + rows.length)) [] s)))) ∧
  (words.length = 1024 → storedMap (writeMap b words s) b = words ∧
    mapCrcOf (writeMap b words s) b = mapCrc words ∧
    mapCrcOf (writeMap b words s) (!b) = mapCrcOf s (!b)) ∧
  (Taken 0x0311 1 j job s → bit (job.param 0) 0 = b →
    (seeWords (mapGroup b) (2 + job.core.getD 0) 0
      (18 + fld ((cellAt s (mapGroup b) 0).data.setWidth 32) 9 0) s).2 = seen →
    ((seeWords (mapGroup b) (2 + job.core.getD 0) 0
        (18 + fld ((cellAt s (mapGroup b) 0).data.setWidth 32) 9 0) s).1 = none →
      exec (.opMapSwitch j) s = .next (finish j stPoison (word (8 * 2 ^ 16)) [] seen)) ∧
    ((seeWords (mapGroup b) (2 + job.core.getD 0) 0
        (18 + fld ((cellAt s (mapGroup b) 0).data.setWidth 32) 9 0) s).1 ≠ none →
      (sameHeader (storedMap s b) (storedMap s s.frm.txMap) = true →
        mapValid s.prof (storedMap s b) = true → s.frm.switch = none →
        (s.frm.txMap = b → exec (.opMapSwitch j) s = .next (commitDone j [] seen)) ∧
        (s.frm.txMap ≠ b → exec (.opMapSwitch j) s =
          .next (modJob j (fun x => { x with stage := .running }) (seen.onFrm fun f => { f with
            switch := some { job := j, target := b } })))) ∧
      (sameHeader (storedMap s b) (storedMap s s.frm.txMap) = false ∨
        mapValid s.prof (storedMap s b) = false → exec (.opMapSwitch j) s =
        .next (finish j stBadParam (word (7 * 2 ^ 16)) [] seen)) ∧
      (sameHeader (storedMap s b) (storedMap s s.frm.txMap) = true →
        mapValid s.prof (storedMap s b) = true → s.frm.switch ≠ none → exec (.opMapSwitch j) s =
        .next (finish j stBusy (word (8 * 2 ^ 16)) [] seen))))

/-- With code P running and an empty assembler a frame opens with the next FRAME_COUNT, rounded up
to a superframe after a stop (R38; after the last frame opened, the model's choice, log 163), its
TX_TIME and MAP_SEL; at a superframe a pending map switch first announces its target in MAP_NEXT,
and one superframe later takes effect and commits with ST_OK (R38, R63, R326). The assembler hands
the frame to T5 one frame period later, as a whey frame where the map was poisoned, where the
frame stood in the assembler at a zeroisation (the model's reading, log 104), during zeroisation
and in ZEROISED (R50, R131). A received frame of all its blocks, and no other, is deframed: its
FRAME_COUNT, maps, DATA_VALID, epochs and CLIENT_FAIL bits are those of its overhead when that is
good, and the predictions of R58 otherwise; a good one is the frame to echo from now on, valid
until 64 local frame periods have passed since it was received (R330), and a map that reads clean
gives the receiver its header (R57, R151). Next states given here: FRAME_OPEN, FRAME_HANDOFF,
FRAME_DEFRAMED. (02_line_frame.md, 04_circuit_encryption.md, 11_time_and_transfer.md) -/
def Obligations.FramesSentAndReceived : Prop :=
  ∀ (residues drains : List (Nat × Nat)) (age : Nat) (count : Quad) (w : MapSwitch)
    (f : OpenFrame) (bs : List RxBlock) (x : RxFrame) (job : Job) (s : State),
  (s.codeP = true → s.frm.asm = none → openCount s.frm = count →
    Gives (.frameOpen residues) s fun t => ∃ g, t.frm.asm = some g ∧
      g.count = count ∧ g.txTime = openTxTime s ∧ g.sel = t.frm.txMap ∧
      g.dropped = false ∧ g.prof.rate = s.prof.rate ∧ g.prof.slots = s.prof.slots ∧
      t.frm.nextCount = count + 1 ∧ t.frm.stopped = false ∧
      t.tim = { s.tim with sent := ((count, openTxTime s) :: s.tim.sent).take 4096 } ∧
      (s.frm.stopped = false → count = s.frm.nextCount) ∧
      (s.frm.stopped = true → count.toNat % 8 = 0) ∧
      (s.frm.switch = none → t.frm.switch = none ∧ t.frm.txMap = s.frm.txMap ∧
        g.next = s.frm.txMap) ∧
      (s.frm.switch = some w → count.toNat % 8 ≠ 0 → t.frm.switch = some w ∧
        t.frm.txMap = s.frm.txMap) ∧
      (s.frm.switch = some w → count.toNat % 8 = 0 → w.opened = false →
        t.frm.switch = some { w with opened := true } ∧ t.frm.txMap = s.frm.txMap ∧
        g.next = w.target) ∧
      (s.frm.switch = some w → count.toNat % 8 = 0 → w.opened = true →
        t.frm.switch = none ∧ t.frm.txMap = w.target ∧ g.next = w.target ∧
        (findJob w.job s = some job → s.cry.switches = [] → Ended w.job stOk true [] t))) ∧
  ((s.codeP = false ∨ s.frm.asm ≠ none) → exec (.frameOpen residues) s = .next s) ∧
  (s.codeP = true → s.frm.asm = some f → s.frm.ready = none → exec .frameHandoff s =
    .next (s.onFrm fun m => { m with
      asm := none
      ready := some { frame := f, overhead := overheadBytes f s, whey := mustWhey f s } })) ∧
  (∀ e, s.frm.echo = some e → (echoValid s = true ↔
    (((s.evt.period.toNat * 160 : Nat) - e.at' : Int) : Rat) ≤ 64 * framePeriodNs s * 40)) ∧
  (s.frm.echo = none → echoValid s = false) ∧
  (mustWhey f s = true ↔ f.poison = true ∨ f.dropped = true ∨ s.cry.zeroising = true ∨
    s.pwr.mode = .zeroised) ∧
  ((s.codeP = false ∨ s.frm.asm = none ∨ s.frm.ready ≠ none) →
    exec .frameHandoff s = .next s) ∧
  (s.frm.rxBlocks.take (frameBlocks (rxProf s)) = bs → readFrame s bs = x →
    (s.codeP = true → bs.length = frameBlocks (rxProf s) →
      (∀ a ∈ bs, ∀ b ∈ bs, a.frame = b.frame) → Gives (.frameDeframed age drains) s fun t =>
        t.frm.rxBlocks = s.frm.rxBlocks.drop (frameBlocks (rxProf s)) ∧ t.frm.rxAny = true ∧
        t.frm.rxCount = x.count ∧ t.frm.rxSel = x.sel ∧ t.frm.rxNext = x.next ∧
        t.frm.rxValid = x.valid ∧ t.frm.rxEpoch = x.epoch ∧ t.frm.rxFail = x.fail ∧
        t.frm.rxNamed = (if x.good then some x.sel else s.frm.rxNamed) ∧
        (x.good = true → ∃ e, t.frm.echo = some e ∧ e.count = x.count ∧
          e.txTime = ohTime x.oh 32 ∧ e.arrival = arrivalTime s x.id age ∧
          e.at' = receivedAt s age) ∧
        (x.good = false → t.frm.echo = s.frm.echo) ∧
        (∀ ws, (sequencerRead x.sel s).1 = some ws → t.rx.header = some (headerProfile s.prof ws)) ∧
        t.frm.rxPredicted = !x.good ∧ t.tim.frames = s.tim.frames + 1 ∧
        t.tim.counter = s.tim.counter ∧ t.frm.txMap = s.frm.txMap ∧ t.tx = s.tx) ∧
    ((s.codeP = false ∨ bs.length < frameBlocks (rxProf s)) →
      exec (.frameDeframed age drains) s = .next s)) ∧
  (readFrame s bs = x →
    (x.good = true → x.count = BitVec.ofNat 64 (ohNat x.oh 0 8) ∧
      x.valid = (ohByte x.oh 8).getLsbD 7 ∧ x.sel = (ohByte x.oh 8).getLsbD 6 ∧
      x.next = (ohByte x.oh 8).getLsbD 5 ∧ x.epoch = ohCircuits x.oh 128 ∧
      x.fail = ohCircuits x.oh 256 ∧ ohByte x.oh 9 = 1 ∧ ∀ b ∈ bs.take 2, b.cause = .passed) ∧
    (x.good = false → x.count = s.frm.rxCount + 1 ∧ x.valid = s.frm.rxValid ∧
      x.next = s.frm.rxNext ∧ x.epoch = s.frm.rxEpoch ∧ x.fail = s.frm.rxFail))

/-- OP_CIRCUIT_CREATE of a free circuit with a listed client type, its lane count and free lanes
commits and completes: the circuit is created with its configuration, its counters cleared, its
egress on client fill, its ingress failed until its lanes are up, and its lanes belong to it, the
first pair of them starting at once where their start slot has passed (R86, R87, R273); while the
circuit was not created it could be dark and have the far end's CLIENT_FAIL, which go on, and a
discarding of its containers, which ends (R89, R100); that lanes with a started slot begin with
the command's commit is the model's reading (log 90). A configuration outside R71 is refused
ST_BAD_PARAM, a created circuit or a lane in use ST_BUSY. OP_CIRCUIT_DELETE of a circuit that no
map in use names frees it and its lanes, its failed ingress without INGRESS_FAIL_END (the model's
choice, log 181); one not created is refused ST_NOT_FOUND, one a map names ST_BUSY (R88). An
ingress fails when a lane of its group loses lock, which discards its blocks, and is good again 1
ms after every lane is in L4 with marker lock (R74). Next states given here: OP_CIRCUIT_CREATE,
OP_CIRCUIT_DELETE, INGRESS_FAIL_START, INGRESS_FAIL_END. (03_clients_and_circuits.md) -/
def Obligations.CircuitCommands : Prop :=
  ∀ (j c l : Nat) (due : List Nat) (loss : LockLoss) (x : Circ) (job : Job) (s : State),
  (Taken 0x0301 2 j job s → fld (job.param 0) 9 0 = c →
    x = { created := true, config := job.param 1 &&& 0x0FF7FFF7, egressFill := true } →
    (badConfig x = false → (circAt s c).created = false →
      ((∀ k ∈ x.lanes, (laneAt s k).circuit = none) → Gives (.opCircuitCreate j) s fun t =>
        Ended j stOk true [] t ∧
        circAt t c = { x with
          dark := (circAt s c).dark, farFail := (circAt s c).farFail, ingressFail := true } ∧
        (∀ k ∈ x.lanes, (laneAt t k).circuit = some c ∧ (laneAt t k).rate = x.laneRate ∧
          (laneAt t k).tested = false) ∧
        ((∀ k ∈ x.lanes, (laneAt s k).waiting = []) → s.codeP = true →
          due = x.lanes.filter (fun k => decide ((laneAt s k).state = 0) && slotPassed s k) →
          (l ∉ x.lanes → laneAt t l = laneAt s l) ∧
          (∀ e, e ≠ c → circAt t e = circAt s e) ∧
          (∀ k ∈ due.take 2, (laneAt t k).state = 1 ∧ (laneAt t k).since = s.evt.period) ∧
          (∀ k ∈ x.lanes, k ∉ due.take 2 → (laneAt t k).state = (laneAt s k).state) ∧
          t.pwr.pairs = s.pwr.pairs ++
            (if due.length ≤ 2 then [] else [(s.evt.period, due.drop 2)]) ∧
          t.evt = (raise 256 c (clearCircuitCounters c s)).evt) ∧
        t = { s with
          circ := t.circ, lane := t.lane, evt := t.evt, cmd := t.cmd, noted := t.noted
          pwr := { s.pwr with pairs := t.pwr.pairs } }) ∧
      (l ∈ x.lanes → (laneAt s l).circuit ≠ none → exec (.opCircuitCreate j) s =
        .next (finish j stBusy (word (8 * 2 ^ 16)) [] s))) ∧
    (badConfig x = false → (circAt s c).created = true → exec (.opCircuitCreate j) s =
      .next (finish j stBusy (word (8 * 2 ^ 16)) [] s)) ∧
    (badConfig x = true → exec (.opCircuitCreate j) s =
      .next (finish j stBadParam (word (7 * 2 ^ 16 + 1)) [] s))) ∧
  (Taken 0x0302 1 j job s → fld (job.param 0) 9 0 = c →
    ((circAt s c).created = true → circuitMapped s c = false → exec (.opCircuitDelete j) s =
      .next (commitDone j [] ((circAt s c).lanes.foldl (fun s l => freeLane l s)
        (onCirc c (fun x => { unterminated := x.unterminated, dark := x.dark, farFail := x.farFail })
          s)))) ∧
    ((circAt s c).created = false → exec (.opCircuitDelete j) s =
      .next (finish j stNotFound (word (8 * 2 ^ 16)) [] s)) ∧
    ((circAt s c).created = true → circuitMapped s c = true → exec (.opCircuitDelete j) s =
      .next (finish j stBusy (word (8 * 2 ^ 16)) [] s))) ∧
  (CounterTablesCanonical s → ∀ i, i < 7 → c < 1024 →
    counter (clearCircuitCounters c s) (0x100000 + 0x40 * c + 8 + 8 * i) = 0) ∧
  (s.codeP = true → loss.circ = c → (circAt s c).created = true →
    (∃ k ∈ (circAt s c).lanes, k ∈ loss.lanes) →
    Gives (.ingressFailStart loss) s fun t =>
      (circAt t c).ingressFail = true ∧
      ((circAt s c).ingressFail = false → (circAt t c).fifo = [] ∧
        t.evt = (raise 256 c s).evt) ∧
      ((circAt s c).ingressFail = true → circAt t c = circAt s c ∧ t.evt = s.evt) ∧
      t.lane = ((circAt s c).lanes.foldl (fun s k =>
        onLane k (fun n => { n with
          amLock := n.amLock && !loss.lanes.contains k, aligned := false }) s) s).lane ∧
      t = { s with circ := t.circ, lane := t.lane, evt := t.evt }) ∧
  ((circAt s c).created = true → (circAt s c).ingressFail = true → s.codeP = true →
    ((∀ k ∈ (circAt s c).lanes, (laneAt s k).state = 4 ∧ (laneAt s k).amLock = true) →
      250000 ≤ (s.evt.period - (circAt s c).lockAt).toNat → exec (.ingressFailEnd c) s =
        .next (raise 257 c (onCirc c (fun x => { x with ingressFail := false }) s))) ∧
    (l ∈ (circAt s c).lanes ∧ (laneAt s l).amLock = false ∨
        (s.evt.period - (circAt s c).lockAt).toNat < 250000 →
      exec (.ingressFailEnd c) s = .next s)) ∧
  ((∀ k ∈ (circAt s loss.circ).lanes, k ∉ loss.lanes) → exec (.ingressFailStart loss) s = .next s) ∧
  (s.codeP = false ∨ (circAt s c).created = false →
    (loss.circ = c → exec (.ingressFailStart loss) s = .next s) ∧
    exec (.ingressFailEnd c) s = .next s)

/-- Symbols that arrive at a circuit fill the codewords of its client, which are decoded and lose
their markers once a set is whole, on a lane in loopback HOST_NEAR those that it sends; the next
decoded block is descrambled, its 66-bit blocks recovered and transcoded, error blocks in its
place where its codewords could not be corrected (R71 to R73, R285; the code's details are those
of IEEE 802.3, the model's presumption, log 132); at a circuit being cut it enters the FIFO; at
one frame and 512 blocks (the container's capacity, the model's reading, log 83) the FIFO
overruns, counted and raised, and blocks are lost until it is half empty again, when one error
block takes the place of those lost (R77). In loopback CLIENT its blocks go to the egress instead
(R285). An underrun sends what the egress holds and error blocks, empties it, counts, and raises
EGRESS_UNDERRUN (R81). The recovered client clock locks once the fill has stayed in its band for a
second, and unlocks, raising its source, beyond 64 blocks from Q or at 200 ppm (R79). A PTP event
message passes with its time stamped on ingress, and its residence time added on egress and
counted; one whose header does not end within the frame's first 256 bytes (a frame cut short
included, a reading of log entry 106), or whose messageTypeSpecific field is taken, passes
unchanged and counts as skipped, the latter with TC_SKIPPED; any other message passes unchanged
(R92 to R94). No counter advances for test traffic (R287), and nothing happens while the domains
of code P stand still (R27). Nothing else of the block changes. Next states given here:
CLIENT_BLOCK_INGRESS, EGRESS_UNDERRUN, RECOVERY_LOCK, RECOVERY_UNLOCK, PTP_INGRESS, PTP_EGRESS.
(03_clients_and_circuits.md) -/
def Obligations.CircuitStreams : Prop :=
  ∀ (c n p : Nat) (udp : Option Nat) (symbols all : List (BitVec 10)) (b : BitVec 257 × Bool)
    (rest : List (BitVec 257 × Bool)) (frame : List Byte)
    (d : List Bool × BitVec 58) (bs : List Block66) (x y : Circ) (s u v : State), circAt s c = x →
  (u = takeSymbols c symbols s → y = circAt u c → s.codeP = true → x.created = true →
    containerBlocks x.slotCount s.prof.rate = n →
    (y.decoded = [] → exec (.clientBlockIngress c symbols) s = .next u) ∧
    (y.decoded = b :: rest → d = descramble y.descrambler (blockBits b.1) →
      bs = (if b.2 then List.replicate 4 errorBlock else untranscode (bitsBlock d.1)) →
      v = onCirc c (fun z => { z with decoded := rest, descrambler := d.2 }) u →
      (clientLoop s c = true → exec (.clientBlockIngress c symbols) s =
        .next (onCirc c (fun z => { z with
          egress := z.egress ++ bs, openPacket := bs.foldl openAfter z.openPacket
          egressFill := false, hunting := false, errorFill := false }) v)) ∧
      (clientLoop s c = false → (x.cutting = false ∨ x.ingressFail = true) →
        exec (.clientBlockIngress c symbols) s = .next v) ∧
      (clientLoop s c = false → x.cutting = true → x.ingressFail = false →
        (x.overrun = false → x.fifo.length < n + 512 →
          exec (.clientBlockIngress c symbols) s =
            .next (onCirc c (fun z => { z with fifo := z.fifo ++ [transcode bs] }) v)) ∧
        (x.overrun = false → n + 512 ≤ x.fifo.length →
          exec (.clientBlockIngress c symbols) s =
            .next (raise 260 c (unlessTest c (errAdd (circBase c + 0x28) 1)
              (onCirc c (fun z => { z with overrun := true }) v)))) ∧
        (x.overrun = true → n + 256 < x.fifo.length →
          exec (.clientBlockIngress c symbols) s =
            .next (unlessTest c (errAdd (circBase c + 0x28) 1) v)) ∧
        (x.overrun = true → x.fifo.length ≤ n + 256 →
          exec (.clientBlockIngress c symbols) s = .next (onCirc c (fun z => { z with
            overrun := false, fifo := z.fifo ++ [errorBlock257] }) v))))) ∧
  (x.created = true → u = takeSymbols c symbols s →
    all = x.rxSymbols ++ arrivingSymbols c symbols s → n = 544 * codewords x.clientType →
    (all.length < n → u = onCirc c (fun z => { z with
      rxSymbols := all, near := z.near.drop (all.length - x.rxSymbols.length) }) s) ∧
    (n ≤ all.length →
      circAt u c = { x with
        rxSymbols := all.drop n, near := x.near.drop (all.length - x.rxSymbols.length)
        rxPlace := (unmark x.clientType x.rxPlace
          (decodeSet x.clientType (all.take n)).blocks).2
        decoded := x.decoded ++ (unmark x.clientType x.rxPlace
          (decodeSet x.clientType (all.take n)).blocks).1.map fun w =>
            (w, decide (0 < (decodeSet x.clientType (all.take n)).lost)) } ∧
      u = { s with circ := u.circ, lane := u.lane, evt := u.evt }) ∧
    ((∀ k ∈ x.lanes, (laneAt s k).loopback ≠ 1) → arrivingSymbols c symbols s = symbols)) ∧
  (s.codeP = true → x.created = true → x.egressFill = false →
    exec (.egressUnderrun c n) s = .next (raise 261 c
      (unlessTest c (errAdd (circBase c + 0x28) n)
        (sendHost c (x.egress ++ List.replicate n errorBlock) (onCirc c (fun y => { y with
          egress := [], openPacket := false, openFront := false }) s))))) ∧
  (x.egressFill = true → exec (.egressUnderrun c n) s = .next s) ∧
  (s.codeP = true → x.created = true → x.localTiming = false →
    (∀ q, x.inBand = some q → secondPeriods ≤ (s.evt.period - q).toNat →
      exec (.recoveryLock c) s =
        .next (onCirc c (fun y => { y with recoveryLocked := true }) s)) ∧
    (∀ q, x.inBand = some q → (s.evt.period - q).toNat < secondPeriods →
      exec (.recoveryLock c) s = .next s)) ∧
  (x.localTiming = true ∨ x.inBand = none → exec (.recoveryLock c) s = .next s) ∧
  (s.codeP = true → x.recoveryLocked = true →
    (256 < x.fillError.natAbs ∨ 1 / 5000 ≤ absRat x.steer → exec (.recoveryUnlock c) s =
      .next (raise 266 c (onCirc c (fun y => { y with recoveryLocked := false }) s))) ∧
    (x.fillError.natAbs ≤ 256 → absRat x.steer < 1 / 5000 →
      exec (.recoveryUnlock c) s = .next s)) ∧
  (x.recoveryLocked = false → exec (.recoveryUnlock c) s = .next s) ∧
  (s.codeP = true → x.created = true → x.tcEnable = true → ptpAt frame = some (p, udp) →
    isEvent frame p = true →
    (p + 34 ≤ 256 → p + 34 ≤ frame.length → (frame.drop (p + 16)).take 4 = [0, 0, 0, 0] →
      exec (.ptpIngress c frame) s = .next (onCirc c (fun y => { y with
        ptpIn := stampIngress s.tim.counter frame p udp }) s)) ∧
    (p + 34 ≤ 256 → p + 34 ≤ frame.length → (frame.drop (p + 16)).take 4 ≠ [0, 0, 0, 0] →
      exec (.ptpIngress c frame) s = .next (onCirc c (fun y => { y with ptpIn := frame })
        (raiseLimited (267 * 2 ^ 16 + c) 267 c
          (unlessTest c (errAdd (circBase c + 0x38) 1) s)))) ∧
    (p + 34 ≤ 256 → p + 34 ≤ frame.length → exec (.ptpEgress c frame) s = .next (onCirc c (fun y => { y with
      ptpOut := correctEgress s.tim.counter frame p udp })
        (unlessTest c (statAdd (circBase c + 0x30) 1) s))) ∧
    (256 < p + 34 ∨ frame.length < p + 34 →
      exec (.ptpIngress c frame) s = .next (onCirc c (fun y => { y with ptpIn := frame })
        (unlessTest c (errAdd (circBase c + 0x38) 1) s)) ∧
      exec (.ptpEgress c frame) s = .next (onCirc c (fun y => { y with ptpOut := frame })
        (unlessTest c (errAdd (circBase c + 0x38) 1) s)))) ∧
  (s.codeP = true → x.created = true → x.tcEnable = false →
    exec (.ptpIngress c frame) s =
      .next (onCirc c (fun y => { y with ptpIn := frame }) s) ∧
    exec (.ptpEgress c frame) s = .next (onCirc c (fun y => { y with ptpOut := frame }) s)) ∧
  (underTest s c = true → unlessTest c (errAdd (circBase c + 0x28) n) s = s) ∧
  (s.codeP = false ∨ x.created = false →
    exec (.clientBlockIngress c symbols) s = .next s ∧ exec (.egressUnderrun c n) s = .next s ∧
    exec (.recoveryLock c) s = .next s ∧ exec (.ptpIngress c frame) s = .next s ∧
    exec (.ptpEgress c frame) s = .next s)

/-- With its words in range each commits and completes at acceptance and acts on the lanes its
mask names, lowest first. OP_HLANE_CONFIG gives a lane its settings, and takes an enabled lane
down with cause 5 where its precoding or inversion changed (R277, R288). OP_HLANE_RESTART starts
the bring-up of enabled lanes again with cause 4, and commits once every named lane is in L1: at
once, or, with no lane touched before, at the last start of those whose slot is still to come
(R288; that the others wait for it is the model's reading, log 183). OP_HLANE_TEST sets loopback,
pattern and checker, a checker's counters starting at zero; a loopback change restarts the lane
with cause 6, and a lane without circuit is enabled by its test and goes down with cause 6 and
stops at the test's end (R277, R285 to R287; the latter's order is the model's reading, log 131).
An empty mask, a value out of range, a lane that is not enabled, a loopback of a group not named
whole, and a wrong rate are refused ST_BAD_PARAM, loopback HOST_FAR on a lane that is not up
ST_BUSY. Next states given here: OP_HLANE_CONFIG, OP_HLANE_RESTART, OP_HLANE_TEST.
(09_host_lanes.md) -/
def Obligations.LaneCommands : Prop :=
  ∀ (j l cause : Nat) (ls : List Nat) (ok : List Bool) (w : Word) (x y z : Lane) (u : State)
    (job : Job) (s : State), laneAt s l = x →
  (maskLanes (job.param 0) = ls →
    (Taken 0x0320 5 j job s →
      ok = [decide (ls ≠ []), decide (fld (job.param 1) 21 16 ≤ 40),
        decide (-16 ≤ signed 8 (fld (job.param 2) 7 0) ∧ signed 8 (fld (job.param 2) 7 0) ≤ 0 ∧
          -16 ≤ signed 8 (fld (job.param 2) 15 8) ∧ signed 8 (fld (job.param 2) 15 8) ≤ 0),
        decide (1 ≤ fld (job.param 3) 4 0 ∧ fld (job.param 3) 4 0 ≤ 16 ∧
          1 ≤ fld (job.param 3) 12 8 ∧ fld (job.param 3) 12 8 ≤ 8 ∧
          1 ≤ fld (job.param 3) 25 16 ∧ fld (job.param 3) 25 16 ≤ 1000),
        decide (1000 ≤ fld (job.param 4) 15 0 ∧ fld (job.param 4) 15 0 ≤ 2400)] →
      (ok.contains false = false → exec (.opHlaneConfig j) s =
        .next (commitDone j [] (ls.foldl (fun s l => applyLaneConfig job l s) s))) ∧
      (ok.contains false = true → exec (.opHlaneConfig j) s =
        .next (finish j stBadParam (word (7 * 2 ^ 16 + ok.idxOf false)) [] s))) ∧
    (Taken 0x0321 1 j job s →
      (ls ≠ [] → (∀ k ∈ ls, (laneAt s k).enabled = true) →
        ((∀ k ∈ ls, (laneAt s k).state ≠ 0) → exec (.opHlaneRestart j) s =
          .next (commitDone j [] (ls.foldl (fun s l => restartLane 4 l s) s))) ∧
        (l ∈ ls → x.state = 0 → Gives (.opHlaneRestart j) s fun t =>
          laneAt t l = { x with waiting := x.waiting ++ [j] } ∧ AtStage j .running t ∧
          (∀ k, k ∉ ls ∨ (laneAt s k).state ≠ 0 → laneAt t k = laneAt s k) ∧
          t = { s with lane := t.lane, cmd := t.cmd, noted := t.noted })) ∧
      ((ls = [] ∨ l ∈ ls ∧ x.enabled = false) → exec (.opHlaneRestart j) s =
        .next (finish j stBadParam (word (7 * 2 ^ 16)) [] s))) ∧
    (Taken 0x0822 2 j job s → job.param 1 = w →
      (ls = [] → exec (.opHlaneTest j) s = .next (finish j stBadParam (word (7 * 2 ^ 16)) [] s)) ∧
      (ls ≠ [] → (3 < fld w 2 0 ∨ 4 < fld w 6 4 ∨ 3 < fld w 10 8) → exec (.opHlaneTest j) s =
        .next (finish j stBadParam (word (7 * 2 ^ 16 + 1)) [] s)) ∧
      (ls ≠ [] → fld w 2 0 ≤ 3 → fld w 6 4 ≤ 4 → fld w 10 8 ≤ 3 →
        (fld w 2 0 = 3 → exactGroup s ls = false → exec (.opHlaneTest j) s =
          .next (finish j stBadParam (word (7 * 2 ^ 16)) [] s)) ∧
        ((fld w 2 0 = 3 → exactGroup s ls = true) →
          (l ∈ ls → x.circuit ≠ none → x.rate ≠ bit w 12 → exec (.opHlaneTest j) s =
            .next (finish j stBadParam (word (7 * 2 ^ 16 + 1)) [] s)) ∧
          ((∀ k ∈ ls, (laneAt s k).circuit ≠ none → (laneAt s k).rate = bit w 12) →
            (fld w 2 0 = 2 → l ∈ ls → x.state ≠ 4 → exec (.opHlaneTest j) s =
              .next (finish j stBusy (word (8 * 2 ^ 16)) [] s)) ∧
            ((fld w 2 0 = 2 → ∀ k ∈ ls, (laneAt s k).state = 4) → exec (.opHlaneTest j) s =
              .next (commitDone j [] (startFirstPair ls
                (ls.foldl (fun s l => applyTest w l s) s))))))))) ∧
  (y = { x with
      ctlePreset := (job.param 1).extractLsb' 16 6, rxInvert := bit (job.param 1) 7
      txInvert := bit (job.param 1) 6, rxPrecode := bit (job.param 1) 5
      txPrecode := bit (job.param 1) 4, cPre := signed 8 (fld (job.param 2) 7 0)
      cPost := signed 8 (fld (job.param 2) 15 8), tdMin := (job.param 3).extractLsb' 0 5
      loMin := (job.param 3).extractLsb' 8 5, freezeLimit := (job.param 3).extractLsb' 16 10
      snrMin := (job.param 4).extractLsb' 0 16 } →
    (y.rxInvert = x.rxInvert ∧ y.txInvert = x.txInvert ∧ y.rxPrecode = x.rxPrecode ∧
        y.txPrecode = x.txPrecode → applyLaneConfig job l s =
      onLane l (fun _ => { y with resume := y.resume && decide (x = y) }) s) ∧
    (y.rxInvert ≠ x.rxInvert ∨ y.txInvert ≠ x.txInvert ∨ y.rxPrecode ≠ x.rxPrecode ∨
        y.txPrecode ≠ x.txPrecode →
      (x.enabled = true → applyLaneConfig job l s =
        restartLane 5 l (onLane l (fun _ => { y with resume := false }) s)) ∧
      (x.enabled = false → applyLaneConfig job l s =
        onLane l (fun _ => { y with resume := false }) s))) ∧
  (z = { x with
      loopback := w.extractLsb' 0 3, pattern := w.extractLsb' 4 3, checker := w.extractLsb' 8 3
      checkerLocked := false, check := {}
      gen := if w.extractLsb' 4 3 = x.pattern then x.gen else patternStart (w.extractLsb' 4 3).toNat
      tested := x.circuit.isNone && (fld w 2 0 != 0 || fld w 6 4 != 0)
      rate := if x.circuit.isSome then x.rate else bit w 12 } →
    u = (if fld w 10 8 = 0 then onLane l (fun _ => z) s
      else clearCounter (0x200000 + 0x1000 * l + 0x28)
        (clearCounter (0x200000 + 0x1000 * l + 0x20) (onLane l (fun _ => z) s))) → z ≠ {} →
    (x.circuit = none → fld w 2 0 = 0 → fld w 6 4 = 0 →
      applyTest w l s = stopLane l (goesDown 6 l u)) ∧
    (x.circuit ≠ none ∨ fld w 2 0 ≠ 0 ∨ fld w 6 4 ≠ 0 →
      (fld w 2 0 = x.loopback.toNat → applyTest w l s = u) ∧
      (fld w 2 0 ≠ x.loopback.toNat → applyTest w l s = restartLane 6 l u))) ∧
  ((x.state = 4 → goesDown 6 l s = raise (305 + 4 * l) (l + 6 * 256)
      (onLane l (fun n => { n with lastCause := 6 }) s)) ∧
    (x.state ≠ 4 → goesDown 6 l s = s)) ∧
  (s.evt.period ≠ 0 → (laneAt (stopLane l s) l).state = 0 ∧
    (laneAt (stopLane l s) l).txOn = false ∧ (laneAt (stopLane l s) l).frozen = false ∧
    (laneAt (stopLane l s) l).htx = [] ∧ (laneAt (stopLane l s) l).since = s.evt.period) ∧
  (x.state = 0 → restartLane cause l s = s) ∧
  (x.state = 4 → x.circuit ≠ none ∨ x.tested = true →
    (laneAt (restartLane cause l s) l).state = 1 ∧
    (laneAt (restartLane cause l s) l).lastCause = BitVec.ofNat 4 cause ∧
    (laneAt (restartLane cause l s) l).startIndex = 0 ∧
    (laneAt (restartLane cause l s) l).resume = decide (cause ≤ 3) ∧
    (laneAt (restartLane cause l s) l).frozen = false ∧
    (laneAt (restartLane cause l s) l).since = s.evt.period)

/-- An enabled lane starts at L1 in its start slot with the domains of code P, or with the pairs
of the command that enabled it, 50 us apart, and a restart that waited for it alone commits (R273,
R275, R288); signal detect after 2 us, CDR lock after 10 us, and an SNR of at least SNR_MIN after
1 ms move it to L2, L3 and L4, each only from the state before, and 200 us in L2 or 20 ms of
unfrozen time in L3 try the next start peaking (R275, R276). A loss of signal, lock or SNR in L4
counts, raises LANE_DOWN with its cause and starts again at L1; a frozen lane only for its signal,
one thawed for 1 us or 100 us for its lock or SNR too (R277, R280). A window that fails its
density or occupancy test freezes a lane, which holds its peaking and frequency estimate and thaws
after sixteen windows in a row that pass, and FREEZE_LONG is raised once for each freeze (R279 to
R281). A window's end shows the CDR's phase error, held while frozen, and in L4 the lane's marker
lock, whose loss fails the circuit's ingress (R74, R292; both are inputs of the window, the
model's choice, log 185); the transmitter sends the window's symbols, while the egress delivers
client fill or turned blocks filled up from it (R91, R274, R285; the model's reading, log 184),
with the taps as they were up to the word in which new ones begin (R282). A group is aligned only
with all its lanes in L4, every PCS lane on one of them and at most 200 ns apart; a deskew failure
is reported once for each entry into L4, for mixed lanes or after 10 ms (R283, R284); a checker
locks after 1,024 error-free bits and loses lock at 1,024 errors in 4,096 bits (R286). Next states
given here: LANE_START, LANE_TX_SYNTH_LOCK, LANE_SIGNAL_DETECT, LANE_CDR_LOCK, LANE_UP,
LANE_BRINGUP_TIMEOUT, LANE_DOWN, LANE_FREEZE_WINDOW, FREEZE_LONG, GROUP_ALIGNED, DESKEW_FAIL,
CHECKER_LOCK, CHECKER_LOST. (09_host_lanes.md) -/
def Obligations.LaneBringUp : Prop :=
  ∀ (l c p f : Nat) (cause : BitVec 4) (snr : BitVec 16) (peak : BitVec 6) (w : LaneWindow)
    (mixed : Bool) (g : List GroupLane) (q : Quad × List Nat) (sym : List Nat) (x y : Lane)
    (job : Job) (s u : State), laneAt s l = x →
  ((s.codeP = true → x.enabled = true → x.state = 0 → x.waiting = [] →
      startLane l s = onLane l (fun x => { x with waiting := [] }) (onLane l (fun x => { x with
        state := 1, since := s.evt.period, startIndex := 0, resume := false, txLast := 0
        rxLast := 0 }) s)) ∧
    (s.codeP = true → x.enabled = true → x.state = 0 → x.waiting = [c] →
      findJob c s = some job → (∀ e ∈ s.lane, e.1 ≠ l → c ∉ e.2.waiting) → tabWf {} s.lane = true →
      startLane l s = commitDone c [] ((maskLanes (job.param 0)).foldl (fun s k => restartLane 4 k s)
        (onLane l (fun x => { x with
          state := 1, since := s.evt.period, startIndex := 0, resume := false, txLast := 0
          rxLast := 0, waiting := [] }) s))) ∧
    (x.enabled = false ∨ s.codeP = false ∨ x.state ≠ 0 → startLane l s = s) ∧
    (s.codeP = true → p < 8 → p * 12500 ≤ (s.evt.period - s.pwr.readyAt).toNat →
      exec (.laneStart (some p) (2 * p)) s =
        .next (startLane (2 * p + 1) (startLane (2 * p)
          (s.onPwr fun w => { w with start := w.start ||| (1#32 <<< (24 + p)) })))) ∧
    (s.codeP = false ∨ 8 ≤ p ∨ (s.evt.period - s.pwr.readyAt).toNat < p * 12500 →
      exec (.laneStart (some p) f) s = .next s) ∧
    (s.pwr.pairs = [] → exec (.laneStart none f) s = .next s) ∧
    (s.pwr.pairs = [q] → q.2.head? = some f → 12500 ≤ (s.evt.period - q.1).toNat →
      exec (.laneStart none f) s =
      .next ((q.2.take 2).foldl (fun s l => startLane l s) (s.onPwr fun p => { p with
        pairs := if q.2.length ≤ 2 then [] else [(s.evt.period, q.2.drop 2)] }))) ∧
    (s.pwr.pairs = [q] → (s.evt.period - q.1).toNat < 12500 →
      exec (.laneStart none f) s = .next s)) ∧
  ((x.state ≠ 0 → exec (.laneTxSynthLock l) s =
      .next (onLane l (fun x => { x with txOn := true }) s)) ∧
    (x.state = 0 → exec (.laneTxSynthLock l) s = .next s)) ∧
  ((x.state = 1 → 500 ≤ (s.evt.period - x.since).toNat → Gives (.laneSignalDetect l) s fun t =>
      (laneAt t l).state = 2 ∧ (laneAt t l).signal = true ∧ (laneAt t l).cdr = false ∧
      (laneAt t l).peak = (if x.startIndex = 0 then (if x.resume then x.peak else x.ctlePreset)
        else BitVec.ofNat 6 (8 * (x.startIndex.toNat - 1))) ∧ t = { s with lane := t.lane }) ∧
    (x.state = 0 ∨ x.state = 1 ∧ (s.evt.period - x.since).toNat < 500 →
      exec (.laneSignalDetect l) s = .next s) ∧
    (x.state ≠ 0 → x.state ≠ 1 → exec (.laneSignalDetect l) s =
      .next (onLane l (fun x => { x with signal := true }) s))) ∧
  ((x.state = 2 → 2500 ≤ (s.evt.period - x.since).toNat → exec (.laneCdrLock l) s =
      .next (onLane l (fun x => { x with
        state := 3, since := s.evt.period, idle := 0, cdr := true }) s)) ∧
    (x.state ≠ 2 ∨ (s.evt.period - x.since).toNat < 2500 → exec (.laneCdrLock l) s = .next s)) ∧
  ((x.state = 3 → x.snrMin.toNat ≤ snr.toNat → 250000 ≤ (s.evt.period - x.since).toNat →
      exec (.laneUp l snr peak) s =
        .next (settleLaneClock l (raise (304 + 4 * l) l (onLane l (fun x => { x with
          state := 4, snrOk := true, snr := snr, peak := if x.frozen then x.peak else peak
          startIndex := 0, resume := false, deskewRaised := false, upAt := s.evt.period }) s)))) ∧
    (x.state ≠ 3 ∨ snr.toNat < x.snrMin.toNat ∨ (s.evt.period - x.since).toNat < 250000 →
      exec (.laneUp l snr peak) s = .next s)) ∧
  ((x.state = 2 ∧ 50000 ≤ (s.evt.period - x.since).toNat ∨
      x.state = 3 ∧ x.frozen = false ∧ 5000000 + x.idle ≤ (s.evt.period - x.since).toNat →
      Gives (.laneBringupTimeout l) s fun t =>
      (laneAt t l).state = 2 ∧ (laneAt t l).cdr = false ∧
      (laneAt t l).startIndex = (if x.startIndex = 6 then 1 else x.startIndex + 1) ∧
      (x.startIndex ≠ 6 → t.evt = (statAdd (0x200000 + 0x1000 * l + 0x50) 1 s).evt) ∧
      t = { s with lane := t.lane, evt := t.evt }) ∧
    (x.state ≠ 2 → x.state ≠ 3 → exec (.laneBringupTimeout l) s = .next s)) ∧
  ((x.state = 4 → 1 ≤ cause.toNat → cause.toNat ≤ 3 → (cause = 1 ∨ x.frozen = false ∧
        (if cause = 2 then 250 else 25000) ≤ (s.evt.period - x.thawedAt).toNat) →
      exec (.laneDown l cause) s = .next (restartLane cause.toNat l
        (errAdd (0x200000 + 0x1000 * l + 0x40) 1 s))) ∧
    (cause = 1 → x.state < 4 → exec (.laneDown l cause) s =
      .next (onLane l (fun x => { x with signal := false }) s)) ∧
    (cause ≠ 1 → x.state ≠ 4 ∨ x.frozen = true → exec (.laneDown l cause) s = .next s)) ∧
  ((u = topUp l s → y = (if x.txOn then sendWindow w (laneAt u l) else x) →
      sym = receivedSymbols w y → x.state = 3 ∨ x.state = 4 →
      Gives (.laneFreezeWindow l w) s fun t =>
      (laneAt t l).snr = w.snr ∧ (laneAt t l).snrOk = decide (x.snrMin.toNat ≤ w.snr.toNat) ∧
      (laneAt t l).cdr = (if x.frozen then x.cdr else decide (w.phase.natAbs ≤ 100)) ∧
      (laneAt t l).cdrOffset = (if x.frozen then x.cdrOffset else w.offset) ∧
      (laneAt t l).peak = (if x.frozen then x.peak else w.peak) ∧
      (laneAt t l).densityLow = densityFails x sym ∧ (laneAt t l).levelLow = levelFails x sym ∧
      (laneAt t l).state = x.state ∧ (laneAt t l).htx = y.htx ∧ (laneAt t l).ffe = y.ffe ∧
      (laneAt t l).ffeWas = y.ffeWas ∧ (laneAt t l).ffeCut = y.ffeCut ∧
      (x.state = 4 → (∀ k, x.circuit = some k → l ∈ (circAt s k).lanes) →
        (laneAt t l).amLock = w.marker) ∧
      (x.state = 4 → x.amLock = true → w.marker = false → x.circuit = some c →
        l ∈ (circAt s c).lanes → (circAt s c).created = true → (circAt t c).ingressFail = true) ∧
      (x.state = 3 → (laneAt t l).amLock = x.amLock) ∧
      ((densityFails x sym = true ∨ levelFails x sym = true) → (laneAt t l).frozen = true ∧
        (laneAt t l).passed = 0) ∧
      (densityFails x sym = false → levelFails x sym = false →
        (x.frozen = false → (laneAt t l).frozen = false) ∧
        (x.frozen = true → (laneAt t l).frozen = decide (x.passed < 15)))) ∧
    (x.state ≠ 3 → x.state ≠ 4 → x.txOn = false → exec (.laneFreezeWindow l w) s = .next s) ∧
    (x.state ≠ 3 → x.state ≠ 4 → x.txOn = true → exec (.laneFreezeWindow l w) s =
      .next (carry (16 + l) 1024 (onLane l (sendWindow w) (topUp l s)))) ∧
    (x.circuit = some c → x.txOn = true → x.pattern = 0 → x.loopback ≠ 2 →
      x.content.length < 8192 → ((circAt s c).egressFill = true ∨ clientLoop s c = true) →
      ∃ n, topUp l s = drainEgress c n s) ∧
    (x.circuit = none ∨ x.txOn = false ∨ x.pattern ≠ 0 ∨ x.loopback = 2 ∨
      8192 ≤ x.content.length ∨ (x.circuit = some c ∧ (circAt s c).egressFill = false ∧
        clientLoop s c = false) → topUp l s = s) ∧
    ((circAt s c).created = true → (circAt s c).egress = [] →
      drainEgress c p s = sendHost c
        (if (circAt s c).egressFill then List.replicate p localFault else []) s) ∧
    ((sendWindow w x).ffeWas = x.ffe ∧ (sendWindow w x).ffe = (x.cPre, x.cPost) ∧
      (x.ffe = (x.cPre, x.cPost) → (sendWindow w x).ffeCut = 0) ∧
      (x.ffe ≠ (x.cPre, x.cPost) → (sendWindow w x).ffeCut = 256 * w.word))) ∧
  ((x.frozen = true → x.freezeLong = false →
      x.freezeLimit.toNat * 250000 ≤ (s.evt.period - x.frozenAt).toNat →
      exec (.freezeLong l) s = .next (raise (304 + 4 * l + 3) (l + 2 * 256)
        (onLane l (fun x => { x with freezeLong := true }) s))) ∧
    (x.frozen = false ∨ x.freezeLong = true → exec (.freezeLong l) s = .next s)) ∧
  (((circAt s c).created = true → (∀ k ∈ (circAt s c).lanes, (laneAt s k).state = 4) →
      pcsComplete (circAt s c).laneCount (g.map GroupLane.pcs) = true →
      (∀ d ∈ deskews (g.map GroupLane.arrival), d ≤ 2000) →
      Gives (.groupAligned c g) s fun t =>
        (∀ i, i < (circAt s c).laneCount →
          (laneAt t ((circAt s c).firstLane + i)).amLock = true ∧
          (laneAt t ((circAt s c).firstLane + i)).aligned = true ∧
          (laneAt t ((circAt s c).firstLane + i)).pcs = (g.map GroupLane.pcs).getD i 0 ∧
          (laneAt t ((circAt s c).firstLane + i)).deskew =
            BitVec.ofNat 16 ((deskews (g.map GroupLane.arrival)).getD i 0) ∧
          (laneAt t ((circAt s c).firstLane + i)).state = 4) ∧
        circAt t c = { circAt s c with lockAt := s.evt.period, rxSymbols := [], rxPlace := 0 } ∧
        (l ∉ (circAt s c).lanes → laneAt t l = x) ∧
        t = { s with lane := t.lane, circ := t.circ }) ∧
    (l ∈ (circAt s c).lanes ∧ x.state ≠ 4 ∨
        pcsComplete (circAt s c).laneCount (g.map GroupLane.pcs) = false →
      exec (.groupAligned c g) s = .next s)) ∧
  (((circAt s c).created = true → (circAt s c).firstLane = l → x.state = 4 →
      (x.deskewRaised = false → x.aligned = false → mixed = true ∨ alignLate s (circAt s c) = true →
        exec (.deskewFail c mixed) s = .next (raise (304 + 4 * l + 3) (l + 3 * 256)
          (onLane l (fun x => { x with deskewRaised := true }) s))) ∧
      (x.deskewRaised = true ∨ x.aligned = true ∨ mixed = false ∧ alignLate s (circAt s c) = false →
        exec (.deskewFail c mixed) s = .next s))) ∧
  ((x.checker ≠ 0 → x.checkerLocked = false → x.check.due false = true →
      exec (.checkerLock l) s = .next (advanceChecker l (onLane l (fun x => { x with
        checkerLocked := true, check := { x.check with bits := 0, errors := 0 } }) s))) ∧
    (x.checker = 0 ∨ x.check.due false = false → exec (.checkerLock l) s = .next s) ∧
    (x.checkerLocked = true → x.check.due true = true → exec (.checkerLost l) s =
      .next (advanceChecker l (raise (304 + 4 * l + 3) (l + 4 * 256) (onLane l (fun x => { x with
        checkerLocked := false, check := { x.check with run := 0 } }) s)))) ∧
    (x.checkerLocked = false ∨ x.check.due true = false →
      exec (.checkerLost l) s = .next s) ∧
    (x.check.due false = decide (1024 ≤ x.check.run)))

/-- OP_TX_SHAPE, OP_TX_MASK and OP_TX_PRECOMP with their words in range and the combined gain
within +18 dB (the model's reading of the IQ correction's part in it, log 107) are accepted and
wait for the frame start of their coefficients; while one waits another is refused ST_BUSY (R161
to R164). OP_TX_RAMP, outside a ramp, OP_TX_HOOKS, while no hooks run, and OP_TX_OUTPUT commit and
complete; a request is refused ST_BUSY while an alert or a wind-down holds it clear (R170, R174,
R182). OP_OPT_WRITE and OP_OPT_READ of 1 to 64 words queue their transactions in order; the start
of the first is the commit (R179). OP_OPT_RESET with the output QUIET commits and holds the module
in reset, its pin low for 10 us (R181). A value out of range, or a word missing, is refused
ST_BAD_PARAM with its word, a gain over the limit with word 0 (the model's choice, log 107); words
1 and 2 of OP_TX_PRECOMP count only with its IQ update (log 165). Next states given here:
OP_TX_SHAPE, OP_TX_MASK, OP_TX_PRECOMP, OP_TX_RAMP, OP_TX_OUTPUT, OP_TX_HOOKS, OP_OPT_WRITE,
OP_OPT_READ, OP_OPT_RESET. (06_transmit_dsp.md) -/
def Obligations.TransmitCommands : Prop :=
  ∀ (j n : Nat) (f : TxFilter) (m : List Int) (w : Word) (iq : Word → Bool) (job : Job) (s : State),
    iq = (fun v => decide (-200 ≤ half v false ∧ half v false ≤ 200 ∧
      -1500 ≤ half v true ∧ half v true ≤ 1500)) →
  (Taken 0x0210 2 j job s → job.param 0 = w → f = { s.tx.filter with
      beta := fld w 3 0, boost := fld w 7 4, rms := fld w 17 8
      clipLimit := (job.param 1).extractLsb' 0 16 } →
    (1 ≤ fld w 3 0 → fld w 3 0 ≤ 12 → fld w 7 4 ≤ 6 → 64 ≤ fld w 17 8 → fld w 17 8 ≤ 192 →
      gainOk f = true →
      (s.tx.update = none → exec (.opTxShape j) s =
        .next (modJob j (fun x => { x with stage := .running })
          (s.onTx fun t => { t with update := some (j, f) }))) ∧
      (s.tx.update ≠ none → exec (.opTxShape j) s =
        .next (finish j stBusy (word (8 * 2 ^ 16)) [] s))) ∧
    ((fld w 3 0 = 0 ∨ 12 < fld w 3 0 ∨ 6 < fld w 7 4 ∨ fld w 17 8 < 64 ∨ 192 < fld w 17 8 ∨
        gainOk f = false) → exec (.opTxShape j) s =
      .next (finish j stBadParam (word (7 * 2 ^ 16)) [] s))) ∧
  (Taken 0x0211 65 j job s →
    m = (List.range 129).map (fun i => half (job.param (i / 2)) (i % 2 == 1)) →
    ((∀ v ∈ m, -400 ≤ v ∧ v ≤ 120) → fld (job.param 64) 31 16 = 0 →
      (gainOk { s.tx.filter with mask := m } = true →
        (s.tx.update = none → exec (.opTxMask j) s =
          .next (modJob j (fun x => { x with stage := .running })
            (s.onTx fun t => { t with update := some (j, { s.tx.filter with mask := m }) }))) ∧
        (s.tx.update ≠ none → exec (.opTxMask j) s =
          .next (finish j stBusy (word (8 * 2 ^ 16)) [] s))) ∧
      (gainOk { s.tx.filter with mask := m } = false → exec (.opTxMask j) s =
        .next (finish j stBadParam (word (7 * 2 ^ 16)) [] s))) ∧
    ((∀ v ∈ m, -400 ≤ v ∧ v ≤ 120) → fld (job.param 64) 31 16 ≠ 0 → exec (.opTxMask j) s =
      .next (finish j stBadParam (word (7 * 2 ^ 16 + 64)) [] s)) ∧
    (n < 129 → (m.getD n 0 < -400 ∨ 120 < m.getD n 0) →
      (∀ i, i < n → -400 ≤ m.getD i 0 ∧ m.getD i 0 ≤ 120) → exec (.opTxMask j) s =
        .next (finish j stBadParam (word (7 * 2 ^ 16 + n / 2)) [] s))) ∧
  (Taken 0x0212 3 j job s →
    (bit (job.param 0) 0 = true → bit (job.param 0) 1 = false → bit (job.param 0) 2 = false →
      bit (job.param 0) 3 = false → bit (job.param 0) 4 = false → 69 ≤ job.params.length →
      laneFault (laneOf job 3) = none → f = { s.tx.filter with xi := laneOf job 3 } →
      gainOk f = true → s.tx.update = none → exec (.opTxPrecomp j) s =
        .next (modJob j (fun x => { x with stage := .running })
          (s.onTx fun t => { t with update := some (j, f) }))) ∧
    (∀ (g : TxFilter) (r : TxFilter × Nat × Option Nat),
      g = (if bit (job.param 0) 4 then { s.tx.filter with
        gainX := half (job.param 1) false, phaseX := half (job.param 1) true
        gainY := half (job.param 2) false, phaseY := half (job.param 2) true }
        else s.tx.filter) →
      r = takeLane job 3 (fun l f => { f with yq := l })
        (takeLane job 2 (fun l f => { f with yi := l })
        (takeLane job 1 (fun l f => { f with xq := l })
        (takeLane job 0 (fun l f => { f with xi := l }) (g, 3, none)))) →
      (bit (job.param 0) 4 = true → iq (job.param 1) = true ∧ iq (job.param 2) = true) →
      (r.2.2 = none → r.2.1 ≤ job.params.length →
        (gainOk r.1 = true → s.tx.update = none → exec (.opTxPrecomp j) s =
          .next (modJob j (fun x => { x with stage := .running })
            (s.onTx fun t => { t with update := some (j, r.1) }))) ∧
        (gainOk r.1 = true → s.tx.update ≠ none → exec (.opTxPrecomp j) s =
          .next (finish j stBusy (word (8 * 2 ^ 16)) [] s)) ∧
        (gainOk r.1 = false → exec (.opTxPrecomp j) s =
          .next (finish j stBadParam (word (7 * 2 ^ 16)) [] s))) ∧
      (r.2.2 = some n → exec (.opTxPrecomp j) s =
        .next (finish j stBadParam (word (7 * 2 ^ 16 + n)) [] s)) ∧
      (r.2.2 = none → job.params.length < r.2.1 → exec (.opTxPrecomp j) s =
        .next (finish j stBadParam (word (7 * 2 ^ 16 + job.params.length)) [] s))) ∧
    (bit (job.param 0) 4 = true → (iq (job.param 1) = false → exec (.opTxPrecomp j) s =
        .next (finish j stBadParam (word (7 * 2 ^ 16 + 1)) [] s)) ∧
      (iq (job.param 1) = true → iq (job.param 2) = false → exec (.opTxPrecomp j) s =
        .next (finish j stBadParam (word (7 * 2 ^ 16 + 2)) [] s)))) ∧
  (laneFault (laneOf job 3) = none ↔
    (-1000 ≤ half (job.param 3) false ∧ half (job.param 3) false ≤ 1000 ∧
      ∀ i, i < 65 → -120 ≤ half (job.param (4 + i)) false ∧ half (job.param (4 + i)) false ≤ 360 ∧
        -200 ≤ half (job.param (4 + i)) true ∧ half (job.param (4 + i)) true ≤ 200)) ∧
  (Taken 0x0213 3 j job s → ((job.param 1).toNat = 0 ∨ 1000000 < (job.param 1).toNat →
      exec (.opTxRamp j) s = .next (finish j stBadParam (word (7 * 2 ^ 16 + 1)) [] s)) ∧
    (1 ≤ (job.param 1).toNat → (job.param 1).toNat ≤ 1000000 →
      ((job.param 2).toNat = 0 ∨ 1000000 < (job.param 2).toNat) →
      exec (.opTxRamp j) s = .next (finish j stBadParam (word (7 * 2 ^ 16 + 2)) [] s))) ∧
  (Taken 0x0213 3 j job s → job.param 0 = w → 1 ≤ (job.param 1).toNat →
    (job.param 1).toNat ≤ 1000000 → 1 ≤ (job.param 2).toNat → (job.param 2).toNat ≤ 1000000 →
    (s.tx.out ≠ .rampUp → s.tx.out ≠ .rampDown → exec (.opTxRamp j) s =
      .next (commitDone j [] (s.onTx fun t => { t with
        upCosine := bit w 0, downCosine := bit w 1, alertAction := bit w 2
        optRetries := w.extractLsb' 4 3, tUp := job.param 1, tDown := job.param 2
        request := t.request && !(bit w 2 && t.alert) }))) ∧
    ((s.tx.out = .rampUp ∨ s.tx.out = .rampDown) → exec (.opTxRamp j) s =
      .next (finish j stBusy (word (8 * 2 ^ 16)) [] s))) ∧
  (Taken 0x0214 1 j job s →
    (bit (job.param 0) 0 = false → exec (.opTxOutput j) s =
      .next (commitDone j [] (s.onTx fun t => { t with request := false }))) ∧
    (bit (job.param 0) 0 = true → requestHeld s = false → exec (.opTxOutput j) s =
      .next (commitDone j [] (s.onTx fun t => { t with request := true }))) ∧
    (bit (job.param 0) 0 = true → requestHeld s = true → exec (.opTxOutput j) s =
      .next (finish j stBusy (word (8 * 2 ^ 16)) [] s))) ∧
  (Taken 0x0215 1 j job s → (8 < fld (job.param 0) 3 0 ∨ 8 < fld (job.param 0) 7 4 →
      exec (.opTxHooks j) s = .next (finish j stBadParam (word (7 * 2 ^ 16)) [] s)) ∧
    (fld (job.param 0) 3 0 ≤ 8 → fld (job.param 0) 7 4 ≤ 8 →
      job.params.length < 1 + fld (job.param 0) 3 0 + fld (job.param 0) 7 4 →
      exec (.opTxHooks j) s =
        .next (finish j stBadParam (word (7 * 2 ^ 16 + job.params.length)) [] s))) ∧
  (Taken 0x0215 1 j job s → fld (job.param 0) 3 0 ≤ 8 → fld (job.param 0) 7 4 ≤ 8 →
    1 + fld (job.param 0) 3 0 + fld (job.param 0) 7 4 ≤ job.params.length →
    (s.tx.hooks = none → exec (.opTxHooks j) s = .next (commitDone j [] (s.onTx fun t => { t with
      upHooks := (job.params.drop 1).take (fld (job.param 0) 3 0)
      quietHooks := (job.params.drop (1 + fld (job.param 0) 3 0)).take
        (fld (job.param 0) 7 4) }))) ∧
    (s.tx.hooks ≠ none → exec (.opTxHooks j) s =
      .next (finish j stBusy (word (8 * 2 ^ 16)) [] s))) ∧
  ((job.param 0).toNat = n →
    (Taken 0x0220 1 j job s →
      (1 ≤ n → n ≤ 64 → n < job.params.length → exec (.opOptWrite j) s =
        .next (portNext (modJob j (fun x => { x with stage := .running }) (s.onTx fun t => { t with
          hostQueue := t.hostQueue ++ transOf (some j) false ((job.params.drop 1).take n) })))) ∧
      (n = 0 ∨ 64 < n → exec (.opOptWrite j) s =
        .next (finish j stBadParam (word (7 * 2 ^ 16)) [] s)) ∧
      (1 ≤ n → n ≤ 64 → job.params.length ≤ n → exec (.opOptWrite j) s =
        .next (finish j stBadParam (word (7 * 2 ^ 16 + job.params.length)) [] s))) ∧
    (Taken 0x0221 1 j job s →
      (1 ≤ n → n ≤ 64 → n < job.params.length → exec (.opOptRead j) s =
        .next (portNext (modJob j (fun x => { x with stage := .running }) (s.onTx fun t => { t with
          hostQueue := t.hostQueue ++ transOf (some j) true ((job.params.drop 1).take n) })))) ∧
      (n = 0 ∨ 64 < n → exec (.opOptRead j) s =
        .next (finish j stBadParam (word (7 * 2 ^ 16)) [] s)) ∧
      (1 ≤ n → n ≤ 64 → job.params.length ≤ n → exec (.opOptRead j) s =
        .next (finish j stBadParam (word (7 * 2 ^ 16 + job.params.length)) [] s)))) ∧
  (Taken 0x0222 0 j job s →
    (s.tx.out = .quiet → exec (.opOptReset j) s = .next (commit j (s.onTx fun t => { t with
      resetActive := true, optResetJobs := t.optResetJobs ++ [(j, s.evt.period)] })) ∧
      optResetLow (s.onTx fun t => { t with
        resetActive := true, optResetJobs := t.optResetJobs ++ [(j, s.evt.period)] }) = true) ∧
    (s.tx.resetActive = true → s.tx.optResetJobs ≠ [] → (optResetLow s = true ↔
      ∃ q ∈ s.tx.optResetJobs, (s.evt.period - q.2).toNat < 2500)) ∧
    (s.tx.resetActive = false → optResetLow s = false) ∧
    (s.tx.out ≠ .quiet → exec (.opOptReset j) s =
      .next (finish j stBusy (word (8 * 2 ^ 16)) [] s)))

/-- The request register takes a 1 only while nothing holds it clear. At a frame start in code P
the request is sampled: QUIET starts up once its synthesiser is locked (R168), ON ramps down, and
a ramp turns about at the position that keeps launched power (R170, R171); a ready filter update
takes effect and commits (R164); a waiting frame is sent, as a whey frame, without containers and
encryption, unless the output is ON (R50, R102), and its levels go to the DSP with the filter,
rate, output state, position, ramp time and profile of its start (R169); a superframe that starts
counts for the keys in use (R116; the model's reading, log 78). No receive setting commits there
(R226). A ramp ends ON or QUIET once its position has reached 1 or 0. A clip window compares the
clipped samples of its millisecond on each lane with the limit (R166). Losing the DAC synthesiser
drops the output to QUIET and clears the request (R168); an alert sets its level and, with
ALERT_ACTION, clears the request (R174). The optics port carries one transaction at a time:
acknowledged ones go on to the next, a refused one ends its command, another error is retried 10
us later up to its limit and then ends it ST_TIMEOUT (R178 to R180); in a reset a retry waits.
Each reset command completes after its own 10 us and the millisecond that follows, and the port
opens after the last (R181; the model's reading of several, log 115). Next states given here:
OPT_RESET_END, OPT_TRANSACTION_END, OPT_RETRY, OPT_ALERT_FALL, OPT_ALERT_RISE, TXDSP_OUTPUT_WRITE,
TX_FRAME_START, RAMP_UP_DONE, RAMP_DOWN_DONE, DAC_CLIP_WINDOW, DAC_SYNTH_UNLOCK, DAC_SYNTH_LOCK.
(06_transmit_dsp.md) -/
def Obligations.TransmitEvents : Prop :=
  ∀ (j : Nat) (ready : Bool) (w : Word) (status crc : BitVec 8) (data : BitVec 16)
    (k : Nat) (p : Quad) (l : List (Nat × Quad)) (o : OptWire) (f : TxFilter) (r : LineFrame)
    (job : Job) (s : State),
  ((s.codeP = true → requestHeld s = false → exec (.txdspOutputWrite w) s =
      .next (s.onTx fun t => { t with request := bit w 0 })) ∧
    (s.codeP = false ∨ requestHeld s = true ∧ bit w 0 = true →
      exec (.txdspOutputWrite w) s = .next s)) ∧
  (s.codeP = true → Gives (.txFrameStart ready) s fun t => t.rx = s.rx ∧
    t.tx.sampled = s.tx.request ∧ t.tx.request = s.tx.request ∧
    (s.tx.out = .quiet → s.tx.request = true → s.tx.synthLocked = false → t.tx.out = .quiet) ∧
    (s.tx.out = .quiet → s.tx.request = true → s.tx.synthLocked = true → s.tx.hooks = none →
      s.tx.upHooks = [] →
      t.tx.out = .rampUp ∧ t.tx.phi = 0 ∧ t.tx.phiAt = s.evt.period) ∧
    (s.tx.out = .quiet → s.tx.request = false → t.tx.out = .quiet) ∧
    (s.tx.out = .on → s.tx.request = false → t.tx.out = .rampDown ∧ t.tx.phi = 1) ∧
    (s.tx.out = .on → s.tx.request = true → t.tx.out = .on) ∧
    (s.tx.out = .rampUp → s.tx.request = false → t.tx.out = .rampDown ∧
      t.tx.phi = reversePhi s.tx.upCosine s.tx.downCosine (phiNow s)) ∧
    (s.tx.out = .rampDown → s.tx.request = true → t.tx.out = .rampUp ∧
      t.tx.phi = reversePhi s.tx.downCosine s.tx.upCosine (phiNow s)) ∧
    (ready = true → s.tx.update = some (j, f) → t.tx.filter = f ∧ t.tx.update = none ∧
      (findJob j s = some job → Ended j stOk true [] t)) ∧
    ((ready = false ∨ s.tx.update = none) → t.tx.filter = s.tx.filter) ∧
    (s.frm.ready = some r → t.frm.ready = none ∧ t.frm.sending = true ∧
      t.frm.txCount = r.frame.count ∧ t.frm.txSel = r.frame.sel ∧ t.frm.txNext = r.frame.next ∧
      t.frm.txWhey = (r.whey || t.tx.out != .on) ∧
      t.tx.before = s.tx.now.levels ∧ t.tx.now.filter = t.tx.filter ∧
      t.tx.now.rate = s.prof.rate ∧ t.tx.now.out = t.tx.out ∧ t.tx.now.phi = phiNow t ∧
      t.tx.now.since = s.evt.period ∧
      t.tx.now.time = (if t.tx.out = .rampDown then s.tx.tDown else s.tx.tUp) ∧
      t.tx.now.cosine = (if t.tx.out = .rampDown then s.tx.downCosine else s.tx.upCosine) ∧
      (t.frm.txWhey = true → t.cry = (superframeStarts r.frame.count s).cry ∧ t.tx.now.levels = frameLevels r.frame.prof true
        (byteBits (withDataValid r.overhead false) ++ List.replicate (frameBitCount r.frame.prof -
          (byteBits (withDataValid r.overhead false)).length) false))) ∧
    (s.frm.ready = none → t.frm = s.frm)) ∧
  (s.codeP = false → exec (.txFrameStart ready) s = .next s) ∧
  ((s.tx.out = .rampUp → 1 ≤ phiNow s →
      exec .rampUpDone s = .next (raise 160 0 (enterOut .on 1 s))) ∧
    (s.tx.out ≠ .rampUp ∨ phiNow s < 1 → exec .rampUpDone s = .next s) ∧
    (s.tx.out = .rampDown → phiNow s ≤ 0 → s.tx.quietHooks = [] →
      exec .rampDownDone s = .next (raise 161 0 (enterOut .quiet 0 s))) ∧
    (s.tx.out = .rampDown → phiNow s ≤ 0 → s.tx.quietHooks ≠ [] →
      exec .rampDownDone s =
        .next (runHooks .quiet s.tx.quietHooks (raise 161 0 (enterOut .quiet 0 s)))) ∧
    (s.tx.out ≠ .rampDown ∨ 0 < phiNow s → exec .rampDownDone s = .next s)) ∧
  (s.codeP = true →
    (250000 ≤ (s.evt.period - s.tx.clipAt).toNat → exec (.dacClipWindow k) s =
      .next (clipWindow 163 s.tx.filter.clipLimit.toNat (addCounts s.tx.clipSum
          (laneCounts (s.tx.clips.filter fun e => decide (e.2 < k))))
        (s.onTx fun t => { t with
          clipAt := s.evt.period, clips := t.clips.filter fun e => decide (k ≤ e.2)
          clipSum := { xi := 0, xq := 0, yi := 0, yq := 0 } }))) ∧
    ((s.evt.period - s.tx.clipAt).toNat < 250000 → exec (.dacClipWindow k) s = .next s) ∧
    exec .dacSynthUnlock s = .next (raise 164 0 (s.onTx fun t => { t with
      synthLocked := false, out := .quiet, phi := 0, request := false, upReady := false
      now := { t.now with cut := some (t.now.cut.getD s.evt.period) } })) ∧
    exec .dacSynthLock s = .next (s.onTx fun t => { t with synthLocked := true })) ∧
  (s.codeP = false → ∀ c ∈ [Instr.dacClipWindow k, .dacSynthUnlock, .dacSynthLock],
    exec c s = .next s) ∧
  (exec .optAlertFall s = .next (setLevel 165 true (s.onTx fun t => { t with
      alert := true, request := t.request && !t.alertAction })) ∧
    exec .optAlertRise s = .next (setLevel 165 false (s.onTx fun t => { t with alert := false }))) ∧
  ((s.tx.wire = some o → o.onWire = true →
      (status = 0xA5 → (o.trans.read = true →
          crc.toNat = optCrc true o.trans.addr data) → exec (.optTransactionEnd status data crc) s =
        .next (portNext (transDone o.trans data (s.onTx fun t => { t with lastStatus := 0xA5 })))) ∧
      (status = 0x5A → exec (.optTransactionEnd status data crc) s =
        .next (portNext (transFailed o.trans stBadParam (word (7 * 2 ^ 16 + (o.trans.index + 1)))
          (s.onTx fun t => { t with lastStatus := 0x5A })))) ∧
      (status ≠ 0x5A → (status ≠ 0xA5 ∨ o.trans.read = true ∧
          crc.toNat ≠ optCrc true o.trans.addr data) →
        (o.retries < s.tx.optRetries.toNat → exec (.optTransactionEnd status data crc) s =
          .next (s.onTx fun t => { t with
            lastStatus := status
            wire := some { o with onWire := false, failedAt := s.evt.period } })) ∧
        (s.tx.optRetries.toNat ≤ o.retries → exec (.optTransactionEnd status data crc) s =
          .next (portNext (raise 166 0 (transFailed o.trans stTimeout 0
            (s.onTx fun t => { t with lastStatus := status }))))))) ∧
    (s.tx.wire = none → exec (.optTransactionEnd status data crc) s = .next s) ∧
    (s.tx.wire = some o → o.onWire = false → 2500 ≤ (s.evt.period - o.failedAt).toNat →
      (s.tx.resetActive = false → exec .optRetry s =
        .next (errAdd 0xA0038 1 (s.onTx fun t => { t with
          wire := some { o with onWire := true, due := false, retries := o.retries + 1 } }))) ∧
      (s.tx.resetActive = true → exec .optRetry s =
        .next (s.onTx fun t => { t with wire := some { o with due := true } }))) ∧
    (s.tx.wire = none ∨ s.tx.wire = some o ∧
        (o.onWire = true ∨ (s.evt.period - o.failedAt).toNat < 2500) →
      exec .optRetry s = .next s)) ∧
  ((s.tx.resetActive = true → s.codeS = true → s.tx.optResetJobs = (j, p) :: l →
      252500 ≤ (s.evt.period - p).toNat →
      findJob j s = some job → job.stage = .working → job.committed = true →
      (∀ q ∈ s.tx.hostQueue, q.job ≠ some j) → Gives .optResetEnd s fun t =>
        t.tx.resetActive = !l.isEmpty ∧ t.tx.optResetJobs = l ∧ Ended j stOk true [] t) ∧
    (s.tx.resetActive = true → s.tx.optResetJobs = (j, p) :: l →
      (s.evt.period - p).toNat < 252500 → exec .optResetEnd s = .next s) ∧
    (s.tx.resetActive = false ∨ s.codeS = false → exec .optResetEnd s = .next s))

/-- With its words in range each of OP_RX_FRONTEND, OP_RX_CD, OP_RX_SEPARATOR, OP_RX_TIMING,
OP_RX_CARRIER and OP_RX_THRESH is accepted and waits while code P runs; it commits and completes
at the next received frame start (the model's reading of R226, which says frame start alone: log
25), in order of acceptance, and where code P stands still at acceptance (log 25). A word out of
range is refused ST_BAD_PARAM with its number, all of OP_RX_CD's words checked whatever CD_MODE
(log 26); a change of INVERT or N outside READY, or of T in TRAFFIC, is refused ST_MODE. In
ACQUIRE OP_RX_CD, OP_RX_TIMING, and OP_RX_SEPARATOR with a new T restart the machine at A1 as they
commit. A fixed dispersion committed from A3 on waits for the next frame start, what waited before
taking effect first (log 122); a new T keeps the separator's centre tap (log 168). Next states
given here: OP_RX_FRONTEND, OP_RX_CD, OP_RX_SEPARATOR, OP_RX_TIMING, OP_RX_CARRIER, OP_RX_THRESH,
RX_FRAME_START. (07_receive_dsp.md) -/
def Obligations.ReceiveCommands : Prop :=
  ∀ (j k : Nat) (e : Nat × BitVec 16 × List Word) (rest : List (Nat × BitVec 16 × List Word))
    (p : List Word) (m : RxMeasure) (bad : Nat → Word → Bool) (cd sep : Bool) (job : Job)
    (s t : State),
    bad = (fun i v => if i ≤ 2 then
        decide (half v false < -200 ∨ 200 < half v false ∨ half v true < -1500 ∨ 1500 < half v true)
      else decide (half v false < -1000 ∨ 1000 < half v false)) →
    cd = cdOk s.prof.rate (job.param 4).toNat (fld (job.param 0) 6 4) (wordInt (job.param k)) →
    sep = decide (fld (job.param 0) 7 4 ≤ 12 ∧ fld (job.param 0) 11 8 ≤ 12) →
  (t = (if s.codeP then modJob j (fun x => { x with stage := .running })
      (s.onRx fun r => { r with pend := r.pend ++ [(j, job.opcode, job.params)] })
    else commitDone j [] (applyRx job.opcode job.params s)) →
    (Taken 0x0230 7 j job s → (∀ i ∈ [1, 2, 3, 4, 5, 6], bad i (job.param i) = false) →
      (s.pwr.mode = .ready ∨ rxInverts (takeFrontend job.params s.rx.cfg) = rxInverts s.rx.cfg) →
      exec (.opRxFrontend j) s = .next t) ∧
    (Taken 0x0231 5 j job s → fld (job.param 0) 6 4 ≤ 4 →
      145000 ≤ (job.param 4).toNat → (job.param 4).toNat ≤ 165000 →
      (∀ i ∈ [1, 2, 3], cdOk s.prof.rate (job.param 4).toNat (fld (job.param 0) 6 4)
        (wordInt (job.param i)) = true) →
      wordInt (job.param 1) ≤ wordInt (job.param 2) →
      (s.pwr.mode = .ready ∨ fld (job.param 0) 6 4 = s.rx.cfg.nCode) →
      exec (.opRxCd j) s = .next t) ∧
    (Taken 0x0232 2 j job s → fld (job.param 0) 7 4 ≤ 12 → fld (job.param 0) 11 8 ≤ 12 →
      4 ≤ fld (job.param 1) 4 0 → fld (job.param 1) 4 0 ≤ 16 →
      4 ≤ fld (job.param 1) 15 8 → fld (job.param 1) 15 8 ≤ 64 →
      (s.pwr.mode ≠ .traffic ∨ fld (job.param 0) 1 0 = s.rx.cfg.tCode.toNat) →
      exec (.opRxSeparator j) s = .next t) ∧
    (Taken 0x0233 1 j job s → exec (.opRxTiming j) s = .next t) ∧
    (Taken 0x0234 2 j job s → 100 ≤ (job.param 1).toNat → (job.param 1).toNat ≤ 8000 →
      exec (.opRxCarrier j) s = .next t) ∧
    (Taken 0x0235 3 j job s → exec (.opRxThresh j) s = .next t)) ∧
  (Taken 0x0230 7 j job s →
    (1 ≤ k → k ≤ 6 → bad k (job.param k) = true →
      (∀ i, 1 ≤ i → i < k → bad i (job.param i) = false) → exec (.opRxFrontend j) s =
        .next (finish j stBadParam (word (7 * 2 ^ 16 + k)) [] s)) ∧
    ((∀ i ∈ [1, 2, 3, 4, 5, 6], bad i (job.param i) = false) → s.pwr.mode ≠ .ready →
      rxInverts (takeFrontend job.params s.rx.cfg) ≠ rxInverts s.rx.cfg →
      exec (.opRxFrontend j) s = .next (finish j stMode (word s.pwr.mode.code) [] s))) ∧
  (Taken 0x0231 5 j job s →
    (4 < fld (job.param 0) 6 4 → exec (.opRxCd j) s =
      .next (finish j stBadParam (word (7 * 2 ^ 16)) [] s)) ∧
    (fld (job.param 0) 6 4 ≤ 4 →
      ((job.param 4).toNat < 145000 ∨ 165000 < (job.param 4).toNat → exec (.opRxCd j) s =
        .next (finish j stBadParam (word (7 * 2 ^ 16 + 4)) [] s)) ∧
      (145000 ≤ (job.param 4).toNat → (job.param 4).toNat ≤ 165000 →
        (wordInt (job.param 2) < wordInt (job.param 1) ∨ k = 1 ∧ cd = false →
          exec (.opRxCd j) s = .next (finish j stBadParam (word (7 * 2 ^ 16 + 1)) [] s)) ∧
        (wordInt (job.param 1) ≤ wordInt (job.param 2) →
          (k = 2 ∨ k = 3) → cd = false →
          (∀ i, 1 ≤ i → i < k → cdOk s.prof.rate (job.param 4).toNat (fld (job.param 0) 6 4)
            (wordInt (job.param i)) = true) → exec (.opRxCd j) s =
            .next (finish j stBadParam (word (7 * 2 ^ 16 + k)) [] s)) ∧
        ((∀ i ∈ [1, 2, 3], cdOk s.prof.rate (job.param 4).toNat (fld (job.param 0) 6 4)
            (wordInt (job.param i)) = true) →
          wordInt (job.param 1) ≤ wordInt (job.param 2) → s.pwr.mode ≠ .ready →
          fld (job.param 0) 6 4 ≠ s.rx.cfg.nCode → exec (.opRxCd j) s =
            .next (finish j stMode (word s.pwr.mode.code) [] s))))) ∧
  (Taken 0x0232 2 j job s →
    (sep = false → exec (.opRxSeparator j) s =
      .next (finish j stBadParam (word (7 * 2 ^ 16)) [] s)) ∧
    (sep = true →
      (fld (job.param 1) 4 0 < 4 ∨ 16 < fld (job.param 1) 4 0 ∨ fld (job.param 1) 15 8 < 4 ∨
          64 < fld (job.param 1) 15 8 → exec (.opRxSeparator j) s =
        .next (finish j stBadParam (word (7 * 2 ^ 16 + 1)) [] s)) ∧
      (s.pwr.mode = .traffic → fld (job.param 0) 1 0 ≠ s.rx.cfg.tCode.toNat →
        4 ≤ fld (job.param 1) 4 0 → fld (job.param 1) 4 0 ≤ 16 → 4 ≤ fld (job.param 1) 15 8 →
        fld (job.param 1) 15 8 ≤ 64 → exec (.opRxSeparator j) s =
          .next (finish j stMode (word s.pwr.mode.code) [] s)))) ∧
  (Taken 0x0234 2 j job s → ((job.param 1).toNat < 100 ∨ 8000 < (job.param 1).toNat) →
    exec (.opRxCarrier j) s = .next (finish j stBadParam (word (7 * 2 ^ 16 + 1)) [] s)) ∧
  (s.codeP = true → Gives (.rxFrameStart m) s fun t => t.rx.pend = [] ∧
    t.rx.cfg = (s.rx.pend.foldl (fun s e => applyRx e.2.1 e.2.2 s) s).rx.cfg ∧
    (∀ e ∈ s.rx.pend, findJob e.1 s ≠ none → Ended e.1 stOk true [] t)) ∧
  (s.rx.pend = e :: rest → commitRx s = rest.foldl
    (fun s e => commitDone e.1 [] (applyRx e.2.1 e.2.2 s))
    (commitDone e.1 [] (applyRx e.2.1 e.2.2 (s.onRx fun r => { r with pend := [] })))) ∧
  ((applyRx 0x0230 p s) = s.onRx (fun r => { r with
      cfg := takeFrontend p r.cfg, fe := frontStart (takeFrontend p r.cfg), feEst := [] }) ∧
    (applyRx 0x0234 p s) = s.onRx (fun r => { r with cfg := takeCarrier p r.cfg }) ∧
    (applyRx 0x0235 p s) = s.onRx (fun r => { r with cfg := takeThresh p r.cfg }) ∧
    (applyRx 0x0231 p s).rx.cfg = takeCd p s.rx.cfg ∧
    (applyRx 0x0232 p s).rx.cfg = takeSeparator p s.rx.cfg ∧
    (applyRx 0x0233 p s).rx.cfg = { s.rx.cfg with trBw := (p.getD 0 0).extractLsb' 0 2 } ∧
    (s.pwr.mode = .acquire → (applyRx 0x0231 p s).rx.acq = 1 ∧ (applyRx 0x0233 p s).rx.acq = 1 ∧
      ((p.getD 0 0).extractLsb' 0 2 ≠ s.rx.cfg.tCode → (applyRx 0x0232 p s).rx.acq = 1)) ∧
    ((p.getD 0 0).extractLsb' 0 2 = s.rx.cfg.tCode → (applyRx 0x0232 p s) =
      s.onRx (fun r => { r with cfg := takeSeparator p r.cfg })) ∧
    (s.pwr.mode ≠ .acquire → (applyRx 0x0231 p s).rx.acq = s.rx.acq ∧
      (applyRx 0x0233 p s).rx.acq = s.rx.acq ∧ (applyRx 0x0232 p s).rx.acq = s.rx.acq ∧
      ((p.getD 0 0).extractLsb' 0 2 ≠ s.rx.cfg.tCode → (applyRx 0x0232 p s).rx.path =
        retap (15 + 16 * fld (p.getD 0 0) 1 0) s.rx.path) ∧
      ((takeCd p s.rx.cfg).cdFixedMode = true → 3 ≤ s.rx.acq →
        (applyRx 0x0231 p s).rx.cdNext = some ((wordInt (p.getD 3 0) : Rat), false) ∧
        (∀ d, s.rx.cdNext = some d → (applyRx 0x0231 p s).rx.cdApplied = d.1)) ∧
      ((takeCd p s.rx.cfg).cdFixedMode = false →
        (applyRx 0x0231 p s).rx.cdNext = s.rx.cdNext)))

/-- Each exit moves the machine to the next state and raises its source, only from its own state:
A1 with the ADC synthesiser locked and 10 us of codes at the signal threshold, counted from the
later of its entry and the lock, to A2, or to A3 with a fixed dispersion; A2 at the end of its
scan to A3 with the value found, for the next frame start; A3 after a frame, and within 3.5 GHz,
to A4; A4 to A5 once both loops are locked and four frames had their pilot SNR (R216, R553, R554).
A limit restarts A2 at A2, A3 at A2 or A3, A4 at A3, and A5's at A3 (R216, R218). A confirmed
power step (log 121), loss of signal or loss of the ADC synthesiser (log 27) restarts at A1 from
A2 on; timing and carrier unlock restart A5 at A3; from A6 each is a loss of frame, counted with
its cause, which takes TRAFFIC to ACQUIRE with every created circuit on client fill (R217, R219 to
R222, R91). A loss in the very cycle in which a command has taken the machine from A6 is recorded
and counted alone (R224; the cycle is the model's reading, logs 124 and 166). Outside its states
an event changes nothing, but that the codes it brings reach the datapath. Next states given here:
ACQ_SIGNAL_DETECTED, CD_FOUND, FRAME_SYNC_FOUND, CONVERGED, ACQ_TIMEOUT, ACQ_DECODE_FAIL,
POWER_STEP, LOS, TIMING_UNLOCK, CARRIER_UNLOCK, ADC_SYNTH_UNLOCK, ADC_SYNTH_LOCK,
TIMING_RECOVERY_LOCK. (07_receive_dsp.md) -/
def Obligations.AcquisitionMachine : Prop :=
  ∀ (d cause n coarse fine : Nat) (codes : List FourCodes) (f : SyncFound) (q : Rat) (low : Bool)
    (s u : State),
  (u = (if s.codeP then feedCodes codes s else s) →
    (u.rx.acq = 1 → u.rx.adcLocked = true →
        10 * usSamples u.prof.rate ≤ u.rx.path.meter.strong →
      (u.rx.cfg.cdFixedMode = false → exec (.acqSignalDetected codes) s =
        .next (toAcq 2 false (setLevel 177 false (raise 176 0 (u.onRx fun r => { r with
          signal := true, los := false }))))) ∧
      (u.rx.cfg.cdFixedMode = true → Gives (.acqSignalDetected codes) s fun t => t.rx.acq = 3 ∧
        t.rx.cdNext = some ((u.rx.cfg.cdFixed : Rat), false) ∧ t.rx.signal = true ∧
        t.pwr = s.pwr)) ∧
    (u.rx.acq ≠ 1 ∨ u.rx.adcLocked = false ∨
        u.rx.path.meter.strong < 10 * usSamples u.prof.rate →
      exec (.acqSignalDetected codes) s = .next u) ∧
    (s.codeP = true →
      (u.rx.path.meter.step = true → exec (.powerStep codes) s =
        .next (signalLost 2 (skimTrigger 2 (raise 183 0 (errAdd 0xB0078 1
          (u.onRx fun r => { r with path := { r.path with
            meter := { r.path.meter with step := false, strong := 0 } } })))))) ∧
      (u.rx.path.meter.step = false → exec (.powerStep codes) s = .next u) ∧
      (usSamples u.prof.rate ≤ u.rx.path.meter.squares.length →
        low = !powerReaches u.prof.rate u.rx.cfg.losRms.toNat u.rx.path.meter →
        (low = true → exec (.los codes) s =
          .next (signalLost 1 (setLevel 177 true (u.onRx fun r => { r with
            los := true, signal := false })))) ∧
        (low = false → exec (.los codes) s =
          .next (setLevel 177 false (u.onRx fun r => { r with los := false, signal := true })))) ∧
      (u.rx.path.meter.squares.length < usSamples u.prof.rate →
        exec (.los codes) s = .next u)) ∧
    u.rx.acq = s.rx.acq ∧ u.rx.cfg = s.rx.cfg ∧ u.rx.adcLocked = s.rx.adcLocked ∧
    u.prof = s.prof) ∧
  ((s.rx.acq = 2 → 250 * scanTime s.rx.cfg s.prof.rate ≤ (s.evt.period - s.rx.since).toNat →
      fineCd s.rx.cfg s.prof.rate coarse fine = some q → exec (.cdFound ⟨coarse, fine⟩) s =
        .next ((toAcq 3 false (raise 178 0 s)).onRx fun r => { r with cdNext := some (q, false) })) ∧
    (s.rx.acq ≠ 2 ∨ fineCd s.rx.cfg s.prof.rate coarse fine = none →
      exec (.cdFound ⟨coarse, fine⟩) s = .next s)) ∧
  ((s.rx.acq = 3 → f.cfo.natAbs ≤ 3500000 →
      1048576 ≤ (s.evt.period - s.rx.since).toNat * s.prof.rate →
      exec (.frameSyncFound f) s =
        .next (checkCfo f.cfo (startLoops f (toAcq 4 false (raise 179 0 s)))) ∧
      (startLoops f s).rx.cfo = f.cfo) ∧
    (s.rx.acq ≠ 3 ∨ 3500000 < f.cfo.natAbs → exec (.frameSyncFound f) s = .next s)) ∧
  ((s.rx.acq = 4 → s.rx.timingLocked = true → s.rx.carrierLocked = true → 4 ≤ s.rx.snrRun →
      exec .converged s = .next (toAcq 5 false (raise 180 0 s))) ∧
    (s.rx.acq ≠ 4 ∨ s.rx.timingLocked = false ∨ s.rx.carrierLocked = false ∨ s.rx.snrRun < 4 →
      exec .converged s = .next s)) ∧
  ((limitPassed s = true →
      (s.rx.acq = 2 → exec .acqTimeout s = .next (toAcq 2 false (raise 184 0 s))) ∧
      (s.rx.acq = 3 → s.rx.cfg.cdFixedMode = false →
        exec .acqTimeout s = .next (toAcq 2 false (raise 184 0 s))) ∧
      (s.rx.acq = 3 → s.rx.cfg.cdFixedMode = true →
        exec .acqTimeout s = .next (toAcq 3 false (raise 184 0 s))) ∧
      (s.rx.acq = 4 → exec .acqTimeout s = .next (toAcq 3 false (raise 184 0 s))) ∧
      (s.rx.acq = 5 → exec .acqDecodeFail s =
        .next (toAcq 3 false (raiseLimited (185 * 2 ^ 16) 185 (min s.rx.crcPassed 0xFFFF) s)))) ∧
    (limitPassed s = false → exec .acqTimeout s = .next s ∧ exec .acqDecodeFail s = .next s) ∧
    (s.rx.acq ≠ 5 → exec .acqDecodeFail s = .next s) ∧
    (s.rx.acq = 4 → limitPassed s = decide (500000 ≤ (s.evt.period - s.rx.since).toNat)) ∧
    (s.rx.acq = 3 ∨ s.rx.acq = 5 → limitPassed s =
      decide (64 * 1048576 ≤ (s.evt.period - s.rx.since).toNat * s.prof.rate))) ∧
  ((4 ≤ s.rx.acq →
      (s.prof.rate * 25000 ≤ s.rx.path.quiet → exec .timingRecoveryLock s =
        .next (settleLineclk (s.onRx fun r => { r with
          timingLocked := true, path := { r.path with stray := false } }))) ∧
      (s.rx.path.stray = true → exec .timingUnlock s = .next (loopUnlocked 5 (s.onRx fun r =>
        { r with timingLocked := false, path := { r.path with stray := false } }))) ∧
      (s.rx.path.wild = true → exec .carrierUnlock s = .next (loopUnlocked 6 (s.onRx fun r =>
        { r with carrierLocked := false, path := { r.path with wild := false } })))) ∧
    (s.rx.acq < 4 ∨ s.rx.path.quiet < s.prof.rate * 25000 →
      exec .timingRecoveryLock s = .next s) ∧
    (s.rx.acq < 4 ∧ heldFromLock s = false ∨ s.rx.path.stray = false →
      exec .timingUnlock s = .next s) ∧
    (s.rx.acq < 4 ∧ heldFromLock s = false ∨ s.rx.path.wild = false →
      exec .carrierUnlock s = .next s)) ∧
  (s.codeP = true →
    exec .adcSynthUnlock s = .next (signalLost 7 (raise 186 0 (s.onRx fun r =>
      { r with adcLocked := false }))) ∧
    exec .adcSynthLock s = .next (s.onRx fun r => { r with
      adcLocked := true
      path := { r.path with meter := { r.path.meter with strong := 0 } } })) ∧
  (s.codeP = false → ∀ c ∈ [Instr.powerStep codes, .los codes, .adcSynthUnlock, .adcSynthLock],
    exec c s = .next s) ∧
  ((s.rx.acq < 2 → heldFromLock s = false → signalLost cause s = s) ∧
    (heldFromLock s = true →
      signalLost cause s = recordLof cause s ∧ loopUnlocked cause s = recordLof cause s) ∧
    (heldFromLock s = true ↔ s.rx.acq = 0 ∧
      ∃ h, s.rx.held = some h ∧ h.since = s.evt.period ∧ h.acq = 6) ∧
    (2 ≤ s.rx.acq → s.rx.acq ≤ 5 → signalLost cause s = toAcq 1 false s) ∧
    (s.rx.acq = 5 → loopUnlocked cause s = toAcq 3 true s) ∧
    (s.rx.acq = 6 → signalLost cause s = lossOfFrame cause 1 s ∧
      loopUnlocked cause s = lossOfFrame cause 3 s)) ∧
  ((lossOfFrame cause n s).rx.acq = n ∧
    (lossOfFrame cause n s).rx.lastLof = BitVec.ofNat 4 cause ∧
    (lossOfFrame cause n s).pwr =
      (if s.pwr.mode = .traffic then { s.pwr with mode := .acquire } else s.pwr) ∧
    (s.pwr.mode = .traffic → (circAt s d).created = true → clientLoop s d = false →
      (circAt (lossOfFrame cause n s) d).egressFill = true) ∧
    (s.pwr.mode ≠ .traffic → (lossOfFrame cause n s).circ = s.circ)) ∧
  ((toAcq n false s).rx.acq = n ∧ (toAcq n false s).rx.frames = 0 ∧
    (toAcq n false s).rx.since = s.evt.period ∧ (toAcq n false s).rx.held = none ∧
    (toAcq n false s).rx.timingLocked = (s.rx.timingLocked && decide (4 ≤ n)) ∧
    (toAcq n false s).rx.carrierLocked = (s.rx.carrierLocked && decide (4 ≤ n)) ∧
    (n ≠ 6 → (toAcq n false s).rx.cdEst = 0) ∧
    (n = 1 → (toAcq n false s).rx.path.meter.strong = 0) ∧
    (toAcq n false s).rx.cfg = s.rx.cfg ∧ (toAcq n false s).pwr = s.pwr ∧
    (toAcq n false s).tx = s.tx ∧ (toAcq n false s).cmd = s.cmd)

/-- At a received frame start in code P with no setting waiting (those that wait commit as
ReceiveCommands states) the codes of the frame reach the datapath and a new dispersion takes
effect (R198); outside A0 the frame's power and heavy clipping are recorded, in A4 and later its
quality, and the fourth failed sync in a row in A6 is a loss of frame (R193, R200, R222, R225),
recorded and counted alone where a command took the machine from A6 in this cycle (R224, logs 124
and 166). A restarted A3 goes to A2 after eight frames (R223). A clipped sample sets CLIPPING for
1 ms, and a 1 ms window counts its clipped samples (R194, R228). A tracking estimate, once a
second, farther off than one step moves the applied dispersion one step at the next frame, or
raises CD_OUT_OF_RANGE (R197). The whey detector decides a frame once, when all its periods have
been worked out, at a quarter of the mean power (R202). With LO_ENABLE in A5 and A6 a mean offset
of an interval beyond the dead band sends a step that keeps the sum within LO_RANGE, a second
without a message a keep-alive; an acknowledgement adds the step, and a message is retried after
10 us up to its limit and then given up with its source raised; each later interval sends that
message again, and one still in its retries is left to them (R209 to R212; logs 29 and 125, and
the first SEQ, log 167). Next states given here: RX_FRAME_START, WHEY_DETECTOR_DECISION,
ADC_CLIP_WINDOW, CD_TRACK_UPDATE, LO_STEER_INTERVAL, LO_KEEPALIVE, LO_ACK, LO_RETRY.
(07_receive_dsp.md) -/
def Obligations.ReceivedFramesAndSteering : Prop :=
  ∀ (m : RxMeasure) (k n : Nat) (codes : List FourCodes) (est d : Int) (fs : List Int) (mean : Rat)
    (cl : FourCounts) (x : LoMsg) (s u : State),
  (s.codeP = true → s.rx.pend = [] → s.rx.cdNext = none →
    u = readCoeffs (feedCodes m.codes s) →
    (s.rx.acq = 0 → (∀ h, s.rx.held = some h → h.since = s.evt.period → h.acq = 6 →
        3 ≤ h.syncFails → syncGood s.rx.path = true) → exec (.rxFrameStart m) s = .next s) ∧
    (∀ h, s.rx.acq = 0 → s.rx.held = some h → h.since = s.evt.period → h.acq = 6 →
      3 ≤ h.syncFails → syncGood s.rx.path = false →
      exec (.rxFrameStart m) s = .next (recordLof 3 s)) ∧
    (s.rx.acq ≠ 0 → Gives (.rxFrameStart m) s fun t =>
      t.rx.power = word ((axisRms u.rx.path.energyX u.rx.path.samples).toNat +
        (axisRms u.rx.path.energyY u.rx.path.samples).toNat * 2 ^ 16) ∧
      t.rx.clipHeavy = decide (1048576 < 4 * u.rx.path.taintedPeriods) ∧
      t.rx.cdApplied = s.rx.cdApplied ∧ t.rx.cfg = s.rx.cfg ∧
      (s.rx.acq < 4 → t.rx.snr = s.rx.snr ∧ t.rx.fe = s.rx.fe) ∧
      (4 ≤ s.rx.acq → t.rx.snr = word (wrapInt 16 (pilotSnr u.rx.path u.rx.path.noiseX) +
        wrapInt 16 (pilotSnr u.rx.path u.rx.path.noiseY) * 2 ^ 16)) ∧
      (s.rx.acq = 3 → s.rx.restarted = true → s.rx.cfg.cdFixedMode = false → 7 ≤ s.rx.frames →
        t.rx.acq = 2) ∧
      (s.rx.acq = 6 → syncGood u.rx.path = false → s.rx.syncFails = 3 →
        t.rx.acq = 3 ∧ t.rx.lastLof = 3) ∧
      (s.rx.acq = 6 → syncGood u.rx.path = true → t.rx.acq = 6 ∧ t.rx.syncFails = 0 ∧
        t.rx.frames = s.rx.frames + 1 ∧ t.pwr = s.pwr ∧ t.rx.path.period = 0 ∧
        t.rx.path.collect = true ∧ t.rx.cfo = carrierKhz s.prof.rate u.rx.path) ∧
      t.tx = s.tx ∧ t.cmd = s.cmd ∧ t.frm = s.frm ∧ t.cry = s.cry)) ∧
  (∀ (q : Rat) (b : Bool), s.codeP = true → s.rx.pend = [] → s.rx.cdNext = some (q, b) →
    u = readCoeffs (feedCodes m.codes s) → (s.rx.acq = 0 ∨ s.rx.acq = 6 ∧ syncGood u.rx.path = true) →
    Gives (.rxFrameStart m) s fun t => t.rx.cdApplied = q ∧ t.rx.cdNext = none ∧
      t.mem.coeffSet = !s.mem.coeffSet) ∧
  (s.codeP = false → exec (.rxFrameStart m) s = .next s ∧
    exec (.adcClipWindow k) s = .next s) ∧
  ((s.evt.period - s.rx.clipAt).toNat < 250000 → exec (.adcClipWindow k) s = .next s) ∧
  (s.codeP = true → 250000 ≤ (s.evt.period - s.rx.clipAt).toNat →
    cl = laneCounts (s.rx.path.clips.filter fun e => decide (e.2 < k)) →
    u = s.onRx (fun r => { r with
      clipAt := s.evt.period
      path := { r.path with clips := r.path.clips.filter fun e => decide (k ≤ e.2) } }) →
    Gives (.adcClipWindow k) s fun t => t.rx = u.rx ∧
    (s.skim.capture ≠ .armed ∨ s.rx.cfg.clipLimit = 0 → t.skim = s.skim ∧
      t.evt = (clipWindow 192 (s.rx.cfg.clipLimit.toNat * 16) cl u).evt) ∧
    t = { s with rx := t.rx, evt := t.evt, skim := t.skim, noted := t.noted }) ∧
  (u = feedCodes codes s →
    ((takeCodes codes s.rx.path).clips.drop s.rx.path.clips.length ≠ [] →
      u.rx.clippedAt = some s.evt.period) ∧
    ((takeCodes codes s.rx.path).clips.drop s.rx.path.clips.length = [] →
      u.rx.clippedAt = s.rx.clippedAt)) ∧
  (bit (rxStatus s) 6 = true ↔
    ∃ a, s.rx.clippedAt = some a ∧ (s.evt.period - a).toNat < 250000) ∧
  (∀ step q : Rat, s.rx.acq = 6 → 250000000 ≤ (s.evt.period - s.rx.cdAt).toNat →
    step = 20 * rateScale s.prof.rate →
    (absRat ((est : Rat) - s.rx.cdApplied) ≤ step ∨ s.rx.cfg.cdTrack = false →
      exec (.cdTrackUpdate est) s =
        .next (s.onRx fun r => { r with cdEst := est, cdAt := s.evt.period })) ∧
    (s.rx.cfg.cdTrack = true → step < absRat ((est : Rat) - s.rx.cdApplied) →
      q = (if (est : Rat) < s.rx.cdApplied then s.rx.cdApplied - step
        else s.rx.cdApplied + step) →
      (cdOk s.prof.rate s.rx.cfg.lambda s.rx.cfg.nCode q = true → exec (.cdTrackUpdate est) s =
        .next (s.onRx fun r => { r with
          cdEst := est, cdAt := s.evt.period, cdNext := some (q, true) })) ∧
      (cdOk s.prof.rate s.rx.cfg.lambda s.rx.cfg.nCode q = false → exec (.cdTrackUpdate est) s =
        .next (raise 201 0 (s.onRx fun r => { r with cdEst := est, cdAt := s.evt.period }))))) ∧
  (s.rx.acq ≠ 6 ∨ (s.evt.period - s.rx.cdAt).toNat < 250000000 →
    exec (.cdTrackUpdate est) s = .next s) ∧
  (u = (if s.codeP then feedCodes codes s else s) →
    (4 ≤ u.rx.acq → u.rx.path.decided = none →
      kSpan (rxProf u) + 1025 ≤ dataBefore u.rx.path.period →
      exec (.wheyDetectorDecision codes) s = .next (u.onRx fun r => { r with
        wheyMode := !decide (1 / 4 ≤ u.rx.path.wheySum / 1024)
        path := { r.path with decided := some (decide (1 / 4 ≤ u.rx.path.wheySum / 1024)) }
        decisions := if 5 ≤ u.rx.acq then
            r.decisions ++ [(u.dec.frame, decide (1 / 4 ≤ u.rx.path.wheySum / 1024))]
          else r.decisions })) ∧
    (u.rx.acq < 4 ∨ u.rx.path.decided ≠ none ∨
        dataBefore u.rx.path.period < kSpan (rxProf u) + 1025 →
      exec (.wheyDetectorDecision codes) s = .next u)) ∧
  ((s.rx.cfg.loEnable = true → 5 ≤ s.rx.acq →
      n = loIntervalFrames s.rx.cfg.loInterval.toNat → s.rx.loFrames.take n = fs →
      (fs.length = n → mean = ((fs.sum : Int) : Rat) / (n : Rat) →
        (s.rx.loMsg = none → ((1000 * s.rx.cfg.deadband.toNat : Nat) : Rat) < absRat mean →
          Gives (.loSteerInterval n) s fun t =>
          (∃ y, t.rx.loMsg = some y ∧ y.step = true ∧ y.seq = s.rx.loSeq + 1 ∧ y.retries = 0 ∧
            y.failed = false ∧ t.rx.loWire = BitVec.ofNat 48 (msbNat (loBits y)) ∧
            (s.rx.loSum + y.value).natAbs ≤ 1000 * s.rx.cfg.loRange.toNat ∧
            (d = nearest (mean / (2 ^ s.rx.cfg.loGain.toNat : Nat)) →
              (s.rx.loSum + d).natAbs ≤ 1000 * s.rx.cfg.loRange.toNat →
              y.value = d ∧ t.evt = s.evt)) ∧
          t.rx.loSeq = s.rx.loSeq + 1 ∧ t.rx.loSum = s.rx.loSum ∧ t.rx.loFrames = [] ∧
          t = { s with rx := t.rx, evt := t.evt }) ∧
        (s.rx.loMsg = none → absRat mean ≤ ((1000 * s.rx.cfg.deadband.toNat : Nat) : Rat) →
          exec (.loSteerInterval n) s = .next (s.onRx fun r => { r with loFrames := [] })) ∧
        (s.rx.loMsg = some x →
          (x.failed = true → exec (.loSteerInterval n) s =
            .next (sendLo x (s.onRx fun r => { r with loFrames := [] }))) ∧
          (x.failed = false → exec (.loSteerInterval n) s =
            .next (s.onRx fun r => { r with loFrames := [] })))) ∧
      (fs.length < n → exec (.loSteerInterval n) s = .next s) ∧
      (s.rx.loMsg = none → 250000000 ≤ (s.evt.period - s.rx.loSentAt).toNat →
        exec .loKeepalive s = .next (sendLo { step := false, seq := s.rx.loSeq + 1, value := 0 }
          (s.onRx fun r => { r with loSeq := s.rx.loSeq + 1 })))) ∧
    (s.rx.cfg.loEnable = false ∨ s.rx.acq < 5 →
      exec (.loSteerInterval n) s = .next s ∧ exec .loKeepalive s = .next s) ∧
    (s.rx.loMsg ≠ none ∨ (s.evt.period - s.rx.loSentAt).toNat < 250000000 →
      exec .loKeepalive s = .next s)) ∧
  ((s.rx.loMsg = some x → exec .loAck s = .next (s.onRx fun r => { r with
      loSum := r.loSum + x.value, loMsg := none })) ∧
    (s.rx.loMsg = none → exec .loAck s = .next s ∧ exec .loRetry s = .next s) ∧
    (s.rx.loMsg = some x → x.failed = true ∨ (s.evt.period - s.rx.loSentAt).toNat < 2500 →
      exec .loRetry s = .next s) ∧
    (s.rx.loMsg = some x → x.failed = false → 2500 ≤ (s.evt.period - s.rx.loSentAt).toNat →
      (x.retries < s.rx.cfg.loRetries.toNat → exec .loRetry s =
        .next (errAdd 0xB0088 1 (sendLo { x with retries := x.retries + 1 } s))) ∧
      (s.rx.cfg.loRetries.toNat ≤ x.retries → exec .loRetry s =
        .next (raise 199 0 (s.onRx fun r => { r with loMsg := some { x with failed := true } })))))

/-- OP_DEC_CONFIG in range commits and completes at once in READY and in the other modes at the
first block of a frame; the release mode and the deadline may change in READY and MAINTENANCE
only, else ST_MODE, and a value out of range is refused ST_BAD_PARAM with its word (R260, R263).
OP_DEC_CHURN takes a churn in service out once it has drained, and returns one once its bank is
clear; a churn already in service completes its return at once (the model's reading, log 37), and
the last usable churn cannot be taken out (R259, R260). OP_FABRIC_CREDITS of shares that sum to at
most 792 waits for the end of its window, where the shares commit and every credit is set to its
share; on each cycle of a window a leaf forwards its oldest request, leaf P to leaf Q and leaf Q
and the cores' leaf to the top node, where a port grants the oldest request of a master with
credit, and the oldest of all where none holds credit (R243; that a leaf forwards one a cycle and
the top node keeps what it has is the model's choice, log 171). The end of a dump returns a churn
to service, or holds out one that dumped again within a second (R254). Nothing else changes. Next
states given here: OP_FABRIC_CREDITS, FABRIC_CREDIT_WINDOW, OP_DEC_CONFIG, OP_DEC_CHURN,
CHURN_DRAINED, CHURN_ONLINE. (08_decoder_fabric.md) -/
def Obligations.DecoderCommands : Prop :=
  ∀ (j k c : Nat) (d : DecCfg) (e : Dec) (x : Churn) (job : Job) (p : Nat × List Nat)
    (reqs rs ps qs cs : List FabricReq) (r q : FabricReq) (a b o : Option FabricReq)
    (later : List FabricReq → List FabricReq) (s : State),
    later = List.map (fun r => { r with entered := r.entered - 792 }) →
  (Taken 0x0240 3 j job s → decCfgOf job = d →
    (d.iterWhey ≤ 2 → d.iterMin ≤ d.iterMax → 16 ≤ d.budget → d.budget ≤ 256 →
      100 ≤ d.deadline → d.deadline ≤ 6000 → 1 ≤ d.bank →
      (s.pwr.mode = .ready →
        exec (.opDecConfig j) s = .next (commitDone j [] (applyDecCfg d s))) ∧
      (s.pwr.mode ≠ .ready → (s.pwr.mode = .maintenance ∨
          d.fixed = s.dec.cfg.fixed ∧ d.deadline = s.dec.cfg.deadline) →
        exec (.opDecConfig j) s = .next (modJob j (fun x => { x with stage := .running })
          (s.onDec fun e => { e with cfgPend := e.cfgPend ++ [(j, d)] }))) ∧
      (s.pwr.mode ≠ .ready → s.pwr.mode ≠ .maintenance →
        (d.deadline ≠ s.dec.cfg.deadline ∨ d.fixed ≠ s.dec.cfg.fixed) →
        exec (.opDecConfig j) s = .next (finish j stMode (word s.pwr.mode.code) [] s))) ∧
    (2 < d.iterWhey ∨ d.iterMax < d.iterMin → exec (.opDecConfig j) s =
      .next (finish j stBadParam (word (7 * 2 ^ 16)) [] s)) ∧
    (d.iterWhey ≤ 2 → d.iterMin ≤ d.iterMax →
      (d.budget < 16 ∨ 256 < d.budget ∨ d.deadline < 100 ∨ 6000 < d.deadline →
        exec (.opDecConfig j) s = .next (finish j stBadParam (word (7 * 2 ^ 16 + 1)) [] s)) ∧
      (16 ≤ d.budget → d.budget ≤ 256 → 100 ≤ d.deadline → d.deadline ≤ 6000 → d.bank = 0 →
        exec (.opDecConfig j) s = .next (finish j stBadParam (word (7 * 2 ^ 16 + 2)) [] s)))) ∧
  ((applyDecCfg d s).dec.cfg = d ∧
    (applyDecCfg d s).dec.appliedDeadline = min d.deadline (deadlineLimit s.prof) ∧
    (d.budgetAuto = false → (applyDecCfg d s).dec.applied = d.budget)) ∧
  (Taken 0x0241 1 j job s → fld (job.param 0) 4 0 = c →
    (bit (job.param 0) 8 = true →
      ((churnAt s c).serves = true → exec (.opDecChurn j) s = .next (commitDone j [] s)) ∧
      ((churnAt s c).serves = false → exec (.opDecChurn j) s =
        .next (modJob j (fun x => { x with stage := .running })
          (onChurn c (fun x => { x with returning := x.returning ++ [j] }) s)))) ∧
    (bit (job.param 0) 8 = false →
      ((∃ o, o < 32 ∧ o ≠ c ∧ usable s o = true) →
        ((churnAt s c).serves = true → exec (.opDecChurn j) s =
          .next (modJob j (fun x => { x with stage := .running })
            (onChurn c (fun x => { x with draining := x.draining ++ [j] }) s))) ∧
        ((churnAt s c).serves = false → exec (.opDecChurn j) s =
          .next (commitDone j [] (raise 213 c (onChurn c (fun x => { x with offCmd := true }) s))))) ∧
      ((∀ o, o < 32 → o ≠ c → usable s o = false) → exec (.opDecChurn j) s =
        .next (finish j stBadParam (word (7 * 2 ^ 16)) [] s)))) ∧
  ((churnAt s c).draining = [k] → slotsUsed s.dec c = 0 → exec (.churnDrained c) s =
    .next (commitDone k [] (settleBudget (raise 213 c
      (onChurn c (fun x => { x with offCmd := true, draining := [] }) s))))) ∧
  ((churnAt s c).draining = [] ∨ slotsUsed s.dec c ≠ 0 → exec (.churnDrained c) s = .next s) ∧
  (churnAt s c = x →
    (x.dumping = true → x.again = true → x.returning = [] → exec (.churnOnline c) s =
      .next (schedule (endReturn c (settleBudget (raise 213 c (onChurn c (fun x => { x with
        dumping := false, offFault := true, again := false }) (invalidateBank c s))))))) ∧
    (x.dumping = true → x.again = false → x.started = true → x.offCmd = false →
      x.offFault = false → Gives (.churnOnline c) s fun t => (churnAt t c).serves = true ∧
        (churnAt t c).offFault = false ∧ t.tim = s.tim ∧ t.rx = s.rx) ∧
    (x.dumping = false → x.returning = [k] → x.started = true →
      Gives (.churnOnline c) s fun t => (churnAt t c).serves = true ∧
        (churnAt t c).returning = [] ∧ (findJob k s = some job → Ended k stOk true [] t)) ∧
    (x.dumping = false → x.returning = [] → exec (.churnOnline c) s = .next s)) ∧
  (Taken 0x0120 9 j job s →
    ((sharesOf job).sum ≤ 792 → exec (.opFabricCredits j) s =
      .next (modJob j (fun x => { x with stage := .running })
        (s.onDec fun e => { e with sharesPend := e.sharesPend ++ [(j, sharesOf job)] }))) ∧
    (792 < (sharesOf job).sum → exec (.opFabricCredits j) s =
      .next (finish j stBadParam (word (7 * 2 ^ 16 + 8)) [] s))) ∧
  (s.pwr.mode ≠ .reset → (s.codeS = false ∨ 250 ≤ (s.evt.period - s.dec.windowAt).toNat) →
    Gives (.fabricCreditWindow reqs) s fun t =>
      t.dec.credits = t.dec.shares ∧ t.dec.sharesPend = [] ∧ t.dec.windowAt = s.evt.period ∧
      t.dec.granted = (grantWindow reqs s.dec).granted ∧
      t.dec.requests = later (grantWindow reqs s.dec).requests ∧
      t.dec.atP = later (grantWindow reqs s.dec).atP ∧
      t.dec.atQ = later (grantWindow reqs s.dec).atQ ∧
      t.dec.atCores = later (grantWindow reqs s.dec).atCores ∧
      (s.dec.sharesPend = [] → t.dec.shares = s.dec.shares ∧ t.cmd = s.cmd) ∧
      (s.dec.sharesPend = [p] → t.dec.shares = p.2 ∧
        (findJob p.1 s = some job → Ended p.1 stOk true [] t)) ∧
      t = { s with dec := t.dec, cmd := t.cmd, noted := t.noted }) ∧
  (s.pwr.mode = .reset ∨ s.codeS = true ∧ (s.evt.period - s.dec.windowAt).toNat < 250 →
    exec (.fabricCreditWindow reqs) s = .next s) ∧
  (grantOf j k e = some r → r ∈ e.requests ∧ r.port = k ∧ r.entered ≤ (j : Int) ∧
    grantBeat j e k = { e with
      requests := e.requests.erase r, credits := e.credits.set r.master (e.credits.getD r.master 0 - 1)
      granted := e.granted ++ [(j, r)] } ∧
    (q ∈ e.requests → q.port = k → q.entered ≤ (j : Int) →
      (holdsCredit e.credits q = true → holdsCredit e.credits r = true) ∧
      (holdsCredit e.credits q = holdsCredit e.credits r → r.entered ≤ q.entered))) ∧
  (grantOf j k e = none → grantBeat j e k = e ∧
    (q ∈ e.requests → q.port = k → (j : Int) < q.entered)) ∧
  ((r.master = 0 → enterFabric e r = { e with requests := e.requests ++ [r] }) ∧
    (r.master = 1 ∨ r.master = 6 → enterFabric e r = { e with atQ := e.atQ ++ [r] }) ∧
    (r.master ∈ [2, 3, 4, 5] → enterFabric e r = { e with atCores := e.atCores ++ [r] }) ∧
    (r.master = 7 ∨ r.master = 8 → enterFabric e r = { e with atP := e.atP ++ [r] })) ∧
  ((leafOut j rs = (some r, ps) → r ∈ rs ∧ ps = rs.erase r ∧ r.entered ≤ (j : Int) ∧
      ∀ x ∈ rs, x.entered ≤ (j : Int) → r.entered ≤ x.entered) ∧
    (leafOut j rs = (none, ps) → ps = rs ∧ ∀ x ∈ rs, (j : Int) < x.entered)) ∧
  (leafOut j e.atP = (a, ps) → leafOut j (e.atQ ++ a.toList) = (b, qs) →
    leafOut j e.atCores = (o, cs) → forward j e = { e with
      atP := ps, atQ := qs, atCores := cs, requests := e.requests ++ b.toList ++ o.toList })

/-- In A5 and A6, once the codes have given all its LLRs and the sample count has reached its
arrival, the sample of its last data symbol plus the latency of V1 to V4 rounded to the nearest,
an arriving block takes the next sequence number, its deadline and its iteration limit, adds the
applied budget to the account up to the bank, and goes into a free slot of the next usable churn
(the lowest, the model's reading, log 34), its extrinsics zero, or is final at once, skipped as
whey or overflowing (R235 to R238). An iteration of 1,024 cycles runs the two passes on the words
of its slot and keeps its extrinsics there; it counts and makes the block final where its CRC
passes, where its limit is reached, and where no further iteration fits its deadline; otherwise it
waits again (R231, R237). A slot word that cannot be corrected dumps the churn (R253). A deadline
ends a block that does not run. A transfer's end starts the block in the thief if the account
allows, a parity error fails it (R241, R242, R255). The vat write frees the slot (R244), and the
head block is released in order with its final cause, a poisoned entry's FAULT (R245, R247, R256).
A block that is final changes its cause no more. Next states given here: BLOCK_ARRIVAL,
ITERATION_END, BLOCK_DEADLINE, STEAL_TRANSFER_END, VAT_WRITE_END, BLOCK_RELEASE.
(08_decoder_fabric.md) -/
def Obligations.DecoderBlocks : Prop :=
  ∀ (now a k code : Nat) (pos : Rat) (b : Quad) (codes : List FourCodes) (llrs : List Int) (bits : List Bool)
    (ws : List (BitVec 128)) (it : Iteration) (x y : DecBlock) (c v : Nat) (rest : List DecBlock)
    (cause : Cause) (u w : State) (s : State),
  (s.codeP = true → 5 ≤ s.rx.acq → u = feedCodes codes s →
    a = arrivalOf u (u.rx.path.ends.headD 0) →
    (16384 ≤ u.rx.path.llrs.length → a ≤ now → exec (.blockArrival now codes) s =
      .next (arrive now a (u.rx.path.llrs.take 16384) (u.onRx fun r => { r with
        path := { r.path with llrs := r.path.llrs.drop 16384, ends := r.path.ends.drop 1 } }))) ∧
    (u.rx.path.llrs.length < 16384 ∨ now < a → exec (.blockArrival now codes) s = .next u)) ∧
  arrivalOf s pos =
    (openRound (pos + lineRxPs s * (s.prof.rate * 28125 : Nat) / (10 ^ 8 : Nat))).toNat ∧
  (w = (if s.dec.index = 0 then commitDecCfg s else s) →
    u = w.onDec (fun d => { d with now := max d.now now }) → x = newBlock u a llrs →
    arrive now a llrs s = schedule (dispatch x llrs (u.onDec fun d => { d with
      nextSeq := d.nextSeq + 1, blocks := d.blocks ++ [x]
      frame := if frameBlocks (rxProf u) ≤ u.dec.index + 1 then d.frame + 1 else d.frame
      index := if frameBlocks (rxProf u) ≤ u.dec.index + 1 then 0 else d.index + 1
      account := min (d.account + d.applied) ((d.cfg.bank * 16 : Nat) : Int) })) ∧
    x.seq = w.dec.nextSeq ∧ x.frame = w.dec.frame ∧ x.index = w.dec.index ∧ x.arrival = a ∧ x.deadline = deadlineOf u a ∧
    x.done = 0 ∧ x.cause = none) ∧
  (s.codeP = false ∨ s.rx.acq < 5 → exec (.blockArrival now codes) s = .next s) ∧
  ((x.index < 2 ∨ wheyDecided s x.frame = false ∨ s.dec.cfg.iterWhey ≠ 0) →
    (dispatchTo s = none → dispatch x llrs s =
      finalize x.seq .overflow (noteBlock 0x101 x none s)) ∧
    (dispatchTo s = some c → nextSlot s.dec c = k → dispatch x llrs s =
      modBlock x.seq (fun x => { x with place := .waiting c, slot := k, churn := some c })
        ((writeWords 0 (c * 2 ^ 17 + k * 1280) (softWords llrs ++ List.replicate 640 0)
          (note 0x101 c x.seq.toNat s)).onDec fun d => { d with lastC := c }))) ∧
  (2 ≤ x.index → wheyDecided s x.frame = true → s.dec.cfg.iterWhey = 0 →
    dispatch x llrs s = finalize x.seq .wheySkip (noteBlock 0x101 x none s)) ∧
  (findBlock b s = some x → x.cause ≠ none → finalize b cause s = s) ∧
  (findBlock b s = some x → x.cause = none → ∃ z, findBlock b (finalize b cause s) = some z ∧
    z = { x with cause := some cause
                 place := if cause = .fault then .none else match x.place.home with
                   | some c => .final c
                   | none => .none }) ∧
  (findBlock b s = some x → x.place = .running c → (rxProf s).code = code →
    (workDone 1024 now x s = false → exec (.iterationEnd now b c) s = .next s) ∧
    (workDone 1024 now x s = true →
      readSlot c x.slot (s.onDec fun d => { d with now := max d.now now }) = (none, w) →
      exec (.iterationEnd now b c) s = .next (dumpChurn c w)) ∧
    (workDone 1024 now x s = true →
      readSlot c x.slot (s.onDec fun d => { d with now := max d.now now }) = (some ws, w) →
      it = iterate code x (wordSofts (ws.take 640)) (wordSofts (ws.drop 640)) →
      y = { x with
        done := x.done + 1, hard := it.hard.take (blockFrameBits code)
        inner := it.inner, outer := it.outer } →
      u = engineCycles c 1024 (modBlock b (fun z => { z with
          done := z.done + 1, hard := it.hard.take (blockFrameBits code)
          inner := it.inner, outer := it.outer })
        (writeWords 0 (c * 2 ^ 17 + x.slot * 1280 + 640) (softWords it.ext) w)) →
      (passesCrc (blockFrameBits code) it.hard = true → exec (.iterationEnd now b c) s =
        .next (schedule (finalize b .passed (countAttempt y (countPrefec
          (wordSofts (ws.take 640)) code (it.hard.take (blockFrameBits code)) u))))) ∧
      (passesCrc (blockFrameBits code) it.hard = false →
        (x.limit ≤ x.done + 1 → exec (.iterationEnd now b c) s =
          .next (schedule (finalize b .maxIter u))) ∧
        (x.done + 1 < x.limit → tooLate u now 0 y = true → exec (.iterationEnd now b c) s =
          .next (schedule (finalize b .deadline u))) ∧
        (x.done + 1 < x.limit → tooLate u now 0 y = false → exec (.iterationEnd now b c) s =
          .next (schedule (modBlock b (fun x => { x with place := .waiting c }) u)))))) ∧
  (findBlock b s = none → exec (.iterationEnd now b c) s = .next s ∧
    exec (.blockDeadline now b) s = .next s ∧ exec (.vatWriteEnd now b) s = .next s ∧
    exec (.stealTransferEnd now b true) s = .next s) ∧
  (findBlock b s = some x → x.place = .waiting c →
    (tooLate s now 0 x = true → exec (.blockDeadline now b) s =
      .next (schedule (finalize b .deadline (s.onDec fun d => { d with now := max d.now now })))) ∧
    (tooLate s now 0 x = false → exec (.blockDeadline now b) s = .next s)) ∧
  (findBlock b s = some x → x.place = .running c → exec (.blockDeadline now b) s = .next s) ∧
  (findBlock b s = some x → x.place = .transit v c true →
    u = s.onDec (fun d => { d with now := max d.now now }) → readSlot v x.slot u = (some ws, w) →
    workDone (160 + (v + 32 - c) % 32) now x s = true →
    exec (.stealTransferEnd now b true) s = .next (schedule (raise 215 v (faultBlock b u))) ∧
    exec (.stealTransferEnd now b false) s = .next (schedule (landSteal now v c x ws w))) ∧
  (findBlock b s = some x → x.place = .transit v c true →
    workDone (160 + (v + 32 - c) % 32) now x s = true →
    readSlot v x.slot (s.onDec fun d => { d with now := max d.now now }) = (none, w) →
    exec (.stealTransferEnd now b false) s = .next (dumpChurn v w)) ∧
  (findBlock b s = some x → x.place = .transit v c true →
    workDone (160 + (v + 32 - c) % 32) now x s = false →
    exec (.stealTransferEnd now b false) s = .next s) ∧
  (w = note 0x104 c x.seq.toNat (carry 36 20480 (statAdd (churnBase v + 0x018) 1
      (statAdd (churnBase c + 0x010) 1 (statAdd 0xC0058 1
        (modBlock x.seq (fun y => { y with slot := x.toSlot, churn := some c })
          (writeWords 0 (c * 2 ^ 17 + x.toSlot * 1280) ws s)))))) →
    (budgetOk w x = true → landSteal now v c x ws s = startBlock now c x.seq w) ∧
    (budgetOk w x = false → landSteal now v c x ws s = modBlock x.seq (fun x => { x with
      place := .waiting c, stolen := true, refused := true }) w)) ∧
  (findBlock b s = some x → x.place = .final c → exec (.vatWriteEnd now b) s =
    .next (schedule (modBlock b (fun x => { x with place := .none, written := true })
      (writeWords 1 (entryAddr (rxProf s) b) (bitWords (vatEntryWords (rxProf s)) x.hard)
        (s.onDec fun d => { d with now := max d.now now }))))) ∧
  (s.dec.blocks = x :: rest →
    (releasable s now x = true → x.cause = some cause →
      readEntry x (s.onDec fun d => { d with now := max d.now now }) = (some bits, u) →
      w = u.onDec (fun d => { d with blocks := d.blocks.filter fun z => z.seq ≠ x.seq }) →
      exec (.blockRelease now) s = .next (settleFabricLevels (pushBlock
        { seq := x.seq, frame := x.frame, index := x.index, cause := cause
          bits := (bits ++ List.replicate (blockFrameBits (rxProf u).code) false).take
            (blockFrameBits (rxProf u).code) }
        (if cause = .passed then w else noteBlock 0x103 x x.churn w)))) ∧
    (releasable s now x = true →
      (readEntry x (s.onDec fun d => { d with now := max d.now now })).1 = none →
      Gives (.blockRelease now) s fun t =>
        ∃ r ∈ t.frm.rxBlocks, r.seq = x.seq ∧ r.cause = .fault) ∧
    (x.cause = none ∨ x.place ≠ .none → exec (.blockRelease now) s = .next s)) ∧
  (s.dec.blocks = [] → exec (.blockRelease now) s = .next s)

/-- OP_KEY_LOAD of a wrapped record that unwraps under KTK and names its context and slot stores
the key, sets the slot LOADED, ends KEY_FAULT, answers the key check value, and leaves ZEROISED
for READY; a slot in use is refused ST_BUSY, a record that does not verify ST_AUTH_FAIL, and every
load while a pin is low ST_DENIED (R124 to R126, R506). OP_KEY_ERASE empties a slot that is not in
use. OP_EPOCH_SWITCH of contexts with a key in their other slot is accepted and commits with its
frame, each named TX_EPOCH inverting; with code P stopped and no instant to come it commits at
once (R113, R118). An OLD slot is erased after the second complete superframe since the later of
the switch and the far end's, its superframes counted as their frames start on the line (R116; the
model's reading, log 78), and EPOCH_LAG is raised once epochs have differed for eight (R117). An
error in the key store puts a context into KEY_FAULT with both slots EMPTY, one in its word with
both epochs 0 (R133) and RETAIN as it was (the model's choice, log 186). Another context is
unchanged. Next states given here: OP_KEY_LOAD, OP_KEY_ERASE, OP_EPOCH_SWITCH,
EPOCH_SWITCH_INSTANT, OLD_KEY_ERASE, EPOCH_LAG. (04_circuit_encryption.md) -/
def Obligations.CircuitKeys : Prop :=
  ∀ (j c : Nat) (b : Bool) (o : List Byte × List Byte) (r : List Byte) (e : OldSlot)
    (m : BitVec 1024) (count : BitVec 64) (v : Nat) (job : Job) (s : State),
  (TakenSigned 0x0410 13 j job s → fld (job.param 0) 9 0 = c → bit (job.param 0) 16 = b →
    s.cry.officer = some o →
    (pinsAsserted s = true → job.priv = 1 → exec (.opKeyLoad j) s =
      .next (finish j stDenied (word (8 * 2 ^ 16)) [] (consumed job s))) ∧
    (pinsAsserted s = false → keyUnwrap o.2 (paramBytes job 4 48) = some r →
      (recordOk c b r = true → slotInUse s c b = false → exec (.opKeyLoad j) s =
        .next (commitDone j [keyCheck (r.take 32)]
          (leaveZeroised (noteKeys job [c] (loadKey c b (r.take 32) (consumed job s)))))) ∧
      (recordOk c b r = true → slotInUse s c b = true → exec (.opKeyLoad j) s =
        .next (finish j stBusy (word (8 * 2 ^ 16)) [] (consumed job s)))) ∧
    (pinsAsserted s = false → keyUnwrap o.2 (paramBytes job 4 48) = none → job.priv = 1 →
      exec (.opKeyLoad j) s =
        .next (authFailed (finish j stAuthFail (word (8 * 2 ^ 16)) [] (consumed job s))))) ∧
  ((ctxAt (loadKey c b r s) c).slot b = .loaded ∧ (ctxAt (loadKey c b r s) c).fault = false ∧
    (∀ d, d ≠ c → ctxAt (loadKey c b r s) d = ctxAt s d) ∧
    (loadKey c b r s).pwr = s.pwr ∧ (loadKey c b r s).cmd = s.cmd) ∧
  ((s.pwr.mode = .zeroised → (leaveZeroised s).pwr.mode = .ready ∧
      (leaveZeroised s).pwr.readyEntryDue = true) ∧
    (s.pwr.mode ≠ .zeroised → leaveZeroised s = s)) ∧
  (TakenSigned 0x0411 1 j job s → fld (job.param 0) 9 0 = c → bit (job.param 0) 16 = b →
    (slotInUse s c b = false → exec (.opKeyErase j) s =
      .next (commitDone j [] (noteKeys job [c] (eraseSlot true c b (consumed job s))))) ∧
    (slotInUse s c b = true → exec (.opKeyErase j) s =
      .next (finish j stBusy (word (8 * 2 ^ 16)) [] (consumed job s)))) ∧
  (TakenSigned 0x0420 36 j job s → switchCircuits job = m → m ≠ 0 → s.cry.switches.length < 16 →
    (∀ d, m.getLsbD d = true → (ctxAt s d).fault = false ∧
      (ctxAt s d).holds (!(ctxAt s d).txEpoch) = true ∧ scheduled s d = false) →
    triple96 (job.param 1) (job.param 2) (job.param 3) = v →
    (bit (job.param 0) 0 = true → s.tim.valid = true ∧ tripleNs v < 1000000000) →
    (s.codeP = true → exec (.opEpochSwitch j) s =
      .next (modJob j (fun x => { x with stage := .running }) ((consumed job s).onCry fun y => { y with
        switches := y.switches ++ [{ job := j, retain := bit (job.param 0) 1, circuits := m
                                     instant := if bit (job.param 0) 0 then some (tripleTime v)
                                       else none }] }))) ∧
    (s.codeP = false → bit (job.param 0) 0 = false → Gives (.opEpochSwitch j) s fun t =>
      Ended j stOk true [] t ∧
      (∀ d, d < 1024 → (ctxAt t d).txEpoch = ((ctxAt s d).txEpoch ^^ m.getLsbD d)) ∧
      (∀ d, m.getLsbD d = false → ctxAt t d = ctxAt s d))) ∧
  (TakenSigned 0x0420 36 j job s → bit (job.param 0) 0 = false → switchCircuits job = 0 →
    exec (.opEpochSwitch j) s =
      .next (finish j stBadParam (word (7 * 2 ^ 16 + 4)) [] (consumed job s))) ∧
  ((ctxAt (enterKeyFault b c s) c).fault = true ∧ (ctxAt (enterKeyFault b c s) c).slot0 = .empty ∧
    (ctxAt (enterKeyFault b c s) c).slot1 = .empty ∧
    (ctxAt (enterKeyFault b c s) c).txEpoch = (!b && (ctxAt s c).txEpoch) ∧
    (ctxAt (enterKeyFault b c s) c).rxEpoch = (!b && (ctxAt s c).rxEpoch) ∧
    (ctxAt (enterKeyFault b c s) c).retain = (ctxAt s c).retain ∧
    (∀ d, d ≠ c → ctxAt (enterKeyFault b c s) d = ctxAt s d)) ∧
  ((count.toNat % 8 = 0 → (ctxAt s c).erase = some e →
      (ctxAt (superframeStarts count s) c).erase = some { e with
        opened := if e.seen = true ∧ e.first ≤ count then e.opened + 1 else e.opened }) ∧
    (count.toNat % 8 ≠ 0 → superframeStarts count s = s)) ∧
  ((s.codeP = false → s.cry.zeroising = false → exec .epochSwitchInstant s =
      .next ((dueSwitches s.tim.counter s).foldl
        (fun u w => commitSwitch s.tim.counter false w u) s)) ∧
    (s.codeP = true → exec .epochSwitchInstant s = .next s)) ∧
  (((ctxAt s c).erase = some e → e.seen = true → 3 ≤ e.opened →
      exec (.oldKeyErase c) s = .next (eraseSlot false c e.slot s)) ∧
    ((ctxAt s c).erase = some e → (e.seen = false ∨ e.opened < 3) →
      exec (.oldKeyErase c) s = .next s) ∧
    ((ctxAt s c).erase = none → exec (.oldKeyErase c) s = .next s)) ∧
  ((9 ≤ (ctxAt s c).lagOpens → (ctxAt s c).lag = false → exec (.epochLag c) s =
      .next (raise 278 c (onCtx c (fun x => { x with lag := true }) s))) ∧
    ((ctxAt s c).lagOpens < 9 ∨ (ctxAt s c).lag = true → exec (.epochLag c) s = .next s))

/-- OP_OFFICER_CHALLENGE commits and completes with a fresh point and nonce, free values, and
replaces any challenge; a challenge lapses after 60 s (R122). OP_OFFICER_ENROL uses up the
challenge whatever its outcome: ST_BUSY with an officer enrolled, ST_NOT_FOUND without a
challenge, ST_DENIED without an enrolment key, and with a verified message the officer's keys are
stored and the sequence number is 0 (R122). An officer's command whose trailer is missing, or does
not verify, or whose sequence number is not above the last, ends ST_AUTH_FAIL at step 5 and is
counted (R119, R120). OP_OFFICER_UPDATE replaces the keys, OP_CRY_CONFIG sets the link role and
tag limit while no slot holds a key (R123, R135), and OP_CRY_READ answers up to 256 words of the
block in range, without a commit (the model's reading, log 48). Which refusals keep the challenge
is the model's reading too (log 80). Next states given here: OP_OFFICER_CHALLENGE,
OP_OFFICER_ENROL, CHALLENGE_EXPIRY, OP_OFFICER_UPDATE, OP_CRY_CONFIG, OP_CRY_READ.
(04_circuit_encryption.md, 13_command_packets.md) -/
def Obligations.OfficerCommands : Prop :=
  ∀ (j off n : Nat) (o : List Byte × List Byte) (ks key : List Byte) (ch : Challenge) (w : Word)
    (job : Job) (s : State),
  (Taken 0x0400 0 j job s → Gives (.opOfficerChallenge j) s fun t =>
    (∃ g, t.cry.challenge = some g ∧ g.issued = s.evt.period ∧
      g.scalar = natBe 48 ((Config.freeValue s.free).toNat % (p384N - 1) + 1) ∧
      g.pub = p384Public g.scalar ∧
      g.nonce = natBe 16 ((Config.freeValue (s.free + 1)).toNat % 2 ^ 128) ∧
      Ended j stOk true (bytesWords (g.pub.take 97 ++ g.nonce)) t) ∧
    t = { s with cry := { s.cry with challenge := t.cry.challenge }, free := s.free + 2
                 cmd := t.cmd, noted := t.noted }) ∧
  (Taken 0x0401 0 j job s → job.params.length < 67 → exec (.opOfficerEnrol j) s =
    .next (finish j stBadParam (word (7 * 2 ^ 16 + job.params.length)) [] (dropChallenge s))) ∧
  (Taken 0x0401 67 j job s →
    (Gives (.opOfficerEnrol j) s fun t => t.cry.challenge = none) ∧
    (paramBytes job 97 3 = [0, 0, 0] →
      (s.cry.officer = some o → exec (.opOfficerEnrol j) s =
        .next (finish j stBusy (word (8 * 2 ^ 16)) [] (dropChallenge s))) ∧
      (s.cry.officer = none → s.cry.challenge = none → exec (.opOfficerEnrol j) s =
        .next (finish j stNotFound (word (8 * 2 ^ 16)) [] (dropChallenge s))) ∧
      (s.cry.officer = none → s.cry.challenge = some ch →
        (s.pwr.image.bind fun i => i.enrolKey) = none → exec (.opOfficerEnrol j) s =
        .next (finish j stDenied (word (8 * 2 ^ 16)) [] (dropChallenge s))) ∧
      (s.cry.officer = none → s.cry.challenge = some ch →
        (s.pwr.image.bind fun i => i.enrolKey) = some key → pinsAsserted s = false →
        enrolKeys key ch (paramBytes job 0 97) (paramBytes job 100 72) (paramBytes job 172 96)
          = some ks → exec (.opOfficerEnrol j) s =
        .next (commitDone j [] (raiseBy true 276 0 (s.onCry fun y => { y with
          challenge := none, officer := some (ks.take 32, ks.drop 32), seq := 0 })))))) ∧
  ((s.cry.challenge = some ch → 60 * 250000000 ≤ (s.evt.period - ch.issued).toNat →
      exec .challengeExpiry s = .next (s.onCry fun y => { y with challenge := none })) ∧
    (s.cry.challenge = some ch → (s.evt.period - ch.issued).toNat < 60 * 250000000 →
      exec .challengeExpiry s = .next s) ∧
    (s.cry.challenge = none → exec .challengeExpiry s = .next s)) ∧
  (findJob j s = some job → ready 0x0403 job s = true → job.priv = 1 →
    (job.auth = false ∨ s.cry.officer = none ∨ s.cry.officer = some o ∧ macOk o.1 job = false ∨
      job.trailerSeq.toNat ≤ s.cry.seq.toNat) → exec (.opCryConfig j) s =
        .next (raiseBy true 290 0 (errAdd 0xE0018 1 (finish j stAuthFail (word (5 * 2 ^ 16)) [] s)))) ∧
  (TakenSigned 0x0403 1 j job s → job.param 0 = w →
    (fld w 15 0 ≠ 0 → anyKey s = false → exec (.opCryConfig j) s =
      .next (commitDone j [] ((consumed job s).onCry fun y => { y with
        linkRole := bit w 16, tagLimit := w.extractLsb' 0 16 }))) ∧
    (fld w 15 0 ≠ 0 → anyKey s = true → exec (.opCryConfig j) s =
      .next (finish j stBusy (word (8 * 2 ^ 16)) [] (consumed job s))) ∧
    (fld w 15 0 = 0 → exec (.opCryConfig j) s =
      .next (finish j stBadParam (word (7 * 2 ^ 16)) [] (consumed job s)))) ∧
  (TakenSigned 0x0402 18 j job s → s.cry.officer = some o →
    (keyUnwrap o.2 (paramBytes job 0 72) = some ks → exec (.opOfficerUpdate j) s =
      .next (commitDone j [] (raiseBy true 277 0 ((consumed job s).onCry fun y => { y with
        officer := some (ks.take 32, ks.drop 32) })))) ∧
    (keyUnwrap o.2 (paramBytes job 0 72) = none → job.priv = 1 → exec (.opOfficerUpdate j) s =
      .next (authFailed (finish j stAuthFail (word (8 * 2 ^ 16)) [] (consumed job s))))) ∧
  (TakenSigned 0x0404 2 j job s → (job.param 0).toNat = off → (job.param 1).toNat = n →
    (off % 4 = 0 → off + 4 * n ≤ 0x10000 → off < 0x10000 → 1 ≤ n → n ≤ 256 →
      exec (.opCryRead j) s = .next (finishOk j
        (cryWords (2 + job.core.getD 0) n (0xE0000 + off) (consumed job s)).1
        (cryWords (2 + job.core.getD 0) n (0xE0000 + off) (consumed job s)).2) ∧
      (cryWords (2 + job.core.getD 0) n (0xE0000 + off) (consumed job s)).1.length = n) ∧
    (off % 4 ≠ 0 → exec (.opCryRead j) s =
      .next (finish j stBadParam (word (7 * 2 ^ 16)) [] (consumed job s))) ∧
    (off % 4 = 0 → off < 0x10000 → 256 < n → exec (.opCryRead j) s =
      .next (finish j stBadParam (word (7 * 2 ^ 16 + 1)) [] (consumed job s))))

/-- In every mode of code S a low ZEROISE_N or TAMPER_N, and OP_ZEROISE, at once empty the key
store, every context and the officer store (the steps of R131 in one, log 72), discard the content
of the frames not yet sent, which go out as whey frames (log 104), and record their cause; in
RESET and BOOT a pin only holds its level (R130, R131). When the erasure ends, group 6 holds
zeros, the device is in ZEROISED with ZEROISED raised and the officer's uncommitted commands ended
ST_ABORTED; a pin still low starts the erasure again (the model's reading, log 71), and a read-
back that found a word not zero is recorded (R131, R132). Outside an erasure its end does nothing.
A parity error empties the officer store and raises its source (R134). Next states given here:
OP_ZEROISE, ZEROISE_PIN, TAMPER_PIN, ZEROISE_COMPLETE, OFFICER_STORE_FAULT,
ZEROISE_TRIGGER_RELEASE. (04_circuit_encryption.md, 17_power_reset_modes.md) -/
def Obligations.Zeroisation : Prop :=
  ∀ (j k a : Nat) (pin nonzero : Bool) (job x : Job) (s : State),
  (s.codeS = true →
    (∀ c : Instr, c = .zeroisePin ∨ c = .tamperPin → Gives c s fun t =>
      t.cry.officer = none ∧ t.cry.ctx = [] ∧ t.cry.challenge = none ∧ t.cry.seq = 0 ∧
      t.cry.zeroising = true ∧
      t.cry.zPin = (s.cry.zPin || decide (c = .zeroisePin)) ∧
      t.cry.zTamper = (s.cry.zTamper || decide (c = .tamperPin)) ∧
      t.cry.zeroisePin = (s.cry.zeroisePin || decide (c = .zeroisePin)) ∧
      t.cry.tamperPin = (s.cry.tamperPin || decide (c = .tamperPin)) ∧
      t.mem.cells = (invalidate 6 s).mem.cells ∧ t.mem.merge = [] ∧
      t.frm = { s.frm with
        asm := s.frm.asm.map dropContent
        ready := s.frm.ready.map fun r => { r with frame := dropContent r.frame, whey := true } } ∧
      (∀ g, t.frm.asm = some g → mustWhey g t = true) ∧ t.pwr = s.pwr ∧
      t = { s with cry := t.cry, mem := t.mem, cmd := t.cmd, frm := t.frm })) ∧
  (s.codeS = false →
    exec .zeroisePin s = .next (s.onCry fun y => { y with zeroisePin := true }) ∧
    exec .tamperPin s = .next (s.onCry fun y => { y with tamperPin := true })) ∧
  (exec (.zeroiseTriggerRelease pin) s = .next (s.onCry fun y => { y with
    zeroisePin := pin && y.zeroisePin, tamperPin := !pin && y.tamperPin })) ∧
  (Taken 0x04F0 0 j job s → s.codeS = true → Gives (.opZeroise j) s fun t =>
    Ended j stOk true [] t ∧ t.cry.officer = none ∧ t.cry.ctx = [] ∧ t.cry.zCommand = true ∧
    t.cry.zeroising = true ∧ t.mem.cells = (invalidate 6 s).mem.cells ∧ t.mem.merge = [] ∧
    t.frm = { s.frm with
      asm := s.frm.asm.map dropContent
      ready := s.frm.ready.map fun r => { r with frame := dropContent r.frame, whey := true } } ∧
    t = { s with cry := t.cry, mem := t.mem, cmd := t.cmd, frm := t.frm, noted := t.noted }) ∧
  (s.codeS = true → s.cry.zeroising = true → Gives (.zeroiseComplete nonzero) s fun t =>
    t.pwr.mode = .zeroised ∧ t.cry.officer = none ∧ t.cry.ctx = [] ∧
    t.cry.zReadback = (s.cry.zReadback || nonzero) ∧
    t.cry.zeroising = (s.cry.zeroisePin || s.cry.tamperPin) ∧
    (a < groupWords 6 → MemoryCanonical s → cellAt t 6 a =
      { valid := true, poison := false, data := 0, flips := 0 }) ∧
    (JobIdsFresh s → findJob k s = some x → isOfficer x = true → x.committed = false →
      x.stage ≠ .decided → Ended k stAborted false [] t) ∧
    (JobIdsFresh s → findJob k s = some x → isOfficer x = false → findJob k t = some x)) ∧
  (s.cry.zeroising = false ∨ s.codeS = false → exec (.zeroiseComplete nonzero) s = .next s) ∧
  (s.codeS = true → exec .officerStoreFault s =
    .next (raise 292 0 (s.onCry fun y => { y with officer := none, seq := 0 }))) ∧
  (s.codeS = false → exec .officerStoreFault s = .next s)

/-- For every opcode of the table, once its core takes the command: one that needs the officer's
trailer and has none, or whose trailer has a wrong MAC or a SEQ that is not greater than the last
one consumed, or that finds no officer enrolled, ends ST_AUTH_FAIL of step 5, and is counted and
raised where it is an officer's (R120, R136). In a mode that the opcode does not accept it ends
ST_MODE with the present mode's code, and with fewer parameter words than the opcode needs
(OP_OFFICER_ENROL, whose challenge a short command uses up, has its own statement) ST_BAD_PARAM of
step 7 with the first missing word (the model's reading, log entry 6). A passed trailer consumes
its SEQ even then, and nothing else changes but the command's own outcome. A command that its core
may not take yet changes nothing. (13_command_packets.md) -/
def Obligations.RefusedCommands : Prop :=
  ∀ (img : FlashRead) (op : Nat → Instr) (code need j : Nat) (job : Job) (s : State),
  (op, code, need) ∈ [
    (Instr.opNop, 0x0100, 0), (Instr.opDeviceInfo, 0x0101, 0), (Instr.opAbort, 0x0102, 1),
    (Instr.opModeSet, 0x0103, 1), (Instr.opReset, 0x0104, 0), (Instr.opFabricCredits, 0x0120, 9),
    (Instr.opLineProfile, 0x0201, 1), (Instr.opTxShape, 0x0210, 2), (Instr.opTxMask, 0x0211, 65),
    (Instr.opTxPrecomp, 0x0212, 3), (Instr.opTxRamp, 0x0213, 3), (Instr.opTxOutput, 0x0214, 1),
    (Instr.opTxHooks, 0x0215, 1), (Instr.opOptWrite, 0x0220, 1), (Instr.opOptRead, 0x0221, 1),
    (Instr.opOptReset, 0x0222, 0), (Instr.opRxFrontend, 0x0230, 7), (Instr.opRxCd, 0x0231, 5)] ++ [
    (Instr.opRxSeparator, 0x0232, 2), (Instr.opRxTiming, 0x0233, 1),
    (Instr.opRxCarrier, 0x0234, 2), (Instr.opRxThresh, 0x0235, 3), (Instr.opDecConfig, 0x0240, 3),
    (Instr.opDecChurn, 0x0241, 1), (Instr.opCircuitCreate, 0x0301, 2),
    (Instr.opCircuitDelete, 0x0302, 1), (Instr.opMapLoad, 0x0310, 1), (Instr.opMapSwitch, 0x0311, 1),
    (Instr.opHlaneConfig, 0x0320, 5), (Instr.opHlaneRestart, 0x0321, 1),
    (Instr.opOfficerChallenge, 0x0400, 0), (Instr.opOfficerEnrol, 0x0401, 0),
    (Instr.opOfficerUpdate, 0x0402, 18), (Instr.opCryConfig, 0x0403, 1),
    (Instr.opCryRead, 0x0404, 2), (Instr.opKeyLoad, 0x0410, 13), (Instr.opKeyErase, 0x0411, 1),
    (Instr.opEpochSwitch, 0x0420, 36), (Instr.opZeroise, 0x04F0, 0)] ++ [
    (Instr.opTimeConfig, 0x0501, 4), (Instr.opTimeSet, 0x0502, 4), (Instr.opTimeStep, 0x0503, 4),
    (Instr.opTimePulse, 0x0504, 7), (Instr.opDpllRefConfig, 0x0601, 4),
    (Instr.opDpllSelect, 0x0602, 2), (Instr.opDpllLoop, 0x0603, 6), (Instr.opDpllOutput, 0x0604, 5),
    (Instr.opMonSequence, 0x0701, 1), (Instr.opMonTestdac, 0x0702, 1),
    (Instr.opSkimConfig, 0x0710, 1), (Instr.opSkimArm, 0x0711, 2), (Instr.opSkimTrigger, 0x0712, 0),
    (Instr.opSkimSync, 0x0713, 0), (Instr.opMemRecover, 0x0801, 1), (Instr.opMemInject, 0x0802, 7),
    (Instr.opBist, 0x0810, 1), (Instr.opHlaneTest, 0x0822, 2), (Instr.opFwStage, 0x0901, 1),
    (fun k => Instr.opFwActivate k img, 0x0902, 1), (Instr.opCoreReturn, 0x0910, 1),
    (fun k => Instr.opCtrConfig (.packet k), 0x0A01, 9), (Instr.opCtrSnapshot, 0x0A02, 1), (Instr.opBwConfig, 0x0A03, 2)] →
  (findJob j s = none → exec (op j) s = .next s) ∧
  (findJob j s = some job →
    (ready code job s = false → exec (op j) s = .next s) ∧
    (ready code job s = true →
      ((job.auth = false ∧ trailerOp job.opcode = true ∨
          job.auth = true ∧ (s.cry.officer = none ∨ job.trailerSeq ≤ s.cry.seq ∨
            ∃ o, s.cry.officer = some o ∧ macOk o.1 job = false)) →
        (job.priv = 1 → exec (op j) s =
          .next (authFailed (finish j stAuthFail (word (5 * 2 ^ 16)) [] s))) ∧
        (job.priv ≠ 1 → exec (op j) s =
          .next (finish j stAuthFail (word (5 * 2 ^ 16)) [] s))) ∧
      (job.auth = false → trailerOp job.opcode = false →
        (opModes job.opcode s.pwr.mode s.pwr.pRunning = false → exec (op j) s =
          .next (finish j stMode (word s.pwr.mode.code) [] s)) ∧
        (opModes job.opcode s.pwr.mode s.pwr.pRunning = true → job.params.length < need →
          exec (op j) s = .next
            (finish j stBadParam (word (7 * 2 ^ 16 + job.params.length)) [] s))) ∧
      (job.auth = true → (∃ o, s.cry.officer = some o ∧ macOk o.1 job = true) →
        s.cry.seq < job.trailerSeq →
        (opModes job.opcode s.pwr.mode s.pwr.pRunning = false → exec (op j) s =
          .next (finish j stMode (word s.pwr.mode.code) [] (consumed job s))) ∧
        (opModes job.opcode s.pwr.mode s.pwr.pRunning = true → job.params.length < need + 10 →
          exec (op j) s = .next (finish j stBadParam (word (7 * 2 ^ 16 + (job.params.length - 10)))
            [] (consumed job s))))))

/-- Right after power-on the block is in RESET with no command waiting or outstanding and only
POWER_ON recorded as a cause; the output is QUIET with its request clear, OPT_RESET_N is low,
acquisition is in A0, the DPLL has no reference, no officer is enrolled, every slot is EMPTY,
every counter is 0 and every protected word unwritten, and the configuration fields named hold the
reset values their chapters give. The invariants of the model hold there.
(17_power_reset_modes.md, 19_address_map.md, 08_decoder_fabric.md, 15_memory_integrity.md) -/
def Obligations.ResetState : Prop :=
  State.reset.pending = [] ∧ State.reset.pwr.mode = .reset ∧ State.reset.cmd.jobs = [] ∧
  State.reset.pwr.causePowerOn = true ∧ State.reset.pwr.causePin = false ∧
  State.reset.pwr.causeSupply = false ∧ State.reset.pwr.causeThermal = false ∧
  State.reset.pwr.causeCommand = false ∧ State.reset.pwr.avsTarget = 750 ∧
  State.reset.pwr.start = 0 ∧
  State.reset.tx.out = .quiet ∧ State.reset.tx.request = false ∧
  State.reset.tx.resetActive = true ∧ State.reset.tx.tUp = 10000 ∧ State.reset.tx.tDown = 10000 ∧
  State.reset.tx.filter.beta = 5 ∧ State.reset.tx.filter.boost = 2 ∧ State.reset.tx.filter.rms = 128 ∧
  State.reset.rx.acq = 0 ∧ State.reset.rx.cfg.losRms = 16 ∧ State.reset.rx.cfg.lambda = 155000 ∧
  State.reset.dec.cfg = {
    stealGain := 256, stealEnable := true, fixed := false, budgetAuto := true, iterWhey := 0
    iterMin := 2, iterMax := 16, budget := 72, deadline := 900, bank := 256 } ∧
  State.reset.dec.credits = [128, 16, 64, 64, 64, 64, 192, 64, 32] ∧
  State.reset.dec.shares = State.reset.dec.credits ∧
  State.reset.dpll.current = none ∧ State.reset.dpll.target = none ∧ State.reset.dpll.wtr = 300 ∧
  State.reset.tim.counter = 0 ∧ State.reset.tim.base = 4 * 2 ^ 32 ∧ State.reset.tim.valid = false ∧
  State.reset.mon.seq = [] ∧ State.reset.skim.capture = .idle ∧
  State.reset.cry.officer = none ∧ State.reset.cry.seq = 0 ∧ State.reset.cry.tagLimit = 8 ∧
  State.reset.evt.watermark = 2048 ∧ State.reset.evt.overwrite = false ∧
  State.reset.pmu.window = 1000 ∧ State.reset.pmu.view = 0 ∧ State.reset.mem.cells = [] ∧ State.reset.mem.merge = [] ∧
  (∀ off, cntAt State.reset.evt off = 0) ∧
  (∀ i, (srcAt State.reset.evt i).p = false ∧ (srcAt State.reset.evt i).e = false ∧
    (srcAt State.reset.evt i).s = false ∧ (srcAt State.reset.evt i).c = 0) ∧
  (∀ n, (grpAt State.reset.evt n).logmask = (if n = 1 then 0 else 0xFFFF) ∧
    (grpAt State.reset.evt n).route = 0 ∧ (grpAt State.reset.evt n).holdoff = 0) ∧
  (∀ r, (tabGet {} State.reset.cmd.sq r).size = 1 ∧ (tabGet {} State.reset.cmd.sq r).enable = false) ∧
  (∀ c, (tabGet {} State.reset.cry.ctx c).slot0 = .empty ∧
    (tabGet {} State.reset.cry.ctx c).slot1 = .empty) ∧
  (∀ g, (tabGet {} State.reset.mem.grp g).lapLimit =
    (if g ∈ [2, 3, 4, 5] then 2500 else if g ∈ [7, 8] then 1000 else if g ∈ [9, 10] then 5000
      else 4000)) ∧
  MemoryCanonical State.reset ∧ JobIdsFresh State.reset ∧ CounterTablesCanonical State.reset

/-- Whatever command is at the front of the queue, and whatever the state, a step from a state
whose protected memories are in canonical form (addresses strictly rising, no entry equal to what
an unlisted word reads as; the coefficient sets of group 9 likewise) answers a state where they
are. (15_memory_integrity.md, 19_address_map.md) -/
def Obligations.MemoryStaysCanonical : Prop :=
  ∀ s t : State, step s = .next t → MemoryCanonical s → MemoryCanonical t

/-- Whatever command is at the front of the queue, and whatever the state: a step from a state
whose outstanding commands have distinct numbers, all given out already, answers such a state; and
a step from a state whose tables of sources, groups, counters and shadow counters are in canonical
form answers such a state. (13_command_packets.md, 14_interrupts_and_event_log.md, 16_counters.md) -/
def Obligations.CountersAndCommandsStaySound : Prop :=
  ∀ s t : State, step s = .next t →
    (JobIdsFresh s → JobIdsFresh t) ∧ (CounterTablesCanonical s → CounterTablesCanonical t)

/-- The device leaves ZEROISED by a device reset (power, RESET_N, a supply fault, a thermal trip,
or the end of OP_RESET), each of which always does, or by an officer key load that completes
ST_OK. After such a key load the device is in READY (R10). Its first clause goes beyond R10: a
step keeps the mode or takes it from one mode to another that the table of R502 joins (the table's
causes and preconditions are not part of it). Next states given here: POWER_ON, RESET_N_LOW,
SUPPLY_FAULT, THERMAL_TRIP, RESET_COMMAND_ENTRY. (R10) -/
def Obligations.ModeChanges : Prop :=
  (∀ s t : State, step s = .next t →
    modeStep s.pwr.mode t.pwr.mode = true ∧
    (s.pwr.mode = .zeroised → t.pwr.mode ≠ .zeroised → ∃ c rest, s.pending = c :: rest ∧
      (t.pwr.mode = .reset ∧ ((∃ rail, c = .supplyFault rail) ∨
          c ∈ [Instr.powerOn, .resetNLow, .thermalTrip, .resetCommandEntry]) ∨
        t.pwr.mode = .ready ∧ ∃ j r, c = .opKeyLoad j ∧ AtStage j .fetched s ∧
          Ended j stOk true r t))) ∧
  (∀ (j : Nat) (r : List Word) (s t : State), s.pwr.mode = .zeroised → AtStage j .fetched s →
    exec (.opKeyLoad j) s = .next t → Ended j stOk true r t → t.pwr.mode = .ready) ∧
  (∀ (c : Instr) (rail : BitVec 4) (s : State),
    c ∈ [Instr.powerOn, .resetNLow, .thermalTrip, .supplyFault rail] ∨
      c = .resetCommandEntry ∧ s.cmd.resetWritten = true ∧
        2500 ≤ (s.evt.period - s.cmd.resetAt).toNat →
    Gives c s fun t => t.pwr.mode = .reset)
end

