-- ==== Sys2Proof/Laws/State.lean ====
section
/-!
SUPPORT. What each update of one part of the state leaves: that part changed by the function, every
other part as it was.
-/

namespace Sys2Proof.Machine

/-- Two states that agree in every part are equal. -/
theorem State.ext_parts {s t : State} (h1 : s.pending = t.pending) (h2 : s.evt = t.evt)
    (h3 : s.pwr = t.pwr) (h4 : s.cmd = t.cmd) (h5 : s.mem = t.mem) (h6 : s.pmu = t.pmu)
    (h7 : s.bus = t.bus) (h8 : s.tim = t.tim) (h9 : s.dpll = t.dpll) (h10 : s.prof = t.prof)
    (h11 : s.frm = t.frm) (h12 : s.circ = t.circ) (h13 : s.lane = t.lane) (h14 : s.tx = t.tx)
    (h15 : s.rx = t.rx) (h16 : s.dec = t.dec) (h17 : s.mon = t.mon) (h18 : s.skim = t.skim)
    (h19 : s.cry = t.cry) (h20 : s.free = t.free) (h21 : s.noted = t.noted)
    (h22 : s.carried = t.carried) : s = t := by
  cases s; cases t; simp_all

/-! ### State.onEvt -/

@[simp] theorem State.onEvt_pending (f : Evt → Evt) (s : State) : (s.onEvt f).pending = s.pending := rfl
@[simp] theorem State.onEvt_evt (f : Evt → Evt) (s : State) : (s.onEvt f).evt = f s.evt := rfl
@[simp] theorem State.onEvt_pwr (f : Evt → Evt) (s : State) : (s.onEvt f).pwr = s.pwr := rfl
@[simp] theorem State.onEvt_cmd (f : Evt → Evt) (s : State) : (s.onEvt f).cmd = s.cmd := rfl
@[simp] theorem State.onEvt_mem (f : Evt → Evt) (s : State) : (s.onEvt f).mem = s.mem := rfl
@[simp] theorem State.onEvt_pmu (f : Evt → Evt) (s : State) : (s.onEvt f).pmu = s.pmu := rfl
@[simp] theorem State.onEvt_bus (f : Evt → Evt) (s : State) : (s.onEvt f).bus = s.bus := rfl
@[simp] theorem State.onEvt_tim (f : Evt → Evt) (s : State) : (s.onEvt f).tim = s.tim := rfl
@[simp] theorem State.onEvt_dpll (f : Evt → Evt) (s : State) : (s.onEvt f).dpll = s.dpll := rfl
@[simp] theorem State.onEvt_prof (f : Evt → Evt) (s : State) : (s.onEvt f).prof = s.prof := rfl
@[simp] theorem State.onEvt_frm (f : Evt → Evt) (s : State) : (s.onEvt f).frm = s.frm := rfl
@[simp] theorem State.onEvt_circ (f : Evt → Evt) (s : State) : (s.onEvt f).circ = s.circ := rfl
@[simp] theorem State.onEvt_lane (f : Evt → Evt) (s : State) : (s.onEvt f).lane = s.lane := rfl
@[simp] theorem State.onEvt_tx (f : Evt → Evt) (s : State) : (s.onEvt f).tx = s.tx := rfl
@[simp] theorem State.onEvt_rx (f : Evt → Evt) (s : State) : (s.onEvt f).rx = s.rx := rfl
@[simp] theorem State.onEvt_dec (f : Evt → Evt) (s : State) : (s.onEvt f).dec = s.dec := rfl
@[simp] theorem State.onEvt_mon (f : Evt → Evt) (s : State) : (s.onEvt f).mon = s.mon := rfl
@[simp] theorem State.onEvt_skim (f : Evt → Evt) (s : State) : (s.onEvt f).skim = s.skim := rfl
@[simp] theorem State.onEvt_cry (f : Evt → Evt) (s : State) : (s.onEvt f).cry = s.cry := rfl
@[simp] theorem State.onEvt_free (f : Evt → Evt) (s : State) : (s.onEvt f).free = s.free := rfl
@[simp] theorem State.onEvt_noted (f : Evt → Evt) (s : State) : (s.onEvt f).noted = s.noted := rfl
@[simp] theorem State.onEvt_carried (f : Evt → Evt) (s : State) : (s.onEvt f).carried = s.carried := rfl

/-! ### State.onPwr -/

@[simp] theorem State.onPwr_pending (f : Pwr → Pwr) (s : State) : (s.onPwr f).pending = s.pending := rfl
@[simp] theorem State.onPwr_evt (f : Pwr → Pwr) (s : State) : (s.onPwr f).evt = s.evt := rfl
@[simp] theorem State.onPwr_pwr (f : Pwr → Pwr) (s : State) : (s.onPwr f).pwr = f s.pwr := rfl
@[simp] theorem State.onPwr_cmd (f : Pwr → Pwr) (s : State) : (s.onPwr f).cmd = s.cmd := rfl
@[simp] theorem State.onPwr_mem (f : Pwr → Pwr) (s : State) : (s.onPwr f).mem = s.mem := rfl
@[simp] theorem State.onPwr_pmu (f : Pwr → Pwr) (s : State) : (s.onPwr f).pmu = s.pmu := rfl
@[simp] theorem State.onPwr_bus (f : Pwr → Pwr) (s : State) : (s.onPwr f).bus = s.bus := rfl
@[simp] theorem State.onPwr_tim (f : Pwr → Pwr) (s : State) : (s.onPwr f).tim = s.tim := rfl
@[simp] theorem State.onPwr_dpll (f : Pwr → Pwr) (s : State) : (s.onPwr f).dpll = s.dpll := rfl
@[simp] theorem State.onPwr_prof (f : Pwr → Pwr) (s : State) : (s.onPwr f).prof = s.prof := rfl
@[simp] theorem State.onPwr_frm (f : Pwr → Pwr) (s : State) : (s.onPwr f).frm = s.frm := rfl
@[simp] theorem State.onPwr_circ (f : Pwr → Pwr) (s : State) : (s.onPwr f).circ = s.circ := rfl
@[simp] theorem State.onPwr_lane (f : Pwr → Pwr) (s : State) : (s.onPwr f).lane = s.lane := rfl
@[simp] theorem State.onPwr_tx (f : Pwr → Pwr) (s : State) : (s.onPwr f).tx = s.tx := rfl
@[simp] theorem State.onPwr_rx (f : Pwr → Pwr) (s : State) : (s.onPwr f).rx = s.rx := rfl
@[simp] theorem State.onPwr_dec (f : Pwr → Pwr) (s : State) : (s.onPwr f).dec = s.dec := rfl
@[simp] theorem State.onPwr_mon (f : Pwr → Pwr) (s : State) : (s.onPwr f).mon = s.mon := rfl
@[simp] theorem State.onPwr_skim (f : Pwr → Pwr) (s : State) : (s.onPwr f).skim = s.skim := rfl
@[simp] theorem State.onPwr_cry (f : Pwr → Pwr) (s : State) : (s.onPwr f).cry = s.cry := rfl
@[simp] theorem State.onPwr_free (f : Pwr → Pwr) (s : State) : (s.onPwr f).free = s.free := rfl
@[simp] theorem State.onPwr_noted (f : Pwr → Pwr) (s : State) : (s.onPwr f).noted = s.noted := rfl
@[simp] theorem State.onPwr_carried (f : Pwr → Pwr) (s : State) : (s.onPwr f).carried = s.carried := rfl

/-! ### State.onCmd -/

@[simp] theorem State.onCmd_pending (f : Cmd → Cmd) (s : State) : (s.onCmd f).pending = s.pending := rfl
@[simp] theorem State.onCmd_evt (f : Cmd → Cmd) (s : State) : (s.onCmd f).evt = s.evt := rfl
@[simp] theorem State.onCmd_pwr (f : Cmd → Cmd) (s : State) : (s.onCmd f).pwr = s.pwr := rfl
@[simp] theorem State.onCmd_cmd (f : Cmd → Cmd) (s : State) : (s.onCmd f).cmd = f s.cmd := rfl
@[simp] theorem State.onCmd_mem (f : Cmd → Cmd) (s : State) : (s.onCmd f).mem = s.mem := rfl
@[simp] theorem State.onCmd_pmu (f : Cmd → Cmd) (s : State) : (s.onCmd f).pmu = s.pmu := rfl
@[simp] theorem State.onCmd_bus (f : Cmd → Cmd) (s : State) : (s.onCmd f).bus = s.bus := rfl
@[simp] theorem State.onCmd_tim (f : Cmd → Cmd) (s : State) : (s.onCmd f).tim = s.tim := rfl
@[simp] theorem State.onCmd_dpll (f : Cmd → Cmd) (s : State) : (s.onCmd f).dpll = s.dpll := rfl
@[simp] theorem State.onCmd_prof (f : Cmd → Cmd) (s : State) : (s.onCmd f).prof = s.prof := rfl
@[simp] theorem State.onCmd_frm (f : Cmd → Cmd) (s : State) : (s.onCmd f).frm = s.frm := rfl
@[simp] theorem State.onCmd_circ (f : Cmd → Cmd) (s : State) : (s.onCmd f).circ = s.circ := rfl
@[simp] theorem State.onCmd_lane (f : Cmd → Cmd) (s : State) : (s.onCmd f).lane = s.lane := rfl
@[simp] theorem State.onCmd_tx (f : Cmd → Cmd) (s : State) : (s.onCmd f).tx = s.tx := rfl
@[simp] theorem State.onCmd_rx (f : Cmd → Cmd) (s : State) : (s.onCmd f).rx = s.rx := rfl
@[simp] theorem State.onCmd_dec (f : Cmd → Cmd) (s : State) : (s.onCmd f).dec = s.dec := rfl
@[simp] theorem State.onCmd_mon (f : Cmd → Cmd) (s : State) : (s.onCmd f).mon = s.mon := rfl
@[simp] theorem State.onCmd_skim (f : Cmd → Cmd) (s : State) : (s.onCmd f).skim = s.skim := rfl
@[simp] theorem State.onCmd_cry (f : Cmd → Cmd) (s : State) : (s.onCmd f).cry = s.cry := rfl
@[simp] theorem State.onCmd_free (f : Cmd → Cmd) (s : State) : (s.onCmd f).free = s.free := rfl
@[simp] theorem State.onCmd_noted (f : Cmd → Cmd) (s : State) : (s.onCmd f).noted = s.noted := rfl
@[simp] theorem State.onCmd_carried (f : Cmd → Cmd) (s : State) : (s.onCmd f).carried = s.carried := rfl

/-! ### State.onMem -/

@[simp] theorem State.onMem_pending (f : Mem → Mem) (s : State) : (s.onMem f).pending = s.pending := rfl
@[simp] theorem State.onMem_evt (f : Mem → Mem) (s : State) : (s.onMem f).evt = s.evt := rfl
@[simp] theorem State.onMem_pwr (f : Mem → Mem) (s : State) : (s.onMem f).pwr = s.pwr := rfl
@[simp] theorem State.onMem_cmd (f : Mem → Mem) (s : State) : (s.onMem f).cmd = s.cmd := rfl
@[simp] theorem State.onMem_mem (f : Mem → Mem) (s : State) : (s.onMem f).mem = f s.mem := rfl
@[simp] theorem State.onMem_pmu (f : Mem → Mem) (s : State) : (s.onMem f).pmu = s.pmu := rfl
@[simp] theorem State.onMem_bus (f : Mem → Mem) (s : State) : (s.onMem f).bus = s.bus := rfl
@[simp] theorem State.onMem_tim (f : Mem → Mem) (s : State) : (s.onMem f).tim = s.tim := rfl
@[simp] theorem State.onMem_dpll (f : Mem → Mem) (s : State) : (s.onMem f).dpll = s.dpll := rfl
@[simp] theorem State.onMem_prof (f : Mem → Mem) (s : State) : (s.onMem f).prof = s.prof := rfl
@[simp] theorem State.onMem_frm (f : Mem → Mem) (s : State) : (s.onMem f).frm = s.frm := rfl
@[simp] theorem State.onMem_circ (f : Mem → Mem) (s : State) : (s.onMem f).circ = s.circ := rfl
@[simp] theorem State.onMem_lane (f : Mem → Mem) (s : State) : (s.onMem f).lane = s.lane := rfl
@[simp] theorem State.onMem_tx (f : Mem → Mem) (s : State) : (s.onMem f).tx = s.tx := rfl
@[simp] theorem State.onMem_rx (f : Mem → Mem) (s : State) : (s.onMem f).rx = s.rx := rfl
@[simp] theorem State.onMem_dec (f : Mem → Mem) (s : State) : (s.onMem f).dec = s.dec := rfl
@[simp] theorem State.onMem_mon (f : Mem → Mem) (s : State) : (s.onMem f).mon = s.mon := rfl
@[simp] theorem State.onMem_skim (f : Mem → Mem) (s : State) : (s.onMem f).skim = s.skim := rfl
@[simp] theorem State.onMem_cry (f : Mem → Mem) (s : State) : (s.onMem f).cry = s.cry := rfl
@[simp] theorem State.onMem_free (f : Mem → Mem) (s : State) : (s.onMem f).free = s.free := rfl
@[simp] theorem State.onMem_noted (f : Mem → Mem) (s : State) : (s.onMem f).noted = s.noted := rfl
@[simp] theorem State.onMem_carried (f : Mem → Mem) (s : State) : (s.onMem f).carried = s.carried := rfl

/-! ### State.onPmu -/

@[simp] theorem State.onPmu_pending (f : Pmu → Pmu) (s : State) : (s.onPmu f).pending = s.pending := rfl
@[simp] theorem State.onPmu_evt (f : Pmu → Pmu) (s : State) : (s.onPmu f).evt = s.evt := rfl
@[simp] theorem State.onPmu_pwr (f : Pmu → Pmu) (s : State) : (s.onPmu f).pwr = s.pwr := rfl
@[simp] theorem State.onPmu_cmd (f : Pmu → Pmu) (s : State) : (s.onPmu f).cmd = s.cmd := rfl
@[simp] theorem State.onPmu_mem (f : Pmu → Pmu) (s : State) : (s.onPmu f).mem = s.mem := rfl
@[simp] theorem State.onPmu_pmu (f : Pmu → Pmu) (s : State) : (s.onPmu f).pmu = f s.pmu := rfl
@[simp] theorem State.onPmu_bus (f : Pmu → Pmu) (s : State) : (s.onPmu f).bus = s.bus := rfl
@[simp] theorem State.onPmu_tim (f : Pmu → Pmu) (s : State) : (s.onPmu f).tim = s.tim := rfl
@[simp] theorem State.onPmu_dpll (f : Pmu → Pmu) (s : State) : (s.onPmu f).dpll = s.dpll := rfl
@[simp] theorem State.onPmu_prof (f : Pmu → Pmu) (s : State) : (s.onPmu f).prof = s.prof := rfl
@[simp] theorem State.onPmu_frm (f : Pmu → Pmu) (s : State) : (s.onPmu f).frm = s.frm := rfl
@[simp] theorem State.onPmu_circ (f : Pmu → Pmu) (s : State) : (s.onPmu f).circ = s.circ := rfl
@[simp] theorem State.onPmu_lane (f : Pmu → Pmu) (s : State) : (s.onPmu f).lane = s.lane := rfl
@[simp] theorem State.onPmu_tx (f : Pmu → Pmu) (s : State) : (s.onPmu f).tx = s.tx := rfl
@[simp] theorem State.onPmu_rx (f : Pmu → Pmu) (s : State) : (s.onPmu f).rx = s.rx := rfl
@[simp] theorem State.onPmu_dec (f : Pmu → Pmu) (s : State) : (s.onPmu f).dec = s.dec := rfl
@[simp] theorem State.onPmu_mon (f : Pmu → Pmu) (s : State) : (s.onPmu f).mon = s.mon := rfl
@[simp] theorem State.onPmu_skim (f : Pmu → Pmu) (s : State) : (s.onPmu f).skim = s.skim := rfl
@[simp] theorem State.onPmu_cry (f : Pmu → Pmu) (s : State) : (s.onPmu f).cry = s.cry := rfl
@[simp] theorem State.onPmu_free (f : Pmu → Pmu) (s : State) : (s.onPmu f).free = s.free := rfl
@[simp] theorem State.onPmu_noted (f : Pmu → Pmu) (s : State) : (s.onPmu f).noted = s.noted := rfl
@[simp] theorem State.onPmu_carried (f : Pmu → Pmu) (s : State) : (s.onPmu f).carried = s.carried := rfl

/-! ### State.onBus -/

@[simp] theorem State.onBus_pending (f : Bus → Bus) (s : State) : (s.onBus f).pending = s.pending := rfl
@[simp] theorem State.onBus_evt (f : Bus → Bus) (s : State) : (s.onBus f).evt = s.evt := rfl
@[simp] theorem State.onBus_pwr (f : Bus → Bus) (s : State) : (s.onBus f).pwr = s.pwr := rfl
@[simp] theorem State.onBus_cmd (f : Bus → Bus) (s : State) : (s.onBus f).cmd = s.cmd := rfl
@[simp] theorem State.onBus_mem (f : Bus → Bus) (s : State) : (s.onBus f).mem = s.mem := rfl
@[simp] theorem State.onBus_pmu (f : Bus → Bus) (s : State) : (s.onBus f).pmu = s.pmu := rfl
@[simp] theorem State.onBus_bus (f : Bus → Bus) (s : State) : (s.onBus f).bus = f s.bus := rfl
@[simp] theorem State.onBus_tim (f : Bus → Bus) (s : State) : (s.onBus f).tim = s.tim := rfl
@[simp] theorem State.onBus_dpll (f : Bus → Bus) (s : State) : (s.onBus f).dpll = s.dpll := rfl
@[simp] theorem State.onBus_prof (f : Bus → Bus) (s : State) : (s.onBus f).prof = s.prof := rfl
@[simp] theorem State.onBus_frm (f : Bus → Bus) (s : State) : (s.onBus f).frm = s.frm := rfl
@[simp] theorem State.onBus_circ (f : Bus → Bus) (s : State) : (s.onBus f).circ = s.circ := rfl
@[simp] theorem State.onBus_lane (f : Bus → Bus) (s : State) : (s.onBus f).lane = s.lane := rfl
@[simp] theorem State.onBus_tx (f : Bus → Bus) (s : State) : (s.onBus f).tx = s.tx := rfl
@[simp] theorem State.onBus_rx (f : Bus → Bus) (s : State) : (s.onBus f).rx = s.rx := rfl
@[simp] theorem State.onBus_dec (f : Bus → Bus) (s : State) : (s.onBus f).dec = s.dec := rfl
@[simp] theorem State.onBus_mon (f : Bus → Bus) (s : State) : (s.onBus f).mon = s.mon := rfl
@[simp] theorem State.onBus_skim (f : Bus → Bus) (s : State) : (s.onBus f).skim = s.skim := rfl
@[simp] theorem State.onBus_cry (f : Bus → Bus) (s : State) : (s.onBus f).cry = s.cry := rfl
@[simp] theorem State.onBus_free (f : Bus → Bus) (s : State) : (s.onBus f).free = s.free := rfl
@[simp] theorem State.onBus_noted (f : Bus → Bus) (s : State) : (s.onBus f).noted = s.noted := rfl
@[simp] theorem State.onBus_carried (f : Bus → Bus) (s : State) : (s.onBus f).carried = s.carried := rfl

/-! ### State.onTim -/

@[simp] theorem State.onTim_pending (f : Tim → Tim) (s : State) : (s.onTim f).pending = s.pending := rfl
@[simp] theorem State.onTim_evt (f : Tim → Tim) (s : State) : (s.onTim f).evt = s.evt := rfl
@[simp] theorem State.onTim_pwr (f : Tim → Tim) (s : State) : (s.onTim f).pwr = s.pwr := rfl
@[simp] theorem State.onTim_cmd (f : Tim → Tim) (s : State) : (s.onTim f).cmd = s.cmd := rfl
@[simp] theorem State.onTim_mem (f : Tim → Tim) (s : State) : (s.onTim f).mem = s.mem := rfl
@[simp] theorem State.onTim_pmu (f : Tim → Tim) (s : State) : (s.onTim f).pmu = s.pmu := rfl
@[simp] theorem State.onTim_bus (f : Tim → Tim) (s : State) : (s.onTim f).bus = s.bus := rfl
@[simp] theorem State.onTim_tim (f : Tim → Tim) (s : State) : (s.onTim f).tim = f s.tim := rfl
@[simp] theorem State.onTim_dpll (f : Tim → Tim) (s : State) : (s.onTim f).dpll = s.dpll := rfl
@[simp] theorem State.onTim_prof (f : Tim → Tim) (s : State) : (s.onTim f).prof = s.prof := rfl
@[simp] theorem State.onTim_frm (f : Tim → Tim) (s : State) : (s.onTim f).frm = s.frm := rfl
@[simp] theorem State.onTim_circ (f : Tim → Tim) (s : State) : (s.onTim f).circ = s.circ := rfl
@[simp] theorem State.onTim_lane (f : Tim → Tim) (s : State) : (s.onTim f).lane = s.lane := rfl
@[simp] theorem State.onTim_tx (f : Tim → Tim) (s : State) : (s.onTim f).tx = s.tx := rfl
@[simp] theorem State.onTim_rx (f : Tim → Tim) (s : State) : (s.onTim f).rx = s.rx := rfl
@[simp] theorem State.onTim_dec (f : Tim → Tim) (s : State) : (s.onTim f).dec = s.dec := rfl
@[simp] theorem State.onTim_mon (f : Tim → Tim) (s : State) : (s.onTim f).mon = s.mon := rfl
@[simp] theorem State.onTim_skim (f : Tim → Tim) (s : State) : (s.onTim f).skim = s.skim := rfl
@[simp] theorem State.onTim_cry (f : Tim → Tim) (s : State) : (s.onTim f).cry = s.cry := rfl
@[simp] theorem State.onTim_free (f : Tim → Tim) (s : State) : (s.onTim f).free = s.free := rfl
@[simp] theorem State.onTim_noted (f : Tim → Tim) (s : State) : (s.onTim f).noted = s.noted := rfl
@[simp] theorem State.onTim_carried (f : Tim → Tim) (s : State) : (s.onTim f).carried = s.carried := rfl

/-! ### State.onDpll -/

@[simp] theorem State.onDpll_pending (f : Dpll → Dpll) (s : State) : (s.onDpll f).pending = s.pending := rfl
@[simp] theorem State.onDpll_evt (f : Dpll → Dpll) (s : State) : (s.onDpll f).evt = s.evt := rfl
@[simp] theorem State.onDpll_pwr (f : Dpll → Dpll) (s : State) : (s.onDpll f).pwr = s.pwr := rfl
@[simp] theorem State.onDpll_cmd (f : Dpll → Dpll) (s : State) : (s.onDpll f).cmd = s.cmd := rfl
@[simp] theorem State.onDpll_mem (f : Dpll → Dpll) (s : State) : (s.onDpll f).mem = s.mem := rfl
@[simp] theorem State.onDpll_pmu (f : Dpll → Dpll) (s : State) : (s.onDpll f).pmu = s.pmu := rfl
@[simp] theorem State.onDpll_bus (f : Dpll → Dpll) (s : State) : (s.onDpll f).bus = s.bus := rfl
@[simp] theorem State.onDpll_tim (f : Dpll → Dpll) (s : State) : (s.onDpll f).tim = s.tim := rfl
@[simp] theorem State.onDpll_dpll (f : Dpll → Dpll) (s : State) : (s.onDpll f).dpll = f s.dpll := rfl
@[simp] theorem State.onDpll_prof (f : Dpll → Dpll) (s : State) : (s.onDpll f).prof = s.prof := rfl
@[simp] theorem State.onDpll_frm (f : Dpll → Dpll) (s : State) : (s.onDpll f).frm = s.frm := rfl
@[simp] theorem State.onDpll_circ (f : Dpll → Dpll) (s : State) : (s.onDpll f).circ = s.circ := rfl
@[simp] theorem State.onDpll_lane (f : Dpll → Dpll) (s : State) : (s.onDpll f).lane = s.lane := rfl
@[simp] theorem State.onDpll_tx (f : Dpll → Dpll) (s : State) : (s.onDpll f).tx = s.tx := rfl
@[simp] theorem State.onDpll_rx (f : Dpll → Dpll) (s : State) : (s.onDpll f).rx = s.rx := rfl
@[simp] theorem State.onDpll_dec (f : Dpll → Dpll) (s : State) : (s.onDpll f).dec = s.dec := rfl
@[simp] theorem State.onDpll_mon (f : Dpll → Dpll) (s : State) : (s.onDpll f).mon = s.mon := rfl
@[simp] theorem State.onDpll_skim (f : Dpll → Dpll) (s : State) : (s.onDpll f).skim = s.skim := rfl
@[simp] theorem State.onDpll_cry (f : Dpll → Dpll) (s : State) : (s.onDpll f).cry = s.cry := rfl
@[simp] theorem State.onDpll_free (f : Dpll → Dpll) (s : State) : (s.onDpll f).free = s.free := rfl
@[simp] theorem State.onDpll_noted (f : Dpll → Dpll) (s : State) : (s.onDpll f).noted = s.noted := rfl
@[simp] theorem State.onDpll_carried (f : Dpll → Dpll) (s : State) : (s.onDpll f).carried = s.carried := rfl

/-! ### State.onCry -/

@[simp] theorem State.onCry_pending (f : Cry → Cry) (s : State) : (s.onCry f).pending = s.pending := rfl
@[simp] theorem State.onCry_evt (f : Cry → Cry) (s : State) : (s.onCry f).evt = s.evt := rfl
@[simp] theorem State.onCry_pwr (f : Cry → Cry) (s : State) : (s.onCry f).pwr = s.pwr := rfl
@[simp] theorem State.onCry_cmd (f : Cry → Cry) (s : State) : (s.onCry f).cmd = s.cmd := rfl
@[simp] theorem State.onCry_mem (f : Cry → Cry) (s : State) : (s.onCry f).mem = s.mem := rfl
@[simp] theorem State.onCry_pmu (f : Cry → Cry) (s : State) : (s.onCry f).pmu = s.pmu := rfl
@[simp] theorem State.onCry_bus (f : Cry → Cry) (s : State) : (s.onCry f).bus = s.bus := rfl
@[simp] theorem State.onCry_tim (f : Cry → Cry) (s : State) : (s.onCry f).tim = s.tim := rfl
@[simp] theorem State.onCry_dpll (f : Cry → Cry) (s : State) : (s.onCry f).dpll = s.dpll := rfl
@[simp] theorem State.onCry_prof (f : Cry → Cry) (s : State) : (s.onCry f).prof = s.prof := rfl
@[simp] theorem State.onCry_frm (f : Cry → Cry) (s : State) : (s.onCry f).frm = s.frm := rfl
@[simp] theorem State.onCry_circ (f : Cry → Cry) (s : State) : (s.onCry f).circ = s.circ := rfl
@[simp] theorem State.onCry_lane (f : Cry → Cry) (s : State) : (s.onCry f).lane = s.lane := rfl
@[simp] theorem State.onCry_tx (f : Cry → Cry) (s : State) : (s.onCry f).tx = s.tx := rfl
@[simp] theorem State.onCry_rx (f : Cry → Cry) (s : State) : (s.onCry f).rx = s.rx := rfl
@[simp] theorem State.onCry_dec (f : Cry → Cry) (s : State) : (s.onCry f).dec = s.dec := rfl
@[simp] theorem State.onCry_mon (f : Cry → Cry) (s : State) : (s.onCry f).mon = s.mon := rfl
@[simp] theorem State.onCry_skim (f : Cry → Cry) (s : State) : (s.onCry f).skim = s.skim := rfl
@[simp] theorem State.onCry_cry (f : Cry → Cry) (s : State) : (s.onCry f).cry = f s.cry := rfl
@[simp] theorem State.onCry_free (f : Cry → Cry) (s : State) : (s.onCry f).free = s.free := rfl
@[simp] theorem State.onCry_noted (f : Cry → Cry) (s : State) : (s.onCry f).noted = s.noted := rfl
@[simp] theorem State.onCry_carried (f : Cry → Cry) (s : State) : (s.onCry f).carried = s.carried := rfl

/-! ### State.onProf -/

@[simp] theorem State.onProf_pending (f : Profile → Profile) (s : State) : (s.onProf f).pending = s.pending := rfl
@[simp] theorem State.onProf_evt (f : Profile → Profile) (s : State) : (s.onProf f).evt = s.evt := rfl
@[simp] theorem State.onProf_pwr (f : Profile → Profile) (s : State) : (s.onProf f).pwr = s.pwr := rfl
@[simp] theorem State.onProf_cmd (f : Profile → Profile) (s : State) : (s.onProf f).cmd = s.cmd := rfl
@[simp] theorem State.onProf_mem (f : Profile → Profile) (s : State) : (s.onProf f).mem = s.mem := rfl
@[simp] theorem State.onProf_pmu (f : Profile → Profile) (s : State) : (s.onProf f).pmu = s.pmu := rfl
@[simp] theorem State.onProf_bus (f : Profile → Profile) (s : State) : (s.onProf f).bus = s.bus := rfl
@[simp] theorem State.onProf_tim (f : Profile → Profile) (s : State) : (s.onProf f).tim = s.tim := rfl
@[simp] theorem State.onProf_dpll (f : Profile → Profile) (s : State) : (s.onProf f).dpll = s.dpll := rfl
@[simp] theorem State.onProf_prof (f : Profile → Profile) (s : State) : (s.onProf f).prof = f s.prof := rfl
@[simp] theorem State.onProf_frm (f : Profile → Profile) (s : State) : (s.onProf f).frm = s.frm := rfl
@[simp] theorem State.onProf_circ (f : Profile → Profile) (s : State) : (s.onProf f).circ = s.circ := rfl
@[simp] theorem State.onProf_lane (f : Profile → Profile) (s : State) : (s.onProf f).lane = s.lane := rfl
@[simp] theorem State.onProf_tx (f : Profile → Profile) (s : State) : (s.onProf f).tx = s.tx := rfl
@[simp] theorem State.onProf_rx (f : Profile → Profile) (s : State) : (s.onProf f).rx = s.rx := rfl
@[simp] theorem State.onProf_dec (f : Profile → Profile) (s : State) : (s.onProf f).dec = s.dec := rfl
@[simp] theorem State.onProf_mon (f : Profile → Profile) (s : State) : (s.onProf f).mon = s.mon := rfl
@[simp] theorem State.onProf_skim (f : Profile → Profile) (s : State) : (s.onProf f).skim = s.skim := rfl
@[simp] theorem State.onProf_cry (f : Profile → Profile) (s : State) : (s.onProf f).cry = s.cry := rfl
@[simp] theorem State.onProf_free (f : Profile → Profile) (s : State) : (s.onProf f).free = s.free := rfl
@[simp] theorem State.onProf_noted (f : Profile → Profile) (s : State) : (s.onProf f).noted = s.noted := rfl
@[simp] theorem State.onProf_carried (f : Profile → Profile) (s : State) : (s.onProf f).carried = s.carried := rfl

/-! ### State.onFrm -/

@[simp] theorem State.onFrm_pending (f : Frm → Frm) (s : State) : (s.onFrm f).pending = s.pending := rfl
@[simp] theorem State.onFrm_evt (f : Frm → Frm) (s : State) : (s.onFrm f).evt = s.evt := rfl
@[simp] theorem State.onFrm_pwr (f : Frm → Frm) (s : State) : (s.onFrm f).pwr = s.pwr := rfl
@[simp] theorem State.onFrm_cmd (f : Frm → Frm) (s : State) : (s.onFrm f).cmd = s.cmd := rfl
@[simp] theorem State.onFrm_mem (f : Frm → Frm) (s : State) : (s.onFrm f).mem = s.mem := rfl
@[simp] theorem State.onFrm_pmu (f : Frm → Frm) (s : State) : (s.onFrm f).pmu = s.pmu := rfl
@[simp] theorem State.onFrm_bus (f : Frm → Frm) (s : State) : (s.onFrm f).bus = s.bus := rfl
@[simp] theorem State.onFrm_tim (f : Frm → Frm) (s : State) : (s.onFrm f).tim = s.tim := rfl
@[simp] theorem State.onFrm_dpll (f : Frm → Frm) (s : State) : (s.onFrm f).dpll = s.dpll := rfl
@[simp] theorem State.onFrm_prof (f : Frm → Frm) (s : State) : (s.onFrm f).prof = s.prof := rfl
@[simp] theorem State.onFrm_frm (f : Frm → Frm) (s : State) : (s.onFrm f).frm = f s.frm := rfl
@[simp] theorem State.onFrm_circ (f : Frm → Frm) (s : State) : (s.onFrm f).circ = s.circ := rfl
@[simp] theorem State.onFrm_lane (f : Frm → Frm) (s : State) : (s.onFrm f).lane = s.lane := rfl
@[simp] theorem State.onFrm_tx (f : Frm → Frm) (s : State) : (s.onFrm f).tx = s.tx := rfl
@[simp] theorem State.onFrm_rx (f : Frm → Frm) (s : State) : (s.onFrm f).rx = s.rx := rfl
@[simp] theorem State.onFrm_dec (f : Frm → Frm) (s : State) : (s.onFrm f).dec = s.dec := rfl
@[simp] theorem State.onFrm_mon (f : Frm → Frm) (s : State) : (s.onFrm f).mon = s.mon := rfl
@[simp] theorem State.onFrm_skim (f : Frm → Frm) (s : State) : (s.onFrm f).skim = s.skim := rfl
@[simp] theorem State.onFrm_cry (f : Frm → Frm) (s : State) : (s.onFrm f).cry = s.cry := rfl
@[simp] theorem State.onFrm_free (f : Frm → Frm) (s : State) : (s.onFrm f).free = s.free := rfl
@[simp] theorem State.onFrm_noted (f : Frm → Frm) (s : State) : (s.onFrm f).noted = s.noted := rfl
@[simp] theorem State.onFrm_carried (f : Frm → Frm) (s : State) : (s.onFrm f).carried = s.carried := rfl

/-! ### State.onTx -/

@[simp] theorem State.onTx_pending (f : Tx → Tx) (s : State) : (s.onTx f).pending = s.pending := rfl
@[simp] theorem State.onTx_evt (f : Tx → Tx) (s : State) : (s.onTx f).evt = s.evt := rfl
@[simp] theorem State.onTx_pwr (f : Tx → Tx) (s : State) : (s.onTx f).pwr = s.pwr := rfl
@[simp] theorem State.onTx_cmd (f : Tx → Tx) (s : State) : (s.onTx f).cmd = s.cmd := rfl
@[simp] theorem State.onTx_mem (f : Tx → Tx) (s : State) : (s.onTx f).mem = s.mem := rfl
@[simp] theorem State.onTx_pmu (f : Tx → Tx) (s : State) : (s.onTx f).pmu = s.pmu := rfl
@[simp] theorem State.onTx_bus (f : Tx → Tx) (s : State) : (s.onTx f).bus = s.bus := rfl
@[simp] theorem State.onTx_tim (f : Tx → Tx) (s : State) : (s.onTx f).tim = s.tim := rfl
@[simp] theorem State.onTx_dpll (f : Tx → Tx) (s : State) : (s.onTx f).dpll = s.dpll := rfl
@[simp] theorem State.onTx_prof (f : Tx → Tx) (s : State) : (s.onTx f).prof = s.prof := rfl
@[simp] theorem State.onTx_frm (f : Tx → Tx) (s : State) : (s.onTx f).frm = s.frm := rfl
@[simp] theorem State.onTx_circ (f : Tx → Tx) (s : State) : (s.onTx f).circ = s.circ := rfl
@[simp] theorem State.onTx_lane (f : Tx → Tx) (s : State) : (s.onTx f).lane = s.lane := rfl
@[simp] theorem State.onTx_tx (f : Tx → Tx) (s : State) : (s.onTx f).tx = f s.tx := rfl
@[simp] theorem State.onTx_rx (f : Tx → Tx) (s : State) : (s.onTx f).rx = s.rx := rfl
@[simp] theorem State.onTx_dec (f : Tx → Tx) (s : State) : (s.onTx f).dec = s.dec := rfl
@[simp] theorem State.onTx_mon (f : Tx → Tx) (s : State) : (s.onTx f).mon = s.mon := rfl
@[simp] theorem State.onTx_skim (f : Tx → Tx) (s : State) : (s.onTx f).skim = s.skim := rfl
@[simp] theorem State.onTx_cry (f : Tx → Tx) (s : State) : (s.onTx f).cry = s.cry := rfl
@[simp] theorem State.onTx_free (f : Tx → Tx) (s : State) : (s.onTx f).free = s.free := rfl
@[simp] theorem State.onTx_noted (f : Tx → Tx) (s : State) : (s.onTx f).noted = s.noted := rfl
@[simp] theorem State.onTx_carried (f : Tx → Tx) (s : State) : (s.onTx f).carried = s.carried := rfl

/-! ### State.onRx -/

@[simp] theorem State.onRx_pending (f : Rx → Rx) (s : State) : (s.onRx f).pending = s.pending := rfl
@[simp] theorem State.onRx_evt (f : Rx → Rx) (s : State) : (s.onRx f).evt = s.evt := rfl
@[simp] theorem State.onRx_pwr (f : Rx → Rx) (s : State) : (s.onRx f).pwr = s.pwr := rfl
@[simp] theorem State.onRx_cmd (f : Rx → Rx) (s : State) : (s.onRx f).cmd = s.cmd := rfl
@[simp] theorem State.onRx_mem (f : Rx → Rx) (s : State) : (s.onRx f).mem = s.mem := rfl
@[simp] theorem State.onRx_pmu (f : Rx → Rx) (s : State) : (s.onRx f).pmu = s.pmu := rfl
@[simp] theorem State.onRx_bus (f : Rx → Rx) (s : State) : (s.onRx f).bus = s.bus := rfl
@[simp] theorem State.onRx_tim (f : Rx → Rx) (s : State) : (s.onRx f).tim = s.tim := rfl
@[simp] theorem State.onRx_dpll (f : Rx → Rx) (s : State) : (s.onRx f).dpll = s.dpll := rfl
@[simp] theorem State.onRx_prof (f : Rx → Rx) (s : State) : (s.onRx f).prof = s.prof := rfl
@[simp] theorem State.onRx_frm (f : Rx → Rx) (s : State) : (s.onRx f).frm = s.frm := rfl
@[simp] theorem State.onRx_circ (f : Rx → Rx) (s : State) : (s.onRx f).circ = s.circ := rfl
@[simp] theorem State.onRx_lane (f : Rx → Rx) (s : State) : (s.onRx f).lane = s.lane := rfl
@[simp] theorem State.onRx_tx (f : Rx → Rx) (s : State) : (s.onRx f).tx = s.tx := rfl
@[simp] theorem State.onRx_rx (f : Rx → Rx) (s : State) : (s.onRx f).rx = f s.rx := rfl
@[simp] theorem State.onRx_dec (f : Rx → Rx) (s : State) : (s.onRx f).dec = s.dec := rfl
@[simp] theorem State.onRx_mon (f : Rx → Rx) (s : State) : (s.onRx f).mon = s.mon := rfl
@[simp] theorem State.onRx_skim (f : Rx → Rx) (s : State) : (s.onRx f).skim = s.skim := rfl
@[simp] theorem State.onRx_cry (f : Rx → Rx) (s : State) : (s.onRx f).cry = s.cry := rfl
@[simp] theorem State.onRx_free (f : Rx → Rx) (s : State) : (s.onRx f).free = s.free := rfl
@[simp] theorem State.onRx_noted (f : Rx → Rx) (s : State) : (s.onRx f).noted = s.noted := rfl
@[simp] theorem State.onRx_carried (f : Rx → Rx) (s : State) : (s.onRx f).carried = s.carried := rfl

/-! ### State.onDec -/

@[simp] theorem State.onDec_pending (f : Dec → Dec) (s : State) : (s.onDec f).pending = s.pending := rfl
@[simp] theorem State.onDec_evt (f : Dec → Dec) (s : State) : (s.onDec f).evt = s.evt := rfl
@[simp] theorem State.onDec_pwr (f : Dec → Dec) (s : State) : (s.onDec f).pwr = s.pwr := rfl
@[simp] theorem State.onDec_cmd (f : Dec → Dec) (s : State) : (s.onDec f).cmd = s.cmd := rfl
@[simp] theorem State.onDec_mem (f : Dec → Dec) (s : State) : (s.onDec f).mem = s.mem := rfl
@[simp] theorem State.onDec_pmu (f : Dec → Dec) (s : State) : (s.onDec f).pmu = s.pmu := rfl
@[simp] theorem State.onDec_bus (f : Dec → Dec) (s : State) : (s.onDec f).bus = s.bus := rfl
@[simp] theorem State.onDec_tim (f : Dec → Dec) (s : State) : (s.onDec f).tim = s.tim := rfl
@[simp] theorem State.onDec_dpll (f : Dec → Dec) (s : State) : (s.onDec f).dpll = s.dpll := rfl
@[simp] theorem State.onDec_prof (f : Dec → Dec) (s : State) : (s.onDec f).prof = s.prof := rfl
@[simp] theorem State.onDec_frm (f : Dec → Dec) (s : State) : (s.onDec f).frm = s.frm := rfl
@[simp] theorem State.onDec_circ (f : Dec → Dec) (s : State) : (s.onDec f).circ = s.circ := rfl
@[simp] theorem State.onDec_lane (f : Dec → Dec) (s : State) : (s.onDec f).lane = s.lane := rfl
@[simp] theorem State.onDec_tx (f : Dec → Dec) (s : State) : (s.onDec f).tx = s.tx := rfl
@[simp] theorem State.onDec_rx (f : Dec → Dec) (s : State) : (s.onDec f).rx = s.rx := rfl
@[simp] theorem State.onDec_dec (f : Dec → Dec) (s : State) : (s.onDec f).dec = f s.dec := rfl
@[simp] theorem State.onDec_mon (f : Dec → Dec) (s : State) : (s.onDec f).mon = s.mon := rfl
@[simp] theorem State.onDec_skim (f : Dec → Dec) (s : State) : (s.onDec f).skim = s.skim := rfl
@[simp] theorem State.onDec_cry (f : Dec → Dec) (s : State) : (s.onDec f).cry = s.cry := rfl
@[simp] theorem State.onDec_free (f : Dec → Dec) (s : State) : (s.onDec f).free = s.free := rfl
@[simp] theorem State.onDec_noted (f : Dec → Dec) (s : State) : (s.onDec f).noted = s.noted := rfl
@[simp] theorem State.onDec_carried (f : Dec → Dec) (s : State) : (s.onDec f).carried = s.carried := rfl

/-! ### State.onMon -/

@[simp] theorem State.onMon_pending (f : Mon → Mon) (s : State) : (s.onMon f).pending = s.pending := rfl
@[simp] theorem State.onMon_evt (f : Mon → Mon) (s : State) : (s.onMon f).evt = s.evt := rfl
@[simp] theorem State.onMon_pwr (f : Mon → Mon) (s : State) : (s.onMon f).pwr = s.pwr := rfl
@[simp] theorem State.onMon_cmd (f : Mon → Mon) (s : State) : (s.onMon f).cmd = s.cmd := rfl
@[simp] theorem State.onMon_mem (f : Mon → Mon) (s : State) : (s.onMon f).mem = s.mem := rfl
@[simp] theorem State.onMon_pmu (f : Mon → Mon) (s : State) : (s.onMon f).pmu = s.pmu := rfl
@[simp] theorem State.onMon_bus (f : Mon → Mon) (s : State) : (s.onMon f).bus = s.bus := rfl
@[simp] theorem State.onMon_tim (f : Mon → Mon) (s : State) : (s.onMon f).tim = s.tim := rfl
@[simp] theorem State.onMon_dpll (f : Mon → Mon) (s : State) : (s.onMon f).dpll = s.dpll := rfl
@[simp] theorem State.onMon_prof (f : Mon → Mon) (s : State) : (s.onMon f).prof = s.prof := rfl
@[simp] theorem State.onMon_frm (f : Mon → Mon) (s : State) : (s.onMon f).frm = s.frm := rfl
@[simp] theorem State.onMon_circ (f : Mon → Mon) (s : State) : (s.onMon f).circ = s.circ := rfl
@[simp] theorem State.onMon_lane (f : Mon → Mon) (s : State) : (s.onMon f).lane = s.lane := rfl
@[simp] theorem State.onMon_tx (f : Mon → Mon) (s : State) : (s.onMon f).tx = s.tx := rfl
@[simp] theorem State.onMon_rx (f : Mon → Mon) (s : State) : (s.onMon f).rx = s.rx := rfl
@[simp] theorem State.onMon_dec (f : Mon → Mon) (s : State) : (s.onMon f).dec = s.dec := rfl
@[simp] theorem State.onMon_mon (f : Mon → Mon) (s : State) : (s.onMon f).mon = f s.mon := rfl
@[simp] theorem State.onMon_skim (f : Mon → Mon) (s : State) : (s.onMon f).skim = s.skim := rfl
@[simp] theorem State.onMon_cry (f : Mon → Mon) (s : State) : (s.onMon f).cry = s.cry := rfl
@[simp] theorem State.onMon_free (f : Mon → Mon) (s : State) : (s.onMon f).free = s.free := rfl
@[simp] theorem State.onMon_noted (f : Mon → Mon) (s : State) : (s.onMon f).noted = s.noted := rfl
@[simp] theorem State.onMon_carried (f : Mon → Mon) (s : State) : (s.onMon f).carried = s.carried := rfl

/-! ### State.onSkim -/

@[simp] theorem State.onSkim_pending (f : Skim → Skim) (s : State) : (s.onSkim f).pending = s.pending := rfl
@[simp] theorem State.onSkim_evt (f : Skim → Skim) (s : State) : (s.onSkim f).evt = s.evt := rfl
@[simp] theorem State.onSkim_pwr (f : Skim → Skim) (s : State) : (s.onSkim f).pwr = s.pwr := rfl
@[simp] theorem State.onSkim_cmd (f : Skim → Skim) (s : State) : (s.onSkim f).cmd = s.cmd := rfl
@[simp] theorem State.onSkim_mem (f : Skim → Skim) (s : State) : (s.onSkim f).mem = s.mem := rfl
@[simp] theorem State.onSkim_pmu (f : Skim → Skim) (s : State) : (s.onSkim f).pmu = s.pmu := rfl
@[simp] theorem State.onSkim_bus (f : Skim → Skim) (s : State) : (s.onSkim f).bus = s.bus := rfl
@[simp] theorem State.onSkim_tim (f : Skim → Skim) (s : State) : (s.onSkim f).tim = s.tim := rfl
@[simp] theorem State.onSkim_dpll (f : Skim → Skim) (s : State) : (s.onSkim f).dpll = s.dpll := rfl
@[simp] theorem State.onSkim_prof (f : Skim → Skim) (s : State) : (s.onSkim f).prof = s.prof := rfl
@[simp] theorem State.onSkim_frm (f : Skim → Skim) (s : State) : (s.onSkim f).frm = s.frm := rfl
@[simp] theorem State.onSkim_circ (f : Skim → Skim) (s : State) : (s.onSkim f).circ = s.circ := rfl
@[simp] theorem State.onSkim_lane (f : Skim → Skim) (s : State) : (s.onSkim f).lane = s.lane := rfl
@[simp] theorem State.onSkim_tx (f : Skim → Skim) (s : State) : (s.onSkim f).tx = s.tx := rfl
@[simp] theorem State.onSkim_rx (f : Skim → Skim) (s : State) : (s.onSkim f).rx = s.rx := rfl
@[simp] theorem State.onSkim_dec (f : Skim → Skim) (s : State) : (s.onSkim f).dec = s.dec := rfl
@[simp] theorem State.onSkim_mon (f : Skim → Skim) (s : State) : (s.onSkim f).mon = s.mon := rfl
@[simp] theorem State.onSkim_skim (f : Skim → Skim) (s : State) : (s.onSkim f).skim = f s.skim := rfl
@[simp] theorem State.onSkim_cry (f : Skim → Skim) (s : State) : (s.onSkim f).cry = s.cry := rfl
@[simp] theorem State.onSkim_free (f : Skim → Skim) (s : State) : (s.onSkim f).free = s.free := rfl
@[simp] theorem State.onSkim_noted (f : Skim → Skim) (s : State) : (s.onSkim f).noted = s.noted := rfl
@[simp] theorem State.onSkim_carried (f : Skim → Skim) (s : State) : (s.onSkim f).carried = s.carried := rfl

/-! ### onCirc -/

@[simp] theorem onCirc_pending (i : Nat) (f : Circ → Circ) (s : State) : (onCirc i f s).pending = s.pending := rfl
@[simp] theorem onCirc_evt (i : Nat) (f : Circ → Circ) (s : State) : (onCirc i f s).evt = s.evt := rfl
@[simp] theorem onCirc_pwr (i : Nat) (f : Circ → Circ) (s : State) : (onCirc i f s).pwr = s.pwr := rfl
@[simp] theorem onCirc_cmd (i : Nat) (f : Circ → Circ) (s : State) : (onCirc i f s).cmd = s.cmd := rfl
@[simp] theorem onCirc_mem (i : Nat) (f : Circ → Circ) (s : State) : (onCirc i f s).mem = s.mem := rfl
@[simp] theorem onCirc_pmu (i : Nat) (f : Circ → Circ) (s : State) : (onCirc i f s).pmu = s.pmu := rfl
@[simp] theorem onCirc_bus (i : Nat) (f : Circ → Circ) (s : State) : (onCirc i f s).bus = s.bus := rfl
@[simp] theorem onCirc_tim (i : Nat) (f : Circ → Circ) (s : State) : (onCirc i f s).tim = s.tim := rfl
@[simp] theorem onCirc_dpll (i : Nat) (f : Circ → Circ) (s : State) : (onCirc i f s).dpll = s.dpll := rfl
@[simp] theorem onCirc_prof (i : Nat) (f : Circ → Circ) (s : State) : (onCirc i f s).prof = s.prof := rfl
@[simp] theorem onCirc_frm (i : Nat) (f : Circ → Circ) (s : State) : (onCirc i f s).frm = s.frm := rfl
@[simp] theorem onCirc_lane (i : Nat) (f : Circ → Circ) (s : State) : (onCirc i f s).lane = s.lane := rfl
@[simp] theorem onCirc_tx (i : Nat) (f : Circ → Circ) (s : State) : (onCirc i f s).tx = s.tx := rfl
@[simp] theorem onCirc_rx (i : Nat) (f : Circ → Circ) (s : State) : (onCirc i f s).rx = s.rx := rfl
@[simp] theorem onCirc_dec (i : Nat) (f : Circ → Circ) (s : State) : (onCirc i f s).dec = s.dec := rfl
@[simp] theorem onCirc_mon (i : Nat) (f : Circ → Circ) (s : State) : (onCirc i f s).mon = s.mon := rfl
@[simp] theorem onCirc_skim (i : Nat) (f : Circ → Circ) (s : State) : (onCirc i f s).skim = s.skim := rfl
@[simp] theorem onCirc_cry (i : Nat) (f : Circ → Circ) (s : State) : (onCirc i f s).cry = s.cry := rfl
@[simp] theorem onCirc_free (i : Nat) (f : Circ → Circ) (s : State) : (onCirc i f s).free = s.free := rfl
@[simp] theorem onCirc_noted (i : Nat) (f : Circ → Circ) (s : State) : (onCirc i f s).noted = s.noted := rfl
@[simp] theorem onCirc_carried (i : Nat) (f : Circ → Circ) (s : State) : (onCirc i f s).carried = s.carried := rfl

/-! ### onLane -/

@[simp] theorem onLane_pending (i : Nat) (f : Lane → Lane) (s : State) : (onLane i f s).pending = s.pending := rfl
@[simp] theorem onLane_evt (i : Nat) (f : Lane → Lane) (s : State) : (onLane i f s).evt = s.evt := rfl
@[simp] theorem onLane_pwr (i : Nat) (f : Lane → Lane) (s : State) : (onLane i f s).pwr = s.pwr := rfl
@[simp] theorem onLane_cmd (i : Nat) (f : Lane → Lane) (s : State) : (onLane i f s).cmd = s.cmd := rfl
@[simp] theorem onLane_mem (i : Nat) (f : Lane → Lane) (s : State) : (onLane i f s).mem = s.mem := rfl
@[simp] theorem onLane_pmu (i : Nat) (f : Lane → Lane) (s : State) : (onLane i f s).pmu = s.pmu := rfl
@[simp] theorem onLane_bus (i : Nat) (f : Lane → Lane) (s : State) : (onLane i f s).bus = s.bus := rfl
@[simp] theorem onLane_tim (i : Nat) (f : Lane → Lane) (s : State) : (onLane i f s).tim = s.tim := rfl
@[simp] theorem onLane_dpll (i : Nat) (f : Lane → Lane) (s : State) : (onLane i f s).dpll = s.dpll := rfl
@[simp] theorem onLane_prof (i : Nat) (f : Lane → Lane) (s : State) : (onLane i f s).prof = s.prof := rfl
@[simp] theorem onLane_frm (i : Nat) (f : Lane → Lane) (s : State) : (onLane i f s).frm = s.frm := rfl
@[simp] theorem onLane_circ (i : Nat) (f : Lane → Lane) (s : State) : (onLane i f s).circ = s.circ := rfl
@[simp] theorem onLane_tx (i : Nat) (f : Lane → Lane) (s : State) : (onLane i f s).tx = s.tx := rfl
@[simp] theorem onLane_rx (i : Nat) (f : Lane → Lane) (s : State) : (onLane i f s).rx = s.rx := rfl
@[simp] theorem onLane_dec (i : Nat) (f : Lane → Lane) (s : State) : (onLane i f s).dec = s.dec := rfl
@[simp] theorem onLane_mon (i : Nat) (f : Lane → Lane) (s : State) : (onLane i f s).mon = s.mon := rfl
@[simp] theorem onLane_skim (i : Nat) (f : Lane → Lane) (s : State) : (onLane i f s).skim = s.skim := rfl
@[simp] theorem onLane_cry (i : Nat) (f : Lane → Lane) (s : State) : (onLane i f s).cry = s.cry := rfl
@[simp] theorem onLane_free (i : Nat) (f : Lane → Lane) (s : State) : (onLane i f s).free = s.free := rfl
@[simp] theorem onLane_noted (i : Nat) (f : Lane → Lane) (s : State) : (onLane i f s).noted = s.noted := rfl
@[simp] theorem onLane_carried (i : Nat) (f : Lane → Lane) (s : State) : (onLane i f s).carried = s.carried := rfl


/-! ### noteEvents -/

theorem noteEvents_noted (l : List PmcEvent) (s : State) :
    (noteEvents l s).noted = if s.codeS then s.noted ++ l else s.noted := rfl
@[simp] theorem noteEvents_pending (l : List PmcEvent) (s : State) : (noteEvents l s).pending = s.pending := rfl
@[simp] theorem noteEvents_evt (l : List PmcEvent) (s : State) : (noteEvents l s).evt = s.evt := rfl
@[simp] theorem noteEvents_pwr (l : List PmcEvent) (s : State) : (noteEvents l s).pwr = s.pwr := rfl
@[simp] theorem noteEvents_cmd (l : List PmcEvent) (s : State) : (noteEvents l s).cmd = s.cmd := rfl
@[simp] theorem noteEvents_mem (l : List PmcEvent) (s : State) : (noteEvents l s).mem = s.mem := rfl
@[simp] theorem noteEvents_pmu (l : List PmcEvent) (s : State) : (noteEvents l s).pmu = s.pmu := rfl
@[simp] theorem noteEvents_bus (l : List PmcEvent) (s : State) : (noteEvents l s).bus = s.bus := rfl
@[simp] theorem noteEvents_tim (l : List PmcEvent) (s : State) : (noteEvents l s).tim = s.tim := rfl
@[simp] theorem noteEvents_dpll (l : List PmcEvent) (s : State) : (noteEvents l s).dpll = s.dpll := rfl
@[simp] theorem noteEvents_prof (l : List PmcEvent) (s : State) : (noteEvents l s).prof = s.prof := rfl
@[simp] theorem noteEvents_frm (l : List PmcEvent) (s : State) : (noteEvents l s).frm = s.frm := rfl
@[simp] theorem noteEvents_circ (l : List PmcEvent) (s : State) : (noteEvents l s).circ = s.circ := rfl
@[simp] theorem noteEvents_lane (l : List PmcEvent) (s : State) : (noteEvents l s).lane = s.lane := rfl
@[simp] theorem noteEvents_tx (l : List PmcEvent) (s : State) : (noteEvents l s).tx = s.tx := rfl
@[simp] theorem noteEvents_rx (l : List PmcEvent) (s : State) : (noteEvents l s).rx = s.rx := rfl
@[simp] theorem noteEvents_dec (l : List PmcEvent) (s : State) : (noteEvents l s).dec = s.dec := rfl
@[simp] theorem noteEvents_mon (l : List PmcEvent) (s : State) : (noteEvents l s).mon = s.mon := rfl
@[simp] theorem noteEvents_skim (l : List PmcEvent) (s : State) : (noteEvents l s).skim = s.skim := rfl
@[simp] theorem noteEvents_cry (l : List PmcEvent) (s : State) : (noteEvents l s).cry = s.cry := rfl
@[simp] theorem noteEvents_free (l : List PmcEvent) (s : State) : (noteEvents l s).free = s.free := rfl
@[simp] theorem noteEvents_carried (l : List PmcEvent) (s : State) : (noteEvents l s).carried = s.carried := rfl

/-! ### carry -/

@[simp] theorem carry_pending (p n : Nat) (s : State) : (carry p n s).pending = s.pending := rfl
@[simp] theorem carry_evt (p n : Nat) (s : State) : (carry p n s).evt = s.evt := rfl
@[simp] theorem carry_pwr (p n : Nat) (s : State) : (carry p n s).pwr = s.pwr := rfl
@[simp] theorem carry_cmd (p n : Nat) (s : State) : (carry p n s).cmd = s.cmd := rfl
@[simp] theorem carry_mem (p n : Nat) (s : State) : (carry p n s).mem = s.mem := rfl
@[simp] theorem carry_pmu (p n : Nat) (s : State) : (carry p n s).pmu = s.pmu := rfl
@[simp] theorem carry_bus (p n : Nat) (s : State) : (carry p n s).bus = s.bus := rfl
@[simp] theorem carry_tim (p n : Nat) (s : State) : (carry p n s).tim = s.tim := rfl
@[simp] theorem carry_dpll (p n : Nat) (s : State) : (carry p n s).dpll = s.dpll := rfl
@[simp] theorem carry_prof (p n : Nat) (s : State) : (carry p n s).prof = s.prof := rfl
@[simp] theorem carry_frm (p n : Nat) (s : State) : (carry p n s).frm = s.frm := rfl
@[simp] theorem carry_circ (p n : Nat) (s : State) : (carry p n s).circ = s.circ := rfl
@[simp] theorem carry_lane (p n : Nat) (s : State) : (carry p n s).lane = s.lane := rfl
@[simp] theorem carry_tx (p n : Nat) (s : State) : (carry p n s).tx = s.tx := rfl
@[simp] theorem carry_rx (p n : Nat) (s : State) : (carry p n s).rx = s.rx := rfl
@[simp] theorem carry_dec (p n : Nat) (s : State) : (carry p n s).dec = s.dec := rfl
@[simp] theorem carry_mon (p n : Nat) (s : State) : (carry p n s).mon = s.mon := rfl
@[simp] theorem carry_skim (p n : Nat) (s : State) : (carry p n s).skim = s.skim := rfl
@[simp] theorem carry_cry (p n : Nat) (s : State) : (carry p n s).cry = s.cry := rfl
@[simp] theorem carry_free (p n : Nat) (s : State) : (carry p n s).free = s.free := rfl
@[simp] theorem carry_noted (p n : Nat) (s : State) : (carry p n s).noted = s.noted := rfl

/-! ### setJobs -/

@[simp] theorem setJobs_cmd (l : List Job) (s : State) :
    (setJobs l s).cmd = { s.cmd with jobs := l, takes := noteTakes l s.cmd.takes } := rfl
@[simp] theorem setJobs_pending (l : List Job) (s : State) : (setJobs l s).pending = s.pending := rfl
@[simp] theorem setJobs_evt (l : List Job) (s : State) : (setJobs l s).evt = s.evt := rfl
@[simp] theorem setJobs_pwr (l : List Job) (s : State) : (setJobs l s).pwr = s.pwr := rfl
@[simp] theorem setJobs_mem (l : List Job) (s : State) : (setJobs l s).mem = s.mem := rfl
@[simp] theorem setJobs_pmu (l : List Job) (s : State) : (setJobs l s).pmu = s.pmu := rfl
@[simp] theorem setJobs_bus (l : List Job) (s : State) : (setJobs l s).bus = s.bus := rfl
@[simp] theorem setJobs_tim (l : List Job) (s : State) : (setJobs l s).tim = s.tim := rfl
@[simp] theorem setJobs_dpll (l : List Job) (s : State) : (setJobs l s).dpll = s.dpll := rfl
@[simp] theorem setJobs_prof (l : List Job) (s : State) : (setJobs l s).prof = s.prof := rfl
@[simp] theorem setJobs_frm (l : List Job) (s : State) : (setJobs l s).frm = s.frm := rfl
@[simp] theorem setJobs_circ (l : List Job) (s : State) : (setJobs l s).circ = s.circ := rfl
@[simp] theorem setJobs_lane (l : List Job) (s : State) : (setJobs l s).lane = s.lane := rfl
@[simp] theorem setJobs_tx (l : List Job) (s : State) : (setJobs l s).tx = s.tx := rfl
@[simp] theorem setJobs_rx (l : List Job) (s : State) : (setJobs l s).rx = s.rx := rfl
@[simp] theorem setJobs_dec (l : List Job) (s : State) : (setJobs l s).dec = s.dec := rfl
@[simp] theorem setJobs_mon (l : List Job) (s : State) : (setJobs l s).mon = s.mon := rfl
@[simp] theorem setJobs_skim (l : List Job) (s : State) : (setJobs l s).skim = s.skim := rfl
@[simp] theorem setJobs_cry (l : List Job) (s : State) : (setJobs l s).cry = s.cry := rfl
@[simp] theorem setJobs_free (l : List Job) (s : State) : (setJobs l s).free = s.free := rfl
@[simp] theorem setJobs_carried (l : List Job) (s : State) : (setJobs l s).carried = s.carried := rfl

end Sys2Proof.Machine
end

