-- ==== Sys2Proof/Laws/Jobs.lean ====
section
/-!
SUPPORT. Outstanding commands: what an opcode does once its common checks pass, and what deciding
or committing a command leaves.
-/

namespace Sys2Proof.Machine

/-- A change of the job list, by identifier. -/
theorem findJob_modJob_self {j : Nat} {f : Job → Job} {s : State} {x : Job}
    (hid : ∀ y, (f y).id = y.id) (h : findJob j s = some x) : findJob j (modJob j f s) = some (f x) := by
  unfold findJob at h
  unfold findJob modJob
  simp only [setJobs_cmd]
  generalize s.cmd.jobs = l at h
  induction l with
  | nil => simp at h
  | cons a l ih =>
    by_cases ha : a.id = j
    · simp [List.find?, ha] at h
      subst h
      simp [ha, hid]
    · simp [List.find?, ha] at h
      simp [ha]
      simpa using ih (by simpa using h)

theorem findJob_modJob_other {j k : Nat} {f : Job → Job} {s : State}
    (hid : ∀ y, (f y).id = y.id) (hk : k ≠ j) : findJob k (modJob j f s) = findJob k s := by
  unfold findJob modJob
  simp only [setJobs_cmd]
  generalize s.cmd.jobs = l
  induction l with
  | nil => rfl
  | cons a l ih =>
    by_cases ha : a.id = j
    · have : a.id ≠ k := fun h => hk (h.symm.trans ha)
      simp [List.find?, ha, hid, ha ▸ this]
      simpa [ha] using ih
    · by_cases hak : a.id = k
      · simp [List.find?, hak, hk]
      · simp [List.find?, ha, hak]
        simpa using ih

theorem findJob_id {j : Nat} {s : State} {x : Job} (h : findJob j s = some x) : x.id = j := by
  unfold findJob at h
  simpa using List.find?_some h

/-- A ready command's stage. -/
theorem ready_stage {op : Nat} {j : Job} {s : State} (h : ready op j s = true) : j.stage = .fetched := by
  simp only [ready, Bool.and_eq_true, decide_eq_true_eq] at h
  exact h.1.1.1.1.1

theorem ready_opcode {op : Nat} {j : Job} {s : State} (h : ready op j s = true) : j.opcode = opOf op := by
  simp only [ready, Bool.and_eq_true, beq_iff_eq] at h
  exact h.1.1.1.1.2

theorem Taken.step5_eq {op need j : Nat} {job : Job} {s : State} (h : Taken op need j job s) :
    step5 job s = some s := by
  simp [step5, h.unsigned, h.untrailed]

theorem Taken.body_eq {op need j : Nat} {job : Job} {s : State} (h : Taken op need j job s) :
    job.body = job.params := by
  simp [Job.body, h.unsigned]

/-- An opcode whose common checks pass answers what its own body decides. -/
theorem runOp_taken {op need j : Nat} {job : Job} {s : State} (body : Job → State → Verdict)
    (h : Taken op need j job s) : runOp op need body j s = conclude job (body job s) s := by
  have hw : ¬ job.body.length < need := by
    rw [h.body_eq]
    exact Nat.not_lt.2 h.words
  simp [runOp, h.found, h.free, h.step5_eq, h.mode, hw]

theorem TakenSigned.step5_eq {op need j : Nat} {job : Job} {s : State}
    (h : TakenSigned op need j job s) : step5 job s = some (consumed job s) := by
  obtain ⟨o, ho, hm⟩ := h.keys
  simp [step5, h.signed, checkAuth, ho, hm, h.fresh, consumed]

theorem TakenSigned.body_eq {op need j : Nat} {job : Job} {s : State}
    (h : TakenSigned op need j job s) : job.body = job.params.take (job.params.length - 10) := by
  simp [Job.body, h.signed]

/-- The same for an officer's command. -/
theorem runOp_signed {op need j : Nat} {job : Job} {s : State} (body : Job → State → Verdict)
    (h : TakenSigned op need j job s) :
    runOp op need body j s = conclude job (body job (consumed job s)) (consumed job s) := by
  have hw : ¬ job.body.length < need := by
    have := h.words
    rw [h.body_eq, List.length_take]
    omega
  have hm : opModes job.opcode (consumed job s).pwr.mode (consumed job s).pwr.pRunning = true := h.mode
  simp only [runOp, h.found, h.free, h.step5_eq, if_true, hm, Bool.not_true, Bool.false_eq_true,
    if_false, hw]

/-- A command that is outstanding nowhere, or may not be taken yet, changes nothing. -/
theorem runOp_idle {op need j : Nat} (body : Job → State → Verdict) {s : State}
    (h : ∀ job, findJob j s = some job → ready op job s = false) : runOp op need body j s = s := by
  unfold runOp
  cases hf : findJob j s with
  | none => rfl
  | some job => simp [h job hf]

/-- Deciding a command touches the command list and the noted events alone. -/
theorem finish_only (j : Nat) (st : BitVec 8) (d : Word) (r : List Word) (s : State) :
    finish j st d r s = { s with
      cmd := (finish j st d r s).cmd, noted := (finish j st d r s).noted } := rfl

theorem commitDone_only (j : Nat) (r : List Word) (s : State) :
    commitDone j r s = { s with
      cmd := (commitDone j r s).cmd, noted := (commitDone j r s).noted } := rfl

theorem finish_other {j k : Nat} {st : BitVec 8} {d : Word} {r : List Word} {s : State} (hk : k ≠ j) :
    findJob k (finish j st d r s) = findJob k s :=
  findJob_modJob_other (fun y => by split <;> rfl) hk

theorem finish_self {j : Nat} {st : BitVec 8} {d : Word} {r : List Word} {s : State} {x : Job}
    (h : findJob j s = some x) (hs : x.stage ≠ .decided) :
    findJob j (finish j st d r s) = some { x with
      stage := .decided, status := st, detail := d, result := r
      stamp := if x.committed then x.stamp else s.tim.counter
      decidedAt := s.evt.period, decidedTime := s.tim.counter, decidedInvalid := !s.tim.valid } := by
  unfold finish
  rw [findJob_modJob_self (fun y => by split <;> rfl) h]
  simp [hs]

theorem commit_self {j : Nat} {s : State} {x : Job} (h : findJob j s = some x) :
    findJob j (commit j s) = some { x with committed := true, stamp := s.tim.counter, stage := .working } :=
  findJob_modJob_self (fun _ => rfl) h

theorem commit_other {j k : Nat} {s : State} (hk : k ≠ j) : findJob k (commit j s) = findJob k s :=
  findJob_modJob_other (fun _ => rfl) hk

theorem commitDone_self {j : Nat} {r : List Word} {s : State} {x : Job} (h : findJob j s = some x) :
    findJob j (commitDone j r s) = some { x with
      committed := true, stamp := s.tim.counter, stage := .decided, status := stOk, detail := 0
      result := r, decidedAt := s.evt.period, decidedTime := s.tim.counter
      decidedInvalid := !s.tim.valid } := by
  unfold commitDone finishOk
  rw [finish_self (commit_self h) (by simp)]
  rfl

theorem commitDone_other {j k : Nat} {r : List Word} {s : State} (hk : k ≠ j) :
    findJob k (commitDone j r s) = findJob k s :=
  (finish_other hk).trans (commit_other hk)

/-- A command committed and complete at once has ended ST_OK. -/
theorem commitDone_ended {j : Nat} {r : List Word} {s : State} {x : Job} (h : findJob j s = some x) :
    Ended j stOk true r (commitDone j r s) := ⟨_, commitDone_self h, rfl, rfl, rfl, rfl⟩

/-- Withdrawing a command's work leaves the list of outstanding commands. -/
theorem withdraw_jobs (j : Nat) (s : State) : (withdraw j s).cmd.jobs = s.cmd.jobs := by
  simp [withdraw]

theorem findJob_withdraw (j k : Nat) (s : State) : findJob k (withdraw j s) = findJob k s := by
  unfold findJob; rw [withdraw_jobs]

theorem withdraw_tim (j : Nat) (s : State) : (withdraw j s).tim =
    { s.tim with pendingSets := s.tim.pendingSets.filter fun p => p.job ≠ j } := by
  simp [withdraw]

theorem withdraw_cry (j : Nat) (s : State) : (withdraw j s).cry =
    { s.cry with switches := s.cry.switches.filter fun w => w.job ≠ j } := by
  simp [withdraw]

theorem withdraw_rx (j : Nat) (s : State) : (withdraw j s).rx =
    { s.rx with pend := s.rx.pend.filter fun q => q.1 ≠ j } := by
  simp [withdraw]

/-- The parts of the state that a withdrawal can touch. -/
theorem withdraw_only (j : Nat) (s : State) : withdraw j s = { s with
    cmd := (withdraw j s).cmd, tim := (withdraw j s).tim, dpll := (withdraw j s).dpll
    pmu := (withdraw j s).pmu, frm := (withdraw j s).frm, tx := (withdraw j s).tx
    cry := (withdraw j s).cry, rx := (withdraw j s).rx, dec := (withdraw j s).dec
    mon := (withdraw j s).mon, skim := (withdraw j s).skim, lane := (withdraw j s).lane } := by
  apply State.ext_parts <;> first | with_reducible rfl | simp [withdraw]

end Sys2Proof.Machine
end

