-- ==== Sys2Proof/Laws/Tables.lean ====
section
/-!
SUPPORT. The sparse tables: a read after a write, and the canonical form that every operation
keeps.
-/

namespace Sys2Proof.Machine

variable {α : Type}

/-- A canonical table has no key at or below a bound that all its keys exceed. -/
theorem tabGet_of_all_lt (d : α) (l : Tab α) (k : Nat) (h : l.all fun e => decide (k < e.1)) :
    tabGet d l k = d := by
  cases l with
  | nil => rfl
  | cons e l =>
    obtain ⟨k', v⟩ := e
    simp only [List.all_cons, Bool.and_eq_true, decide_eq_true_eq] at h
    simp [tabGet, Nat.ne_of_gt h.1, h.1]

variable [DecidableEq α]

theorem tabWf_cons (d : α) (k : Nat) (v : α) (l : Tab α) :
    tabWf d ((k, v) :: l) = true ↔
      v ≠ d ∧ (∀ e ∈ l, k < e.1) ∧ tabWf d l = true := by
  simp [tabWf, and_assoc]

/-- A canonical table reads what was written. -/
theorem tabGet_tabSet_same (d : α) (l : Tab α) (k : Nat) (v : α) (h : tabWf d l = true) :
    tabGet d (tabSet d l k v) k = v := by
  induction l with
  | nil => by_cases hv : v = d <;> simp [tabSet, tabGet, hv]
  | cons e l ih =>
    obtain ⟨k', v'⟩ := e
    obtain ⟨_, hk, hw⟩ := (tabWf_cons d k' v' l).1 h
    unfold tabSet
    split
    · subst_vars
      split
      · subst_vars
        exact tabGet_of_all_lt _ _ _ (by simpa using hk)
      · simp [tabGet]
    · split
      · split
        · subst_vars; simp [tabGet, *]
        · simp [tabGet]
      · simp [tabGet, *]

/-- A write leaves every other key alone. -/
theorem tabGet_tabSet_other (d : α) (l : Tab α) (k j : Nat) (v : α) (hj : j ≠ k)
    (h : tabWf d l = true) : tabGet d (tabSet d l k v) j = tabGet d l j := by
  induction l with
  | nil => by_cases hv : v = d <;> simp [tabSet, tabGet, hv, Ne.symm hj]
  | cons e l ih =>
    obtain ⟨k', v'⟩ := e
    obtain ⟨_, hk, hw⟩ := (tabWf_cons d k' v' l).1 h
    unfold tabSet
    split
    · rename_i hkk
      subst hkk
      split
      · by_cases hlt : j < k'
        · rw [tabGet_of_all_lt]
          · simp [tabGet, Ne.symm hj, hlt]
          · simp only [List.all_eq_true, decide_eq_true_eq]
            exact fun e he => Nat.lt_trans hlt (hk e he)
        · simp [tabGet, Ne.symm hj, hlt]
      · simp [tabGet, Ne.symm hj]
    · split
      · rename_i hlt
        split
        · rfl
        · by_cases hjk : j < k
          · simp [tabGet, Ne.symm hj, hjk, Nat.lt_trans hjk hlt, Nat.ne_of_gt (Nat.lt_trans hjk hlt)]
          · simp [tabGet, Ne.symm hj, hjk]
      · simp [tabGet, ih hw]
/-- Setting a key to a value other than the default needs no canonical form. -/
theorem tabGet_tabSet_same_of_ne (d : α) (l : Tab α) (k : Nat) (v : α) (hv : v ≠ d) :
    tabGet d (tabSet d l k v) k = v := by
  induction l with
  | nil => simp [tabSet, hv, tabGet]
  | cons a l ih =>
    obtain ⟨k', v'⟩ := a
    simp only [tabSet, hv, if_false]
    split
    · simp [tabGet]
    · split
      · simp [tabGet]
      · rename_i h1 h2
        simp [tabGet, h1, h2, ih]

theorem tabGet_tabSet_other_of_ne (d : α) (l : Tab α) (k j : Nat) (v : α) (hj : j ≠ k) (hv : v ≠ d) :
    tabGet d (tabSet d l k v) j = tabGet d l j := by
  induction l with
  | nil =>
    simp only [tabSet, hv, if_false, tabGet]
    rw [if_neg (Ne.symm hj)]
    split <;> rfl
  | cons a l ih =>
    obtain ⟨k', v'⟩ := a
    simp only [tabSet, hv, if_false]
    split
    · rename_i h; subst h; simp [tabGet, Ne.symm hj]
    · rename_i h1
      split
      · rename_i h2
        simp only [tabGet]
        rw [if_neg (Ne.symm hj)]
        by_cases h3 : j < k
        · rw [if_pos h3, if_neg (by omega), if_pos (by omega)]
        · rw [if_neg h3]
      · simp only [tabGet, ih]

theorem tabSet_keys (d : α) (l : Tab α) (k : Nat) (v : α) (b : Nat) (hb : b < k)
    (h : ∀ e ∈ l, b < e.1) : ∀ e ∈ tabSet d l k v, b < e.1 := by
  induction l with
  | nil => by_cases hv : v = d <;> simp [tabSet, hv, hb]
  | cons x l ih =>
    obtain ⟨k', v'⟩ := x
    have hl : ∀ e ∈ l, b < e.1 := fun e he => h e (List.mem_cons_of_mem _ he)
    have hk : b < k' := h (k', v') List.mem_cons_self
    unfold tabSet
    split
    · split
      · exact hl
      · simpa [hb] using hl
    · split
      · split
        · exact h
        · simpa [hb, hk] using hl
      · simpa [hk] using ih hl

/-- A write keeps the canonical form. -/
theorem tabWf_tabSet (d : α) (l : Tab α) (k : Nat) (v : α) (h : tabWf d l = true) :
    tabWf d (tabSet d l k v) = true := by
  induction l with
  | nil => by_cases hv : v = d <;> simp [tabSet, tabWf, hv]
  | cons e l ih =>
    obtain ⟨k', v'⟩ := e
    obtain ⟨hv', hk, hw⟩ := (tabWf_cons d k' v' l).1 h
    unfold tabSet
    split
    · subst_vars
      split
      · exact hw
      · exact (tabWf_cons ..).2 ⟨by assumption, hk, hw⟩
    · split
      · rename_i hlt
        split
        · exact h
        · refine (tabWf_cons ..).2 ⟨by assumption, ?_, h⟩
          simp only [List.mem_cons, forall_eq_or_imp]
          exact ⟨hlt, fun e he => Nat.lt_trans hlt (hk e he)⟩
      · refine (tabWf_cons ..).2 ⟨hv', ?_, ih hw⟩
        exact tabSet_keys d l k v k' (by omega) hk

theorem tabWf_tabMod (d : α) (l : Tab α) (k : Nat) (f : α → α) (h : tabWf d l = true) :
    tabWf d (tabMod d l k f) = true := tabWf_tabSet d l k _ h

theorem tabWf_filter (d : α) (l : Tab α) (p : Nat × α → Bool) (h : tabWf d l = true) :
    tabWf d (l.filter p) = true := by
  induction l with
  | nil => rfl
  | cons e l ih =>
    obtain ⟨k', v'⟩ := e
    obtain ⟨hv', hk, hw⟩ := (tabWf_cons d k' v' l).1 h
    rw [List.filter_cons]
    split
    · exact (tabWf_cons ..).2 ⟨hv', fun e he => hk e ((List.mem_filter.1 he).1), ih hw⟩
    · exact ih hw

/-- Dropping a range keeps the canonical form. -/
theorem tabWf_tabClear (d : α) (l : Tab α) (lo hi : Nat) (h : tabWf d l = true) :
    tabWf d (tabClear l lo hi) = true := tabWf_filter d l _ h

theorem tabWf_tabMap (d : α) (f : α → α) (l : Tab α) (h : tabWf d l = true) :
    tabWf d (tabMap d f l) = true := by
  induction l with
  | nil => rfl
  | cons e l ih =>
    obtain ⟨k', v'⟩ := e
    obtain ⟨_, hk, hw⟩ := (tabWf_cons d k' v' l).1 h
    have ih := ih hw
    unfold tabMap at ih ⊢
    by_cases hf : f v' = d
    · simpa [List.filterMap_cons, hf] using ih
    · simp only [List.filterMap_cons, hf, if_false]
      refine (tabWf_cons ..).2 ⟨hf, ?_, ih⟩
      intro e he
      obtain ⟨x, hx, hxe⟩ := List.mem_filterMap.1 he
      split at hxe
      · cases hxe
      · cases hxe; exact hk x hx

/-- Two canonical tables, the keys of the first all below those of the second. -/
theorem tabWf_append (d : α) (l m : Tab α) (hl : tabWf d l = true) (hm : tabWf d m = true)
    (h : ∀ e ∈ l, ∀ x ∈ m, e.1 < x.1) : tabWf d (l ++ m) = true := by
  induction l with
  | nil => exact hm
  | cons e l ih =>
    obtain ⟨k', v'⟩ := e
    obtain ⟨hv', hk, hw⟩ := (tabWf_cons d k' v' l).1 hl
    refine (tabWf_cons ..).2 ⟨hv', ?_, ih hw fun e he => h e (List.mem_cons_of_mem _ he)⟩
    intro x hx
    rcases List.mem_append.1 hx with hx | hx
    · exact hk x hx
    · exact h (k', v') List.mem_cons_self x hx

/-- A table of rising keys with values that are not the default. -/
theorem tabWf_range (d : α) (k : Nat → Nat) (n : Nat) (f : Nat → α)
    (hk : ∀ a b, a < b → k a < k b) (h : ∀ a, f a ≠ d) :
    tabWf d ((List.range n).map fun a => (k a, f a)) = true := by
  induction n with
  | zero => rfl
  | succ n ih =>
    rw [List.range_succ, List.map_append]
    refine tabWf_append d _ _ ih ?_ ?_
    · simp [tabWf, h]
    · simp only [List.mem_map, List.mem_range, List.map_cons, List.map_nil, List.mem_singleton]
      rintro e ⟨a, ha, rfl⟩ x rfl
      exact hk _ _ ha

end Sys2Proof.Machine
end

