-- ==== Sys2Proof/Laws/Memory.lean ====
section
/-!
SUPPORT. The protected memories: a read after a write, and that every memory operation keeps the
canonical form.
-/

namespace Sys2Proof.Machine

theorem memKey_inj (g a h b : Nat) (ha : a < 2 ^ 24) (hb : b < 2 ^ 24) :
    memKey g a = memKey h b ↔ g = h ∧ a = b := by
  unfold memKey; omega

/-- A word reads as it was written; an invalid word of group 9 reads as its coefficient set does. -/
theorem cellAt_setCell_same (g a : Nat) (c : MemCell) (s : State) (hc : g = 9 → c.valid = true)
    (h : Memory.wf s.mem = true) : cellAt (setCell g a c s) g a = c := by
  have key : tabGet {} (tabSet {} s.mem.cells (memKey g a) c) (memKey g a) = c :=
    tabGet_tabSet_same _ _ _ _ h
  show (if g = 9 ∧ (tabGet {} (tabSet {} s.mem.cells (memKey g a) c) (memKey g a)).valid = false
    then coeffCell s.mem a else tabGet {} (tabSet {} s.mem.cells (memKey g a) c) (memKey g a)) = c
  rw [key, if_neg]
  rintro ⟨h9, hv⟩
  rw [hc h9] at hv
  exact Bool.noConfusion hv

/-- A write leaves every other word alone. -/
theorem cellAt_setCell_other (g a x b : Nat) (c : MemCell) (s : State)
    (hk : memKey x b ≠ memKey g a) (h : Memory.wf s.mem = true) :
    cellAt (setCell g a c s) x b = cellAt s x b := by
  have key : tabGet {} (tabSet {} s.mem.cells (memKey g a) c) (memKey x b) =
      tabGet {} s.mem.cells (memKey x b) := tabGet_tabSet_other _ _ _ _ _ hk h
  show (if x = 9 ∧ (tabGet {} (tabSet {} s.mem.cells (memKey g a) c) (memKey x b)).valid = false
    then coeffCell s.mem b else tabGet {} (tabSet {} s.mem.cells (memKey g a) c) (memKey x b)) = _
  rw [key]
  rfl

theorem setCell_wf (g a : Nat) (c : MemCell) (s : State) (h : Memory.wf s.mem = true) :
    Memory.wf (setCell g a c s).mem = true := tabWf_tabSet _ _ _ _ h

theorem writeWord_wf (g a : Nat) (d : BitVec 128) (s : State) (h : Memory.wf s.mem = true) :
    Memory.wf (writeWord g a d s).mem = true := setCell_wf _ _ _ _ h

theorem writeWords_wf (g a : Nat) (ds : List (BitVec 128)) (s : State)
    (h : Memory.wf s.mem = true) : Memory.wf (writeWords g a ds s).mem = true := by
  induction ds generalizing a s with
  | nil => exact h
  | cons d ds ih => exact ih _ _ (writeWord_wf g a d s h)

theorem invalidateRange_wf (g lo hi : Nat) (s : State) (h : Memory.wf s.mem = true) :
    Memory.wf (invalidateRange g lo hi s).mem = true := tabWf_tabClear _ _ _ _ h

theorem invalidate_wf (g : Nat) (s : State) (h : Memory.wf s.mem = true) :
    Memory.wf (invalidate g s).mem = true := invalidateRange_wf _ _ _ _ h

/-- A coefficient set that an invalidation has reached lacks the words it took. -/
theorem tabGet_without (lo hi k : Nat) (c : CoeffSet) : ∀ l : Tab (Option CoeffSet),
    tabGet none (tabMap none (CoeffSet.without lo hi) l) k = some c → (lo, hi) ∈ c.gone
  | [], h => nomatch h
  | (i, none) :: l, h => tabGet_without lo hi k c l h
  | (i, some v) :: l, h => by
    have e : tabMap none (CoeffSet.without lo hi) ((i, some v) :: l) =
        (i, CoeffSet.without lo hi (some v)) :: tabMap none (CoeffSet.without lo hi) l := rfl
    rw [e, tabGet] at h
    split at h
    · cases h; exact List.mem_cons_self
    · split at h
      · cases h
      · exact tabGet_without lo hi k c l h

/-- After an invalidation every word of the group has V = 0. -/
theorem cellAt_invalidateRange (g lo hi a : Nat) (s : State) (hlo : lo ≤ a) (hhi : a < hi) :
    cellAt (invalidateRange g lo hi s) g a = {} := by
  have key : ∀ l : Tab MemCell, tabGet {} (tabClear l (memKey g lo) (memKey g hi)) (memKey g a) = {} := by
    intro l
    induction l with
    | nil => rfl
    | cons e l ih =>
      obtain ⟨k, v⟩ := e
      unfold tabClear at ih ⊢
      rw [List.filter_cons]
      split
      · rename_i hk
        simp only [Bool.or_eq_true, decide_eq_true_eq] at hk
        have : k ≠ memKey g a := by unfold memKey at *; omega
        simp only [tabGet, this, if_false]
        split
        · rfl
        · exact ih
      · exact ih
  show (if g = 9 ∧ (tabGet {} (tabClear s.mem.cells (memKey g lo) (memKey g hi)) (memKey g a)).valid = false
    then coeffCell (invalidateRange g lo hi s).mem a
    else tabGet {} (tabClear s.mem.cells (memKey g lo) (memKey g hi)) (memKey g a)) = {}
  rw [key]
  split
  · rename_i h9
    have hg : (invalidateRange g lo hi s).mem.coeffs = tabMap none (CoeffSet.without lo hi) s.mem.coeffs :=
      if_pos h9.1
    unfold coeffCell
    split
    · rename_i c hc
      rw [hg] at hc
      have hm := tabGet_without lo hi _ c _ hc
      rw [if_pos (List.any_eq_true.2 ⟨_, hm, by simp [hlo, hhi]⟩)]
    · rfl
  · rfl

theorem groupWords_le (g : Nat) : groupWords g ≤ 2 ^ 24 := by
  unfold groupWords; split <;> decide

/-- The words that a fill writes stand in canonical form. -/
theorem fill_wf (g n : Nat) (f : Nat → BitVec 128) :
    tabWf ({} : MemCell)
      ((List.range n).map fun a => (memKey g a, { valid := true, data := f a })) = true :=
  tabWf_range _ (memKey g) _ _ (fun _ _ h => Nat.add_lt_add_left h _)
    fun _ hc => absurd (congrArg MemCell.valid hc) (by simp)

theorem fillGroup_wf (g : Nat) (f : Nat → BitVec 128) (s : State) (h : Memory.wf s.mem = true) :
    Memory.wf (fillGroup g f s).mem = true := by
  have hw := groupWords_le g
  unfold Memory.wf fillGroup
  rw [State.onMem_mem]
  refine tabWf_append _ _ _ (tabWf_append _ _ _ (tabWf_filter _ _ _ h) ?_ ?_) (tabWf_filter _ _ _ h) ?_
  · exact fill_wf g _ f
  · intro e he x hx
    obtain ⟨a, ha, rfl⟩ := List.mem_map.1 hx
    have he := of_decide_eq_true (List.mem_filter.1 he).2
    exact Nat.lt_of_lt_of_le he (Nat.add_le_add_left (Nat.zero_le a) _)
  · intro e he x hx
    have hx := of_decide_eq_true (List.mem_filter.1 hx).2
    rcases List.mem_append.1 he with he | he
    · have he := of_decide_eq_true (List.mem_filter.1 he).2
      simp only [memKey] at he hx
      omega
    · obtain ⟨a, ha, rfl⟩ := List.mem_map.1 he
      have ha := List.mem_range.1 ha
      simp only [memKey] at hx ⊢
      omega

theorem injectWord_wf (g a : Nat) (m : BitVec 137) (s : State) (h : Memory.wf s.mem = true) :
    Memory.wf (injectWord g a m s).mem = true := by
  unfold injectWord
  dsimp only
  split <;> exact setCell_wf _ _ _ _ h

theorem writeBack_wf (g a : Nat) (s : State) (h : Memory.wf s.mem = true) :
    Memory.wf (writeBack g a s).mem = true := setCell_wf _ _ _ _ h

/-! ### Log tables and checks -/

theorem onGrp_cells (g : Nat) (f : MemGrp → MemGrp) (s : State) :
    (onGrp g f s).mem.cells = s.mem.cells := rfl

@[simp] theorem onMerge_cells (g : Nat) (f : List MergeEntry → List MergeEntry) (s : State) :
    (onMerge g f s).mem.cells = s.mem.cells := by
  unfold onMerge
  rw [State.onMem_mem]
  split <;> rfl
@[simp] theorem narrowWrite_cells (a : Nat) (d m : BitVec 128) (s : State) :
    (narrowWrite a d m s).mem.cells = s.mem.cells := onMerge_cells ..
@[simp] theorem dropMerge_cells (g a : Nat) (s : State) :
    (dropMerge g a s).mem.cells = s.mem.cells := onMerge_cells ..
@[simp] theorem touched_mem (g n : Nat) (s : State) : (touched g n s).mem = s.mem := rfl

@[simp] theorem raise_mem (i d : Nat) (s : State) : (raise i d s).mem = s.mem := rfl
@[simp] theorem raiseBy_mem (o : Bool) (i d : Nat) (s : State) : (raiseBy o i d s).mem = s.mem := rfl
@[simp] theorem statAdd_mem (o n : Nat) (s : State) : (statAdd o n s).mem = s.mem := rfl
@[simp] theorem errAdd_mem (o n : Nat) (s : State) : (errAdd o n s).mem = s.mem := rfl
@[simp] theorem setLevelData_mem (i : Nat) (b : Bool) (d : Nat) (s : State) :
    (setLevelData i b d s).mem = s.mem := rfl
@[simp] theorem setLevel_mem (i : Nat) (b : Bool) (s : State) : (setLevel i b s).mem = s.mem := rfl
@[simp] theorem raiseLimited_mem (k i d : Nat) (s : State) : (raiseLimited k i d s).mem = s.mem := by
  unfold raiseLimited raiseLimitedBy; split <;> rfl

theorem setOverflow_cells (g d a : Nat) (s : State) : (setOverflow g d a s).mem.cells = s.mem.cells := by
  unfold setOverflow; split <;> rfl

theorem logCe_cells (g a d : Nat) (w : Bool) (s : State) : (logCe g a d w s).mem.cells = s.mem.cells := by
  unfold logCe
  split
  · simp [onGrp_cells]
  · exact setOverflow_cells ..

theorem logUe_cells (g a d : Nat) (w : Bool) (s : State) : (logUe g a d w s).mem.cells = s.mem.cells := by
  unfold logUe
  dsimp only
  split
  · rfl
  · split
    · rfl
    · exact setOverflow_cells ..

@[simp] theorem noteError_mem (c g a d : Nat) (s : State) : (noteError c g a d s).mem = s.mem := rfl

theorem foundCe_wf (g a d : Nat) (s : State) (h : Memory.wf s.mem = true) :
    Memory.wf (foundCe g a d s).mem = true := by
  unfold foundCe
  dsimp only
  split
  · refine writeBack_wf _ _ _ ?_
    unfold Memory.wf
    rw [logCe_cells]
    exact h
  · exact h

theorem poisonWord_wf (g a d : Nat) (w : Bool) (s : State) (h : Memory.wf s.mem = true) :
    Memory.wf (poisonWord g a d w s).mem = true := by
  unfold poisonWord
  refine setCell_wf _ _ _ _ ?_
  unfold Memory.wf
  rw [logUe_cells]
  exact h

theorem seeWord_wf (g a d : Nat) (s : State) (h : Memory.wf s.mem = true) :
    Memory.wf (seeWord g a d s).2.mem = true := by
  unfold seeWord
  dsimp only
  split
  · exact h
  · split
    · exact h
    · split
      · exact h
      · exact foundCe_wf _ _ _ _ h
      · exact poisonWord_wf _ _ _ _ _ h

theorem seeWords_wf (g d n : Nat) (a : Nat) (s : State) (h : Memory.wf s.mem = true) :
    Memory.wf (seeWords g d a n s).2.mem = true := by
  induction n generalizing a s with
  | zero => exact h
  | succ n ih => exact ih _ _ (seeWord_wf _ _ _ _ h)

theorem copyBody_wf (g d n : Nat) (a : Nat) (s : State) (h : Memory.wf s.mem = true) :
    Memory.wf (copyBody g d a n s).2.mem = true := by
  induction n generalizing a s with
  | zero => exact h
  | succ n ih =>
    unfold copyBody
    dsimp only
    split
    · exact seeWord_wf _ _ _ _ h
    · exact ih _ _ (seeWord_wf _ _ _ _ h)

theorem popCount_zero : popCount 0 = 0 := by
  have key : ∀ n, (List.range n).foldl (fun n i => n + b2n ((0 : BitVec 137).getLsbD i)) 0 = 0 := by
    intro n
    induction n with
    | zero => rfl
    | succ n ih => rw [List.range_succ, List.foldl_append, ih]; simp [b2n]
  exact key 137

/-- A read of a good word returns it, and only counts as one. -/
theorem seeWord_good (g a d : Nat) (s : State) (hv : (cellAt s g a).valid = true)
    (hp : (cellAt s g a).poison = false) (hf : (cellAt s g a).flips = 0) :
    seeWord g a d s = (some (cellAt s g a).data, touched g 1 s) := by
  have h0 : popCount 0#137 = 0 := popCount_zero
  simp [seeWord, hv, hp, checkWord, readData, hf, h0]

/-- `n` reads of a group one by one. -/
def readCount (g : Nat) : Nat → State → State
  | 0, s => s
  | n + 1, s => readCount g n (touched g 1 s)

@[simp] theorem readCount_mem (g n : Nat) (s : State) : (readCount g n s).mem = s.mem := by
  induction n generalizing s with
  | zero => rfl
  | succ n ih => exact ih _

/-- Consecutive good words are read whole, and the reads are all that changes. -/
theorem seeWords_good (g d : Nat) (s : State) : ∀ n a,
    (∀ i, i < n → (cellAt s g (a + i)).valid = true ∧ (cellAt s g (a + i)).poison = false ∧
      (cellAt s g (a + i)).flips = 0) →
    seeWords g d a n s = (some ((List.range n).map fun i => (cellAt s g (a + i)).data), readCount g n s)
  | 0, _, _ => rfl
  | n + 1, a, h => by
    have h0 := h 0 (Nat.succ_pos n)
    have hs : seeWord g a d s = (some (cellAt s g a).data, touched g 1 s) :=
      seeWord_good g a d s h0.1 h0.2.1 h0.2.2
    have hr := seeWords_good g d (touched g 1 s) n (a + 1) fun i hi => by
      have := h (i + 1) (by omega)
      rwa [show a + 1 + i = a + (i + 1) by omega]
    have e : (List.range (n + 1)).map (fun i => (cellAt s g (a + i)).data) =
        (cellAt s g a).data :: (List.range n).map fun i => (cellAt s g (a + 1 + i)).data := by
      rw [List.range_succ_eq_map, List.map_cons, List.map_map]
      congr 1
      exact List.map_congr_left fun i _ => by
        show (cellAt s g (a + (i + 1))).data = (cellAt s g (a + 1 + i)).data
        rw [show a + (i + 1) = a + 1 + i by omega]
    rw [e]
    simp only [seeWords, hs, hr]
    rfl

end Sys2Proof.Machine
end

