-- ==== Sys2Proof/Laws/Transmit.lean ====
section
/-!
SUPPORT. The gain check of the transmit filters (R162).
-/

namespace Sys2Proof.Machine

theorem getD_nonpos (l : List Int) (h : ∀ v ∈ l, v ≤ 0) (i : Nat) : l.getD i 0 ≤ 0 := by
  rw [List.getD_eq_getElem?_getD]
  cases e : l[i]? with
  | none => simp
  | some v => simpa using h v (List.mem_of_getElem? e)

/-- Interpolation between points that are not positive is not positive. -/
theorem interpAt_nonpos (l : List Int) (h : ∀ v ∈ l, v ≤ 0) (u : Rat) (hu : 0 ≤ u) : interpAt l u ≤ 0 := by
  have ha : ((l.getD (u / 16).floor.toNat 0 : Int) : Rat) ≤ 0 := by exact_mod_cast getD_nonpos l h _
  have hb : ((l.getD ((u / 16).floor.toNat + 1) 0 : Int) : Rat) ≤ 0 := by exact_mod_cast getD_nonpos l h _
  have hf : (0 : Int) ≤ (u / 16).floor := Rat.le_floor_iff.2 (by grind)
  have hk : (((u / 16).floor.toNat : Nat) : Rat) = ((u / 16).floor : Rat) := by
    exact_mod_cast Int.toNat_of_nonneg hf
  have h1 : ((u / 16).floor : Rat) ≤ u / 16 := Rat.floor_le _
  have h2 : u / 16 < ((u / 16).floor : Rat) + 1 := by exact_mod_cast Rat.lt_floor_add_one (u / 16)
  have h3 : 0 ≤ u / 16 - (((u / 16).floor.toNat : Nat) : Rat) := by grind
  have h4 : u / 16 - (((u / 16).floor.toNat : Nat) : Rat) ≤ 1 := by grind
  show (_ : Rat) + (_ - _) * (u / 16 - (((u / 16).floor.toNat : Nat) : Rat)) ≤ 0
  generalize u / 16 - (((u / 16).floor.toNat : Nat) : Rat) = t at h3 h4 ⊢
  generalize ((l.getD (u / 16).floor.toNat 0 : Int) : Rat) = a at ha ⊢
  generalize ((l.getD ((u / 16).floor.toNat + 1) 0 : Int) : Rat) = b at hb ⊢
  have h5 : 0 ≤ -a * (1 - t) := Rat.mul_nonneg (by grind) (by grind)
  have h6 : 0 ≤ -b * t := Rat.mul_nonneg (by grind) h3
  grind

/-- Filters that amplify nowhere pass the check. -/
theorem gainOk_of_nonpos (f : TxFilter) (hm : ∀ v ∈ f.mask, v ≤ 0)
    (ha : ∀ l ∈ [f.xi.amp, f.xq.amp, f.yi.amp, f.yq.amp], ∀ v ∈ l, v ≤ 0)
    (hx : f.gainX ≤ 0) (hy : f.gainY ≤ 0) : gainOk f = true := by
  have db : ∀ (l : List Int) (g : Int), (∀ v ∈ l, v ≤ 0) → g ≤ 0 → ∀ b (n : Nat), n ≤ 1024 →
      combinedDb f l g b (n : Rat) ≤ 18 := by
    intro l g hl hg b n hn
    have hn' : (n : Rat) ≤ 1024 := by exact_mod_cast hn
    have hn0 : (0 : Rat) ≤ (n : Rat) := by exact_mod_cast Nat.zero_le n
    have h1 := interpAt_nonpos f.mask hm (if b then 1024 + (n : Rat) else 1024 - n) (by split <;> grind)
    have h2 := interpAt_nonpos l hl n hn0
    have h3 : (g : Rat) ≤ 0 := by exact_mod_cast hg
    unfold combinedDb
    generalize interpAt f.mask _ = x at *
    generalize interpAt l _ = y at *
    grind
  have key : ∀ (l : List Int) (g : Int), (∀ v ∈ l, v ≤ 0) → g ≤ 0 → ∀ b k, k < 64 →
      stepOk f l g b k = true := by
    intro l g hl hg b k hk
    simp only [stepOk, db l g hl hg b (16 * k) (by omega), db l g hl hg b (16 * (k + 1)) (by omega),
      decide_true, Bool.and_self, Bool.true_or]
  simp only [List.mem_cons, List.not_mem_nil, or_false, forall_eq_or_imp, forall_eq] at ha
  obtain ⟨h1, h2, h3, h4⟩ := ha
  have lane : ∀ (l : List Int) (g : Int), (∀ v ∈ l, v ≤ 0) → g ≤ 0 →
      ((List.range 64).all fun k => stepOk f l g true k && stepOk f l g false k) = true := by
    intro l g hl hg
    rw [List.all_eq_true]
    intro k hk
    rw [List.mem_range] at hk
    rw [key l g hl hg true k hk, key l g hl hg false k hk]
    rfl
  simp only [gainOk, lane _ _ h1 (Int.le_refl 0), lane _ _ h2 hx, lane _ _ h3 (Int.le_refl 0),
    lane _ _ h4 hy, Bool.and_self]

end Sys2Proof.Machine
end

