-- ==== Sys2Proof/Tests/Slice0.lean ====
section
/-!
SUPPORT. Tests: terms that the well-formedness check refuses, single steps whose result the spec
states, and for each statement with hypotheses a state and operands that meet them.
-/

namespace Sys2Proof.Tests

set_option Elab.async false

open Sys2Proof.Machine

/-! ### Small states -/

/-- Outstanding command 0, fetched and bound to core 0. -/
def cmd (op : Nat) (ps : List Word) : Job :=
  { id := 0, mailbox := false, ring := 0, opcode := opOf op, tag := 5, pointer := false
    noInt := false, barrier := false, key := 0, priv := 0, auth := false, cookie := 0
    params := ps, core := some 0 }

/-- A mode's state with outstanding commands and nothing else changed since reset. -/
def at' (m : Mode) (jobs : List Job) : State :=
  { State.reset with
    pwr := { mode := m, pRunning := onLineMode m }
    cmd := { jobs := jobs, nextId := jobs.length } }

/-- A state whose one command is an opcode with its parameters. -/
def one (m : Mode) (op : Nat) (ps : List Word) : State := at' m [cmd op ps]

/-- A state at a later period. -/
def later (p : BitVec 64) (s : State) : State := s.onEvt fun e => { e with period := p }

/-- The conditions of `Taken`, as a check. -/
def takenCheck (op need j : Nat) (job : Job) (s : State) : Bool :=
  findJob j s == some job && ready op job s && !job.auth && !trailerOp job.opcode &&
    opModes job.opcode s.pwr.mode s.pwr.pRunning && decide (need ≤ job.params.length) && !job.committed

theorem taken_of_check {op need j : Nat} {job : Job} {s : State}
    (h : takenCheck op need j job s = true) : Taken op need j job s := by
  simp only [takenCheck, Bool.and_eq_true, beq_iff_eq, decide_eq_true_eq, Bool.not_eq_true'] at h
  obtain ⟨⟨⟨⟨⟨⟨h1, h2⟩, h3⟩, h4⟩, h5⟩, h6⟩, h7⟩ := h
  exact ⟨h1, h2, h3, h4, h5, h6, h7⟩

/-- The conditions of `TakenSigned` but for the MAC, as a check. -/
def signedCheck (op need j : Nat) (job : Job) (s : State) : Bool :=
  findJob j s == some job && ready op job s && job.auth && s.cry.officer.isSome &&
    decide (s.cry.seq < job.trailerSeq) && opModes job.opcode s.pwr.mode s.pwr.pRunning &&
    decide (need + 10 ≤ job.params.length) && !job.committed

theorem signed_of_check {op need j : Nat} {job : Job} {s : State} {o : List Byte × List Byte}
    (h : signedCheck op need j job s = true) (ho : s.cry.officer = some o)
    (hm : macOk o.1 job = true) : TakenSigned op need j job s := by
  simp only [signedCheck, Bool.and_eq_true, beq_iff_eq, decide_eq_true_eq, Bool.not_eq_true'] at h
  obtain ⟨⟨⟨⟨⟨⟨⟨h1, h2⟩, h3⟩, -⟩, h5⟩, h6⟩, h7⟩, h8⟩ := h
  exact ⟨h1, h2, h3, ⟨o, ho, hm⟩, h5, h6, h7, h8⟩

theorem canonical_of_check {s : State} (h : (Memory.wf s.mem && tabWf none s.mem.coeffs) = true) :
    MemoryCanonical s := by
  simpa only [MemoryCanonical, Bool.and_eq_true] using h

/-! ### Commands that cannot be sent -/

/-- A window of some symbols, without errors. -/
def window (symbols : List Nat) : LaneWindow :=
  { symbols := symbols, snr := 1700, offset := 3, peak := 7, phase := 0, marker := true, word := 0 }

/-- A full window of one level. -/
def flat (level : Nat) : List Nat := List.replicate 4096 level

/-- ADC codes, all lanes at one value. -/
def codes (v : Int) : List FourCodes := [{ xi := v, xq := v, yi := v, yq := v }]

/-- A request to the management fabric. -/
def request (master port : Nat) (entered : Int) : FabricReq :=
  { master := master, port := port, entered := entered }

/-- What a frame start brings, with no codes. -/
def measured (estimates : List Int) : RxMeasure :=
  { codes := [], estimates := estimates, dgd := 0, pdl := 0, sop := 0, pilotRatio := 0
    carrier := false }

/-- A store of the lower half of a firmware memory's word. -/
def store (addr master : Nat) : NarrowWrite := { addr := addr, data := 0xABCD, bytes := 0x0F, master := master }

/-- The words of an OP_CTR_CONFIG. -/
def ctrWords : List Word := List.replicate 9 0

/-- One ill-formed term for each check. -/
theorem test_wf_refuses :
    ([Instr.coreTrap 4, .sqDoorbell 4 0, .icuClaimRead 25, .scrubRead 12, .datapathUeRead 12 0,
      .datapathUeRead 0 (2 ^ 24), .mergeDrain 1 0 [] [], .mergeDrain 7 0 [] [], .mergeDrain 6 0 [store 0 2] [],
      .mergeDrain 2 (2 ^ 24) [] [], .mergeDrain 2 0 [store 0 7] [], .mergeDrain 2 0 [store 131072 2] [],
      .mergeDrain 2 0 [] [⟨131072, 1⟩], .mergeDrain 2 0 [] [⟨0, 7⟩], .opCtrConfig (.zilvy 4 ctrWords),
      .opCtrConfig (.zilvy 0 []), .churnOnline 32, .epochLag 1024, .laneSignalDetect 16,
      .laneDown 16 1, .laneDown 0 0, .laneDown 0 4] ++
     [Instr.laneFreezeWindow 16 (window (flat 0)), .laneFreezeWindow 0 (window (flat 4)),
      .laneFreezeWindow 0 (window [0, 1, 2, 3]), .laneStart (some 8) 0, .laneStart none 16, .iterationEnd 0 0 32, .pulseInstant 4, .alignFail 8,
      .refQualified 26, .refinPulse 8 0, .refinPulse 0 160, .gpioEdge 16 true,
      .converterCalibrationEnd 8, .readyUnitStart (.converter 8), .readyUnitStart (.churnGroup 8)] ++
     [Instr.lowWordRead 6 ⟨0, 1⟩, .bwWindow [], .blockArrival 0 (codes 128), .skimSatEvent [-129] [0] [0] [0], .skimSatEvent [0] [0] [0] [],
      .acqSignalDetected (codes 128), .powerStep (codes 128), .los (codes 128),
      .wheyDetectorDecision (codes 128), .decimatorReset 1 0, .msixMaskClear (some 32)] ++
     [Instr.fabricCreditWindow [request 9 0 0], .fabricCreditWindow [request 0 0 (-1)],
      .fabricCreditWindow [request 0 0 792], .rxFrameStart (measured []), .cdFound ⟨0, 25⟩, .conversionEnd 64 0 ⟨0, none⟩,
      .laneFreezeWindow 0 { window (flat 0) with word := 16 }, .ingressFailStart ⟨1024, []⟩, .ingressFailStart ⟨0, [16]⟩,
      .frameSyncFound { start := 0, cfo := 3500001, swapped := false, turnX := 0, turnY := 0 },
      .frameSyncFound { start := 0, cfo := 0, swapped := false, turnX := 4, turnY := 0 },
      .supplyFault 10, .frameOpen [(1024, 0)], .frameDeframed 0 [(1024, 0)]]).all
        fun c => !c.wf := by decide +kernel

/-- The last value that each range admits. -/
theorem test_wf_accepts :
    ([Instr.coreTrap 3, .sqDoorbell 3 0, .icuClaimRead 24, .scrubRead 11,
      .datapathUeRead 11 (2 ^ 24 - 1), .mergeDrain 6 0 [] [], .mergeDrain 2 0 [store 131071 5] [⟨131071, 8⟩],
      .opCtrConfig (.zilvy 3 ctrWords), .churnOnline 31, .epochLag 1023,
      .laneDown 15 3, .laneStart none 15, .laneStart (some 7) 14, .iterationEnd 0 0 31, .pulseInstant 3, .alignFail 7,
      .refQualified 25, .refinPulse 7 159, .gpioEdge 15 true] ++
     [Instr.readyUnitStart (.churnGroup 7), .lowWordRead 5 ⟨0, 2⟩, .msixMaskClear none,
      .laneFreezeWindow 15 { window (flat 3) with word := 15 }, .blockArrival 0 (codes 127), .skimSatEvent [-128] [127] [0] [0],
      .decimatorReset 256 0, .fabricCreditWindow [request 8 0 791],
      .rxFrameStart (measured (List.replicate 8 0)), .cdFound ⟨0, 24⟩, .conversionEnd 63 63 ⟨0, none⟩,
      .frameSyncFound { start := 0, cfo := -3500000, swapped := true, turnX := 3, turnY := 3 },
      .supplyFault 9]).all fun c => c.wf := by decide +kernel

/-! ### Steps and the empty queue -/

/-- The reset pattern is that of the 2.4T preset. -/
theorem test_reset_profile : State.reset.prof = presetProfile 1 := by decide

theorem witness_StepRunsFrontCommand :
    ({ State.reset with pending := [Instr.powerOn] }).pending = Instr.powerOn :: [] ∧
      State.reset.pending = [] := by decide

theorem witness_CompletionAtAcceptance :
    findJob 0 (one .standby 0x0100 []) = some (cmd 0x0100 []) ∧ (cmd 0x0100 []).stage ≠ .decided ∧
      (cmd 0x0100 []).committed = false := by decide

/-! ### Slaca commands -/

/-- A second outstanding command, as the target of an abort. -/
def target (op : Nat) (stage : Stage) : Job := { cmd op [] with id := 1, tag := 6, stage := stage }

/-- An abort of tag 6 beside it. -/
def aborting (t : Job) : State := at' .standby [cmd 0x0102 [6], t]

/-- An abort of the mailbox command, from the mailbox. -/
def mailboxAbort : Job := { cmd 0x0102 [0x10000] with mailbox := true }

theorem witness_QueryAndAbortCommands :
    Taken 0x0100 0 0 (cmd 0x0100 []) (one .standby 0x0100 []) ∧
    Taken 0x0101 0 0 (cmd 0x0101 []) (one .zeroised 0x0101 []) ∧
    (Taken 0x0102 1 0 mailboxAbort (at' .standby [mailboxAbort]) ∧
      (bit (mailboxAbort.param 0) 16 && mailboxAbort.mailbox) = true) ∧
    (Taken 0x0102 1 0 (cmd 0x0102 [6]) (one .standby 0x0102 [6]) ∧
      (bit ((cmd 0x0102 [6]).param 0) 16 && (cmd 0x0102 [6]).mailbox) = false ∧
      abortTarget ((cmd 0x0102 [6]).param 0) (one .standby 0x0102 [6]) = none) ∧
    ([target 0x0104 .running, target 0x0400 .running, target 0x0501 .decided, target 0x0501 .fetched,
      target 0x0501 .pointer, target 0x0501 .running].all fun t =>
        takenCheck 0x0102 1 0 (cmd 0x0102 [6]) (aborting t) &&
          abortTarget 6 (aborting t) == some t && findJob t.id (aborting t) == some t &&
          t.id != 0 && !t.committed) ∧
    officerOp (target 0x0400 .running).opcode = true ∧ officerOp (target 0x0501 .running).opcode = false :=
  ⟨taken_of_check (by decide), taken_of_check (by decide), ⟨taken_of_check (by decide), by decide⟩,
   ⟨taken_of_check (by decide), by decide⟩, by decide⟩

/-- Ring 3 and its completion ring, enabled, with bus mastering. -/
def rings (head tail : BitVec 14) (jobs : List Job) : State :=
  { at' .standby jobs with
    cmd := { jobs := jobs, nextId := jobs.length
             sq := [(3, { enable := true, head := head, tail := tail })]
             cq := [(0, { enable := true }), (3, { enable := true })] }
    evt := { State.reset.evt with busMaster := true } }

theorem witness_RingRegisterWrites :
    portsOpen (rings 0 0 []) = true ∧ State.reset.pwr.mode = .reset ∧
    (cqAt (rings 0 0 []) 3).enable = true ∧ bit 0 4 = false ∧ (sqAt (rings 0 0 []) 3).enable = true ∧
    (cqAt (rings 0 0 []) 0).enable = true ∧ (sqAt (rings 0 0 []) 0).enable = false ∧
    (∀ j ∈ (rings 0 0 []).cmd.jobs, j.live = true → j.ring ≠ 0) := by decide

/-- A command that waits for its pointer read of one word. -/
def pointed : Job := { cmd 0x0501 [0, 0, 1, 0] with pointer := true, stage := .pointer }

theorem witness_PacketFetchAndChecks :
    (∀ k, k ≤ 3 → ((fetching (rings 0 1 []) (((rings 0 1 []).cmd.lastRing + 1 + k) % 4) = true ∧
      (sqAt (rings 0 1 []) (((rings 0 1 []).cmd.lastRing + 1 + k) % 4)).head ≠
        (sqAt (rings 0 1 []) (((rings 0 1 []).cmd.lastRing + 1 + k) % 4)).tail) ↔ k = 3)) ∧
    nextRing (rings 0 1 []) = some 3 ∧ nextRing (rings 0 0 []) ≠ some 3 ∧
    nextRing (rings 0 1 [cmd 0x0100 []]) = some 3 ∧
    packetSlots 0 ≤ ringUsed (sqAt (rings 0 1 [cmd 0x0100 []]) 3).size 1 0 ∧
    (fetching (rings 0 1 []) 3 = true ∧ (sqAt (rings 0 1 []) 3).head ≠ (sqAt (rings 0 1 []) 3).tail ∧
      packetSlots 0 ≤ ringUsed (sqAt (rings 0 1 []) 3).size 1 0 ∧
      (∀ x ∈ (rings 0 1 []).cmd.jobs, x.id < (rings 0 1 []).cmd.nextId) ∧
      tagHeld (jobOfWords 0 3 false [0x7777, 0, 0, 0]) (rings 0 1 []) = false ∧
      anyCore (rings 0 1 []) = true ∧
      frontRefusal 0x7777 0 (jobOfWords 0 3 false [0x7777, 0, 0, 0]) = some (0x10, 0)) ∧
    (∀ x ∈ (rings 0 1 [cmd 0x0100 []]).cmd.jobs, x.id < (rings 0 1 [cmd 0x0100 []]).cmd.nextId) ∧
    tagHeld (jobOfWords 1 3 false [0x50100, 0, 0, 0]) (rings 0 1 [cmd 0x0100 []]) = true ∧
    (findJob 0 (at' .standby [pointed]) = some pointed ∧ pointed.stage = .pointer ∧
      pointed.committed = false ∧ [(7 : Word)].length = (pointed.param 2).toNat ∧
      anyCore (at' .standby [pointed]) = true) := by decide

/-- A decided command of ring 0, and its state with room for nothing more or for all. -/
def ended : Job := { cmd 0x0100 [] with stage := .decided }
def full : State :=
  { rings 0 0 [ended] with
    cmd := { (rings 0 0 [ended]).cmd with cq := [(0, { enable := true, tail := 63 })] } }

theorem witness_CompletionsReachTheirRing :
    ended.stage = .decided ∧ ended.live = true ∧
    (findJob 0 (rings 0 0 [ended]) = some ended ∧ completionInOrder ended (rings 0 0 [ended]) = true ∧
      (cqAt (rings 0 0 [ended]) 0).enable = true ∧ hostWritable (rings 0 0 [ended]) = true ∧
      completionSlots ended ≤ cqRoom (cqAt (rings 0 0 [ended]) 0) ∧
      writerStalled ended (rings 0 0 [ended]) = false) ∧
    (findJob 0 full = some ended ∧ completionInOrder ended full = true ∧
      (cqAt full 0).enable = true ∧ hostWritable full = true ∧
      cqRoom (cqAt full 0) < completionSlots ended) ∧
    (hostWritable (full.onEvt fun e => { e with d3hot := true }) = false ∧
      completionReady ended (full.onEvt fun e => { e with d3hot := true }) = true) ∧
    (findJob 0 (at' .standby [{ ended with discarded := true }]) = some { ended with discarded := true } ∧
      resetMayComplete { ended with discarded := true }
        (at' .standby [{ ended with discarded := true }]) = true) := by decide

/-- A mailbox command that has ended. -/
def mailed : Job := { ended with mailbox := true }

theorem witness_MailboxTransfers :
    (one .standby 0x0100 []).codeS = true ∧ (one .standby 0x0100 []).cmd.resetJob = none ∧
    (one .standby 0x0100 []).cmd.mbBusy = false ∧ portsOpen (one .standby 0x0100 []) = true ∧
    portsOpen State.reset = false ∧
    ((0x2000 : BitVec 16).toNat ≤ 0x2000 ∧ 0x2000 < (0x2000 : BitVec 16).toNat + [(1 : Byte)].length) ∧
    ¬((0x2000 : BitVec 16).toNat ≤ 0x2000 ∧ 0x2000 < (0x2000 : BitVec 16).toNat + ([] : List Byte).length) ∧
    ((at' .standby []).onCmd fun c => { c with mbBusy := true }).cmd.mbBusy = true ∧
    (∀ x ∈ (one .standby 0x0100 []).cmd.jobs, x.id < (one .standby 0x0100 []).cmd.nextId) ∧
    (at' .standby [mailed]).cmd.jobs.find? (fun x => x.mailbox) = some mailed ∧
    mailed.stage = .decided ∧ mailed.after = none ∧ (at' .standby [mailed]).cmd.resetJob = none := by
  decide

/-- BOOT with the mailbox as the source, a load as given. -/
def mailboxBoot (busy : Bool) (l : Option Load) : State :=
  { at' .boot [] with
    pwr := { mode := .boot, bootOrder := [.mailbox] }
    cmd := { mbBusy := busy, load := l } }

/-- A load of 16 bytes, or of two chunks, before its first body chunk. -/
def partLoad (length : Nat) : Load := { header := [], body := [], bodyLength := length }

theorem witness_MailboxTransfers_boot :
    (∀ b ∈ [true, false], (mailboxBoot b none).pwr.mode = .boot ∧ portsOpen (mailboxBoot b none) = true ∧
      (mailboxBoot b none).pwr.bootOrder = [.mailbox] ∧ (mailboxBoot b none).pwr.verified = none ∧
      (mailboxBoot b none).cmd.mbBusy = b ∧ (mailboxBoot b none).cmd.load = none) ∧
    headerFail (mailboxBoot false none) (requestBytes (mailboxBoot false none)) = 2 ∧
    (∀ n ∈ [4096, 4097], (mailboxBoot false (some (partLoad n))).cmd.load = some (partLoad n)) ∧
    (partLoad 4097).body.length + 4096 < (partLoad 4097).bodyLength ∧
    (partLoad 4096).bodyLength ≤ (partLoad 4096).body.length + 4096 := by decide +kernel

/-! ### Interrupts and the event log -/

/-- Source `i` set as given, in a state of code S. -/
def sourced (i : Nat) (r : Src) : State :=
  { at' .standby [] with evt := { State.reset.evt with src := [(i, r)] } }

theorem witness_IcuCompleteClearsService :
    portsOpen (sourced 399 { s := true, p := true, e := true }) = true ∧
    tabWf {} (sourced 399 { s := true, p := true, e := true }).evt.src = true ∧
    (399 : Word).toNat % 1024 / 16 = 24 ∧
    (srcAt (sourced 399 { s := true, p := true, e := true }).evt ((399 : Word).toNat % 1024)).s = true ∧
    (srcAt (sourced 399 { s := true, p := true, e := true }).evt 399).p = true ∧
    (srcAt (sourced 399 { s := true, p := true, e := true }).evt 399).e = true ∧
    (grpAt (sourced 399 { s := true, p := true, e := true }).evt 24).route.toNat < 2 ∧
    groupRequests (sourced 384 { p := true, e := true }).evt 24 = true ∧
    coreServed (sourced 384 {}).ctx.cores 24 (sourced 384 { p := true, e := true }).evt = false ∧
    ((384 : Word).toNat % 1024 / 16 ≠ 23 ∧
      (srcAt (sourced 399 { s := true }).evt ((398 : Word).toNat % 1024)).s = false) := by decide

/-- Group 24 requests, its hold-off timer of some units loaded at period 0, at a later period. -/
def heldOff (period : BitVec 64) (units : BitVec 16) : State :=
  (sourced 399 { p := true, e := true }).onEvt fun e => { e with
    period := period, grp := [(24, { timer := some (units, 0) })] }

theorem witness_ClaimsAndHoldoff :
    (portsOpen (sourced 399 { p := true, e := true }) = true ∧
      (srcAt (sourced 399 { p := true, e := true }).evt 399).requests = true ∧
      ∀ k, 16 * 24 ≤ k → k < 399 →
        (srcAt (sourced 399 { p := true, e := true }).evt k).requests = false) ∧
    (∀ k, 16 * 24 ≤ k → k < 16 * 24 + 16 → (srcAt (at' .standby []).evt k).requests = false) ∧
    (grpAt (at' .standby []).evt 24).fresh = false ∧
    (grpAt { State.reset.evt with grp := [(24, { fresh := true, timer := some (4, 0) })] } 24).fresh = true ∧
    (grpAt { State.reset.evt with grp := [(24, { fresh := true, timer := some (4, 0) })] } 24).timer.isSome =
      true ∧
    groupRequests (at' .standby []).evt 24 = false ∧
    groupRequests (sourced 384 { p := true, e := true }).evt 24 = true ∧
    (heldOff 124 4).codeS = true ∧
    ((heldOff 124 4).evt.period - 0).toNat * 2 < 125 * (4 : BitVec 16).toNat ∧
    groupRequests (heldOff 124 4).evt 24 = true ∧
    125 * (4 : BitVec 16).toNat ≤ ((heldOff 250 4).evt.period - 0).toNat * 2 ∧
    groupRequests (heldOff 250 4).evt 24 = true := by
  refine ⟨⟨by decide, by decide, fun k h1 h2 => ?_⟩, fun k _ _ => rfl, by decide⟩
  have hk : tabGet ({} : Src) [(399, { p := true, e := true })] k = {} := by
    have : (399 : Nat) ≠ k := by omega
    simp [tabGet, this]
  exact congrArg Src.requests hk

theorem witness_SourceBitsByWriting :
    portsOpen (sourced 399 { p := true, e := true }) = true ∧
    tabWf {} (sourced 399 { p := true, e := true }).evt.src = true ∧
    groupRequests (sourced 399 { p := true, e := true }).evt 24 = true ∧
    coreServed (sourced 399 {}).ctx.cores 24 (sourced 399 { p := true, e := true }).evt = false ∧
    (grpAt (sourced 399 { p := true, e := true }).evt 24).route.toNat ≤ 1 ∧
    16 * 24 + 15 ∉ [50, 81, 372] ∧ (grpAt (heldOff 124 4).evt 24).timer.isSome = true ∧
    State.reset.pwr.mode = .reset := by decide

theorem witness_GroupConfigurationAndGpio :
    portsOpen (sourced 399 { p := true, e := true }) = true ∧
    tabWf {} (sourced 399 { p := true, e := true }).evt.src = true ∧
    groupRequests (sourced 399 { p := true, e := true }).evt 24 = true ∧
    coreServed (sourced 399 {}).ctx.cores 24 (sourced 399 { p := true, e := true }).evt = false ∧
    gpioModeOf 0xC0000000 15 ≠ gpioModeOf (sourced 399 { p := true, e := true }).evt.gpioMode 15 ∧
    gpioModeOf 0xC0000000 14 = gpioModeOf (sourced 399 { p := true, e := true }).evt.gpioMode 14 ∧
    State.reset.evt.gpioPin.getLsbD 15 = false := by decide

/-- An entry of period 500, and a state that holds it at period 1000. -/
def held : LogEntry :=
  { stamp := 500, secs := 0, ns := 0, source := 37, officer := false, timeInvalid := true, code := 0
    data := 0, reached := 500 }
def holding (lost : Word) : State :=
  (at' .standby []).onEvt fun e => { e with held := [held], period := 1000, discarded := lost }

theorem witness_EventLogMerge :
    (holding 0).codeS = true ∧ (holding 0).evt.discarded = 0 ∧ lowestHeld (holding 0).evt.held = some held ∧
    unread (holding 0).evt < 4095 ∧ isLate (holding 0).evt held = false ∧
    held.stamp.toNat + 500 ≤ (holding 0).evt.period.toNat ∧ (holding 0).evt.d3hot = false ∧
    (counter (holding 0) 0x30018).toNat + 1 < 2 ^ 64 ∧ (holding 1).evt.discarded ≠ 0 ∧
    portsOpen (holding 0) = true ∧
    (let early := (holding 1).onEvt fun e => { e with held := [{ held with stamp := 501 }] }
     500 ≤ early.evt.period.toNat ∧ unread early.evt < 4095 ∧
       ∀ x, lowestHeld early.evt.held = some x → logKey (marker early) < logKey x) ∧
    logKey held ≤ logKey (marker (holding 1)) ∧ lowestHeld (holding 1).evt.held = some held ∧
    ((0 : Word).extractLsb' 0 12 - (holding 0).evt.logRead).toNat ≤ unread (holding 0).evt ∧
    unread (holding 0).evt < ((1 : Word).extractLsb' 0 12 - (holding 0).evt.logRead).toNat := by decide

/-- The endpoint with its settings as given. -/
def endpoint (f : Evt → Evt) : State := (at' .standby []).onEvt f

theorem witness_PcieFunctionStates :
    (endpoint id).pwr.mode ≠ .boot ∧ portsOpen (endpoint id) = true ∧ (endpoint id).evt.d3hot = false ∧
    (endpoint id).evt.perst = false ∧ (endpoint id).evt.busMaster = false ∧
    (endpoint id).evt.msixEnable = false ∧ (endpoint id).evt.linkUp = false ∧
    ((endpoint fun e => { e with d3hot := true }).evt.d3hot = true ∧
      (endpoint fun e => { e with d3hot := true }).evt.busMaster = false) ∧
    ((endpoint fun e => { e with d3hot := true, busMaster := true }).evt.d3hot = true ∧
      (endpoint fun e => { e with d3hot := true, busMaster := true }).evt.busMaster = true ∧
      (endpoint fun e => { e with d3hot := true, busMaster := true }).evt.perst = false) ∧
    ((endpoint fun e => { e with pba := 0x80000000, msixEnable := true, busMaster := true }).evt.pba.getLsbD 31
        = true ∧
      (endpoint fun e => { e with pba := 0x80000000, msixEnable := true, busMaster := true }).evt.functionMask
        = false ∧
      (endpoint fun e => { e with pba := 0x80000000, msixEnable := true, busMaster := true }).evt.msixEnable
        = true ∧
      (endpoint fun e => { e with pba := 0x80000000, msixEnable := true, busMaster := true }).evt.busMaster
        = true) ∧
    (endpoint fun e => { e with linkUp := true }).evt.linkUp = true := by decide

/-! ### Management cores -/

/-- Core 3 in a state, with commands. -/
def cored (x : CoreSt) (jobs : List Job) : State :=
  (at' .standby jobs).onCmd fun c => { c with core := [(3, x)] }

theorem witness_CoreFaultsAndReturns :
    (coreInService (one .standby 0x0501 []) 0 = true ∧
      cmd 0x0501 [] ∈ (one .standby 0x0501 []).cmd.jobs ∧ (cmd 0x0501 []).core = some 0 ∧
      (cmd 0x0501 []).released = false ∧ (cmd 0x0501 []).committed = false) ∧
    JobIdsFresh (one .standby 0x0501 []) ∧
    coreInService (one .standby 0x0501 []) 3 = true ∧ (cmd 0x0501 []).core ≠ some 3 ∧
    coreInService (cored { state := .offline } []) 3 = false ∧
    ((cored { state := .restarting, again := true } []).codeS = true ∧
      (coreAt (cored { state := .restarting, again := true } []) 3).state = .restarting ∧
      (coreAt (cored { state := .restarting, again := true } []) 3).again = true ∧
      (coreAt (cored { state := .restarting, again := true } []) 3).returnJob = none) ∧
    ((coreAt (cored { state := .restarting } []) 3).again = false ∧
      peerOf 3 (cored { state := .restarting } []) = some 0 ∧
      (copyBody 2 5 0 (bodyCount (cored { state := .restarting } [])) (cored { state := .restarting } [])).1.isSome
        = true) ∧
    (Taken 0x0910 1 0 (cmd 0x0910 [3]) (cored { state := .offline } [cmd 0x0910 [3]]) ∧
      ((cmd 0x0910 [3]).param 0).toNat % 4 = 3 ∧
      (coreAt (cored { state := .offline } [cmd 0x0910 [3]]) 3).state = .offline) ∧
    (Taken 0x0910 1 0 (cmd 0x0910 [3]) (one .standby 0x0910 [3]) ∧
      (coreAt (one .standby 0x0910 [3]) 3).state ≠ .offline) :=
  ⟨by decide, ⟨by decide, by decide⟩, by decide, by decide, by decide, by decide, by decide,
   ⟨taken_of_check (by decide), by decide⟩, ⟨taken_of_check (by decide), by decide⟩⟩

/-- Core 3 restarts while core 0's first body word is poisoned. -/
def poisonedPeer : State :=
  let image : Image := { source := .slotA, version := 0, security := 0, bodyLength := 16
                         enrolKey := none, body := [] }
  let s := cored { state := .restarting } []
  { s with
    pwr := { s.pwr with image := some image }
    mem := { s.mem with cells := [(2 * 2 ^ 24, { valid := true, poison := true })] } }

theorem witness_CoreFaultsAndReturns_poisoned :
    (coreAt poisonedPeer 3).again = false ∧ peerOf 3 poisonedPeer = some 0 ∧
    (copyBody 2 5 0 (bodyCount poisonedPeer) poisonedPeer).1 = none := by decide

/-- All the other cores are offline. -/
theorem witness_CoreFaultsAndReturns_alone :
    peerOf 3 ((cored { state := .restarting } []).onCmd fun c => { c with core :=
      [(0, { state := .offline }), (1, { state := .offline }), (2, { state := .offline }),
       (3, { state := .restarting })] }) = none := by decide

/-! ### Memory -/

/-- One word of a group, in the modes of code P. -/
def word' (g a : Nat) (c : MemCell) : State := setCell g a c (at' .ready [])

/-- A recovery pass on group `g` at an address. -/
def passing (g addr : Nat) : State :=
  onGrp g (fun m => { m with pass := some { job := 0, addr := addr, clear := true } })
    (at' .ready [{ cmd 0x0801 [0] with stage := .working, committed := true }])

theorem witness_ProtectedWordsReadAndWritten :
    MemoryCanonical State.reset ∧ (cellAt State.reset 11 16383).valid = false ∧
    MemoryCanonical (word' 11 16383 { valid := true, poison := true }) ∧
    (cellAt (word' 11 16383 { valid := true, poison := true }) 11 16383).valid = true ∧
    (cellAt (word' 11 16383 { valid := true, poison := true }) 11 16383).poison = true ∧
    MemoryCanonical (word' 0 0 { valid := true, flips := 1 }) ∧
    popCount (cellAt (word' 0 0 { valid := true, flips := 1 }) 0 0).flips = 1 ∧
    MemoryCanonical (word' 0 0 { valid := true, flips := 3 }) ∧
    popCount (cellAt (word' 0 0 { valid := true, flips := 3 }) 0 0).flips = 2 ∧
    memKey 11 16382 ≠ memKey 11 16383 :=
  ⟨canonical_of_check (by decide +kernel), by decide +kernel, canonical_of_check (by decide +kernel), by decide +kernel, by decide +kernel,
   canonical_of_check (by decide +kernel), by decide +kernel, canonical_of_check (by decide +kernel), by decide +kernel, by decide +kernel⟩

theorem witness_MemoryCommands :
    (Taken 0x0801 1 0 (cmd 0x0801 [11]) (one .standby 0x0801 [11]) ∧
      groupRuns (one .standby 0x0801 [11]) 11 = true ∧ (memGrp (one .standby 0x0801 [11]) 11).pass = none) ∧
    (Taken 0x0801 1 0 (cmd 0x0801 [12]) (one .standby 0x0801 [12]) ∧
      ((cmd 0x0801 [12]).param 0).toNat % 16 = 12) ∧
    (Taken 0x0801 1 0 (cmd 0x0801 [0]) (one .standby 0x0801 [0]) ∧
      groupRuns (one .standby 0x0801 [0]) 0 = false) ∧
    (Taken 0x0801 1 0 (cmd 0x0801 [11])
        (onGrp 11 (fun m => { m with pass := some { job := 1, addr := 0, clear := false } })
          (one .standby 0x0801 [11])) ∧
      groupRuns (onGrp 11 (fun m => { m with pass := some { job := 1, addr := 0, clear := false } })
          (one .standby 0x0801 [11])) 11 = true) ∧
    (Taken 0x0802 7 0 (cmd 0x0802 [0, 4194302, 1, 1, 1, 1, 511])
        (one .maintenance 0x0802 [0, 4194302, 1, 1, 1, 1, 511]) ∧
      addrOk 0 4112383 = true ∧ (511 : Word).toNat < 2 ^ groupCheck 0) ∧
    (Taken 0x0802 7 0 (cmd 0x0802 [6, 0, 1, 0, 0, 0, 0]) (one .maintenance 0x0802 [6, 0, 1, 0, 0, 0, 0]) ∧
      addrOk 6 0 = true ∧ groupData 6 ≤ 32 ∧ (0 : Word).toNat < 2 ^ groupCheck 6) :=
  ⟨⟨taken_of_check (by decide +kernel), by decide +kernel⟩, ⟨taken_of_check (by decide +kernel), by decide +kernel⟩,
   ⟨taken_of_check (by decide +kernel), by decide +kernel⟩, ⟨taken_of_check (by decide +kernel), by decide +kernel⟩,
   ⟨taken_of_check (by decide +kernel), by decide +kernel⟩, ⟨taken_of_check (by decide +kernel), by decide +kernel⟩⟩

theorem witness_MemoryCommands_passes :
    ((memGrp (passing 11 16383) 11).pass = some { job := 0, addr := 16383, clear := true } ∧
      groupRuns (passing 11 16383) 11 = true ∧ 16383 < groupReads 11 ∧ readAddrs 11 16383 = [16383] ∧
      (cellAt (passing 11 16383) 11 16383).valid = false ∧
      (cellAt (passing 11 16383) 11 16383).poison = false) ∧
    ((memGrp (passing 11 16384) 11).pass = some { job := 0, addr := 16384, clear := true } ∧
      findJob 0 (passing 11 16384) = some { cmd 0x0801 [0] with stage := .working, committed := true } ∧
      groupReads 11 ≤ 16384) ∧
    2 * (memGrp (onGrp 11 (fun m => { m with lapLimit := 0 }) (passing 11 0)) 11).lapLimit.toNat ≤
      ((passing 11 0).evt.period - 0).toNat / 250 := by decide +kernel

/-- The second read of a pass is not due at its start, and is due later. -/
theorem witness_MemoryCommands_pace :
    (let p : Pass := { job := 0, addr := 1, clear := false, read := 1 }
     let s := onGrp 11 (fun m => { m with pass := some p }) (later 0 (word' 11 1 { valid := true }))
     let u := onGrp 11 (fun m => { m with pass := some p })
       (later 999999 (word' 11 1 { valid := true, poison := true }))
     let v := onGrp 10 (fun m => { m with pass := some { p with clear := true } })
       (later 999999 (word' 10 1 { valid := true, poison := true }))
     let w := onGrp 0 (fun m => { m with pass := some p })
       (later 999999 (word' 0 (2 ^ 17 + 1) { valid := true, flips := 3 }))
     passDue w 0 p = true ∧ groupRuns w 0 = true ∧ p.addr < groupReads 0 ∧
     popCount (cellAt w 0 (2 ^ 17 + 1)).flips = 2 ∧ 2 ^ 17 + 1 ∈ readAddrs 0 1 ∧
     passDue v 10 { p with clear := true } = true ∧ groupRuns v 10 = true ∧ readAddrs 10 1 = [1] ∧
     (cellAt v 10 1).valid = true ∧ (cellAt v 10 1).poison = true ∧
     (memGrp s 11).pass = some p ∧ groupRuns s 11 = true ∧ p.addr < groupReads 11 ∧
     passDue s 11 p = false ∧
     passDue (later 999999 s) 11 p = true ∧ p.clear = false ∧
     (cellAt (later 999999 s) 11 1).poison = false ∧ (cellAt (later 999999 s) 11 1).flips = 0 ∧
     (memGrp u 11).pass = some p ∧ groupRuns u 11 = true ∧ passDue u 11 p = true ∧
     (cellAt u 11 1).valid = true ∧ (cellAt u 11 1).poison = true) := by decide +kernel

/-- The scrubber's word 16383 is not due at the lap's start, and is due at a lap's length. -/
theorem witness_ScrubbersAndErrors_pace :
    (let s := onGrp 11 (fun m => { m with scrubAddr := 16383, lapStart := some 0 }) (at' .ready [])
     groupRuns s 11 = true ∧ (memGrp s 11).pass = none ∧ scrubDue s 11 = false ∧
     scrubDue (later 99999999 s) 11 = true ∧
     scrubDue (word' 11 0 { valid := true, flips := 3 }) 11 = false ∧
     scrubDue (later 99999 (onGrp 11 (fun m => { m with lapStart := some 0 })
       (word' 11 0 { valid := true, flips := 3 }))) 11 = true) := by decide +kernel

theorem witness_ScrubbersAndErrors :
    (groupRuns (word' 11 0 { valid := true }) 11 = true ∧
      (memGrp (word' 11 0 { valid := true }) 11).pass = none ∧
      (memGrp (word' 11 0 { valid := true }) 11).scrubAddr = 0 ∧ 0 + 1 < groupReads 11 ∧
      (cellAt (word' 11 0 { valid := true }) 11 0).flips = 0) ∧
    (popCount (cellAt (word' 11 0 { valid := true, flips := 1 }) 11 0).flips = 1 ∧
      logging (word' 11 0 { valid := true, flips := 1 }) 11 = false) ∧
    logging (at' .maintenance []) 11 = true ∧
    popCount (cellAt (word' 11 0 { valid := true, flips := 3 }) 11 0).flips = 2 ∧
    (groupReads 11 ≤ 16383 + 1 ∧
      (memGrp (onGrp 11 (fun m => { m with scrubAddr := 16383 }) (at' .ready [])) 11).scrubAddr = 16383 ∧
      (cellAt (onGrp 11 (fun m => { m with scrubAddr := 16383 }) (at' .ready [])) 11 16383).valid = false) ∧
    ((memGrp (at' .ready []) 11).lapLong = false ∧
      (memGrp (onGrp 11 (fun m => { m with lapLimit := 0 }) (at' .ready [])) 11).lapLimit.toNat ≤
        lapUs (onGrp 11 (fun m => { m with lapLimit := 0 }) (at' .ready [])) 11) ∧
    (addrOk 11 16383 = true ∧ (cellAt (word' 11 16383 { valid := true, poison := true }) 11 16383).valid
        = true ∧
      (cellAt (word' 11 16383 { valid := true, poison := true }) 11 16383).poison = true) ∧
    groupClocked (word' 11 16383 { valid := true, poison := true }) 11 = true ∧
    groupClocked (at' .boot []) 11 = true ∧
    (let s := narrowWrite 16895 7 0xFFFF (word' 6 16895 { valid := true, data := 5 })
     addrOk 6 16895 = true ∧ narrowEntry 6 16895 s = some { addr := 16895, data := 7, mask := 0xFFFF } ∧
     (cellAt s 6 16895).valid = true ∧ (cellAt s 6 16895).poison = false ∧ groupClocked s 6 = true ∧
     narrowEntry 6 0 (at' .ready []) = none) ∧
    (addrOk 5 0 = true ∧ (cellAt (at' .ready []) 5 0).valid = false ∧
      (cellAt (word' 2 0 { valid := true, poison := true }) 2 0).poison = true) ∧
    MemoryCanonical ((at' .ready []).onMem fun m => { m with coeffRebuild := some false }) ∧
    (((at' .ready []).onMem fun m => { m with coeffRebuild := some false }).mem.coeffRebuild = some false ∧
      ((at' .ready []).onMem fun m => { m with coeffRebuild := some false }).codeP = true) := by
  unfold MemoryCanonical
  decide +kernel

/-- A store waits for word 7 of a core's memory while its word 0 is drained and read. -/
theorem witness_ScrubbersAndErrors_port :
    (let s := (word' 2 0 { valid := true, data := 5 }).onMem fun m => { m with
        ports := [(2, [{ addr := 7, data := 1, mask := 0xFF, master := 2 }])] }
     groupClocked s 2 = true ∧ narrowEntry 2 0 s = none ∧
     narrowEntry 2 7 s = some { addr := 7, data := 1, mask := 0xFF, master := 2 } ∧
     addrOk 2 (store 131071 2).addr = true ∧ (store 131071 2).addr ≠ 0 ∧ (store 131071 2).master = 2 ∧
     addrOk 2 0 = true ∧ masterStalled 2 8 s = false ∧ (cellAt s 2 0).valid = true ∧
     (cellAt s 2 0).poison = false ∧ (cellAt s 2 0).flips = 0) := by decide +kernel

/-- Two narrow writes of one word merge in issue order (R452). -/
theorem test_merge_in_issue_order :
    addNarrow 3 2 0x50006 0xFFFFFFFF (addNarrow 3 2 0x10002 0xFFFF []) =
      [{ addr := 3, data := 0x50006, mask := 0xFFFFFFFF, master := 2 }] ∧
    addNarrow 3 6 0x10002 0xFFFF0000 (addNarrow 3 2 7 0xFFFF []) =
      [{ addr := 3, data := 0x10007, mask := 0xFFFFFFFF, master := 2 }] := by decide +kernel

theorem witness_MemoryGroupRegisters :
    portsOpen (at' .ready []) = true ∧ 100 = max 100 (min 1000000 ((0 : Word).toNat % 2 ^ 20)) ∧
    1000000 = max 100 (min 1000000 ((0xFFFFF : Word).toNat % 2 ^ 20)) ∧
    State.reset.pwr.mode = .reset := by decide +kernel

/-! ### Counters and measurement -/

/-- Counter `k` with a configuration and a value. -/
def counting (k : Nat) (cfg : PmcConfig) (v : Quad) (jobs : List Job) : State :=
  onPmc k (fun p => { p with cfg := cfg })
    ((at' .standby jobs).onEvt fun e => { e with cnt := tabSet 0 [] (0x40100 + 0x40 * k) v })

theorem witness_CounterCommands :
    (Taken 0x0A01 9 0 (cmd 0x0A01 [55, 255, 0, 0, 0, 0, 0, 0, 0])
        (one .standby 0x0A01 [55, 255, 0, 0, 0, 0, 0, 0, 0]) ∧
      ((cmd 0x0A01 [55, 255, 0, 0, 0, 0, 0, 0, 0]).param 0).toNat % 64 = 55 ∧
      onlyBits 55 0x13F = true ∧ onlyBits 255 0x1E0FFF = true ∧ eventOk ((255 : Word).extractLsb' 0 12) = true ∧
      onlyBits 0 0x03FF3FFF = true ∧ onlyBits 0 0xFFFF = true ∧
      (pmcAt (one .standby 0x0A01 [55, 255, 0, 0, 0, 0, 0, 0, 0]) 55).pending = none) ∧
    (Taken 0x0A01 9 0 (cmd 0x0A01 [55, 255, 0, 0, 0, 0, 0, 0, 0])
        (onPmc 55 (fun p => { p with pending := some (.packet 1, false, {}) })
          (one .standby 0x0A01 [55, 255, 0, 0, 0, 0, 0, 0, 0])) ∧
      (pmcAt (onPmc 55 (fun p => { p with pending := some (.packet 1, false, {}) })
          (one .standby 0x0A01 [55, 255, 0, 0, 0, 0, 0, 0, 0])) 55).pending ≠ none) ∧
    (Taken 0x0A01 9 0 (cmd 0x0A01 [56, 255, 0, 0, 0, 0, 0, 0, 0])
        (one .standby 0x0A01 [56, 255, 0, 0, 0, 0, 0, 0, 0]) ∧
      ((cmd 0x0A01 [56, 255, 0, 0, 0, 0, 0, 0, 0]).param 0).toNat % 64 = 56) ∧
    (let ws : List Word := [56, 255, 2048, 0, 0, 0, 0, 0, 0xFFFF]
     ws.length = 9 ∧ (at' .standby []).codeS = true ∧ coreInService (at' .standby []) 3 = true ∧
     (ws.getD 0 0).toNat % 64 = 56 ∧ onlyBits (ws.getD 0 0) 0x13F = true ∧
     onlyBits (ws.getD 1 0) 0x1E0FFF = true ∧ eventOk ((ws.getD 1 0).extractLsb' 0 12) = true ∧
     onlyBits (ws.getD 2 0) 0x03FF3FFF = true ∧ onlyBits (ws.getD 8 0) 0xFFFF = true ∧
     (pmcAt (at' .standby []) 56).pending = none ∧ tabWf {} (at' .standby []).pmu.pmc = true) ∧
    (Taken 0x0A02 1 0 (cmd 0x0A02 [0x1FFFF]) (one .standby 0x0A02 [0x1FFFF]) ∧
      (0x1FFFF : Word) ≠ 0 ∧ onlyBits 0x1FFFF 0x1FFFF = true) ∧
    (Taken 0x0A02 1 0 (cmd 0x0A02 [0x20000]) (one .standby 0x0A02 [0x20000]) ∧
      onlyBits 0x20000 0x1FFFF = false) ∧
    (Taken 0x0A03 2 0 (cmd 0x0A03 [1000000, 1]) (one .standby 0x0A03 [1000000, 1]) ∧
      onlyBits 1000000 0xFFFFF = true ∧ onlyBits 1 1 = true) :=
  ⟨⟨taken_of_check (by decide +kernel), by decide +kernel⟩, ⟨taken_of_check (by decide +kernel), by decide +kernel⟩,
   ⟨taken_of_check (by decide +kernel), by decide +kernel⟩, by decide +kernel, ⟨taken_of_check (by decide +kernel), by decide +kernel⟩,
   ⟨taken_of_check (by decide +kernel), by decide +kernel⟩, ⟨taken_of_check (by decide +kernel), by decide +kernel⟩⟩

theorem witness_CountersTickAndLatch :
    CounterTablesCanonical (at' .standby []) ∧
    CounterTablesCanonical (counting 63 {} 0xFFFFFFFFFFFF []) ∧
    (counter (counting 63 {} 0xFFFFFFFFFFFF []) (0x40100 + 0x40 * 63)).toNat = 2 ^ 48 - 1 ∧
    (([{ code := 0, master := 0, priv := 0, addr := 0, id := 0 }] : List PmcEvent).filter
      (passes (pmcAt (counting 63 { event := 255, enable := true, classMask := 1, masterMask := 1
                                    privMask := 1 } 0xFFFFFFFFFFFF []) 63).cfg)).length = 1 ∧
    (let cfg : PmcConfig := { event := 255, enable := true, classMask := 1, masterMask := 1, privMask := 1 }
     let es : List PmcEvent := [{ code := 0, master := 0, priv := 0, addr := 0, id := 0, times := 2 ^ 47 }]
     let s := counting 63 cfg 0xFFFFFFFFFFFF []
     let u := counting 63 cfg 0x7FFFFFFFFFFF []
     ((es.filter (passes (pmcAt s 63).cfg)).map fun e => e.times).sum = 2 ^ 47 ∧
     2 ^ 48 ≤ 2 ^ 48 - 1 + 2 ^ 47 ∧
     (counter u (0x40100 + 0x40 * 63)).toNat + 2 ^ 47 < 2 ^ 48 ∧
     ((es.filter (passes (pmcAt u 63).cfg)).map fun e => e.times).sum = 2 ^ 47) ∧
    (pmcAt (counting 63 {} 0xFFFFFFFFFFFF []) 63).cfg.reload = false ∧
    (pmcAt (counting 63 {} 0xFFFFFFFFFFFF []) 63).cfg.int = false ∧
    (pmcAt (counting 63 {} 0xFFFFFFFFFFFF []) 63).cfg.sample = false ∧
    snapMask ((at' .standby []).onPmu fun p => { p with snapPending := 0x10000 }).pmu ≠ 0 ∧
    ((at' .standby []).onPmu fun p => { p with snapPending := 0x10000 }).pmu.snapJobs = [] ∧
    ((at' .standby []).onPmu fun p => { p with snapPending := 0x10000 }).pmu.snapPending.getLsbD 16 = true ∧
    ((blockSpan 16).1 ≤ (blockSpan 16).1 ∧ (blockSpan 16).1 < (blockSpan 16).2 ∧
      ∀ b < 17, ((at' .standby []).onPmu fun p => { p with snapPending := 0x10000 }).pmu.snapPending.getLsbD b
          = true →
        ¬ ((blockSpan b).1 ≤ (blockSpan 15).1 ∧ (blockSpan 15).1 < (blockSpan b).2)) ∧
    ((at' .standby []).evt.period - (at' .standby []).pmu.bwStart).toNat <
      (at' .standby []).pmu.window.toNat * 250 ∧
    (at' .standby []).pmu.window.toNat * 250 ≤
      ((later ((at' .standby []).pmu.bwStart + BitVec.ofNat 64 ((at' .standby []).pmu.window.toNat * 250))
        (at' .standby [])).evt.period - (at' .standby []).pmu.bwStart).toNat ∧
    (at' .standby []).codeS = true ∧ (at' .standby []).pmu.bwInt = false ∧
    (at' .standby []).pmu.bwPending = [] ∧
    ((0 : Word).extractLsb' 0 8 - (at' .standby []).pmu.sampleRead).toNat ≤
      ((at' .standby []).pmu.sampleWrite - (at' .standby []).pmu.sampleRead).toNat ∧
    ((at' .standby []).pmu.sampleWrite - (at' .standby []).pmu.sampleRead).toNat <
      ((1 : Word).extractLsb' 0 8 - (at' .standby []).pmu.sampleRead).toNat := by
  unfold CounterTablesCanonical
  decide +kernel

/-! ### Register ports -/

theorem witness_HostWritesReachOnlyTheirRegisters :
    [(0xE : BitVec 4)] ≠ List.replicate [(0 : Word)].length 0xF ∧ writableNow ((0x60014 : BitVec 24).toNat / 4 * 4) (at' .boot []) = false ∧
    ((0x1016C : BitVec 24).toNat / 4 * 4 = 0x1010C + 0x20 * 3 ∧ portsOpen (at' .ready []) = true) ∧
    (0x51E07 : BitVec 24).toNat / 4 * 4 = 0x51004 + 0x200 * 7 ∧
    ((0x80004 : BitVec 24).toNat / 4 * 4 = 0x80004 ∧ bit 1 0 = true) ∧
    (0x0B : BitVec 24).toNat / 4 * 4 = 0x08 ∧ (0x4000C : BitVec 24).toNat / 4 * 4 = 0x4000C ∧
    (0x40020 : BitVec 24).toNat / 4 * 4 = 0x40020 ∧
    (0x21634 : BitVec 24).toNat / 4 * 4 = 0x21034 + 0x40 * 24 ∧
    ((0x60014 : BitVec 24).toNat / 4 * 4 = 0x60014 ∧ (0x70014 : BitVec 24).toNat / 4 * 4 = 0x70014 ∧
      (at' .ready []).codeS = true) ∧
    (0x10160 : BitVec 24).toNat / 4 * 4 = 0x10100 + 0x20 * 3 ∧
    (0x10167 : BitVec 24).toNat / 4 * 4 = 0x10104 + 0x20 * 3 ∧
    (0x10260 : BitVec 24).toNat / 4 * 4 = 0x10200 + 0x20 * 3 ∧
    (0x10264 : BitVec 24).toNat / 4 * 4 = 0x10204 + 0x20 * 3 ∧
    (0x52600 : BitVec 24).toNat / 4 * 4 = 0x51000 + 0x200 * 11 ∧
    (0x40024 : BitVec 24).toNat / 4 * 4 = 0x40024 := by decide +kernel

/-- The host's latch holds the count at 0x10010. -/
def latched : State :=
  (at' .ready []).onBus fun b => { b with latch := [(0, { addr := some 0x10010, words := [7] })] }

theorem witness_ReadsAndLatches :
    portsOpen (at' .ready []) = true ∧
    (windowAt 0x400004 = some (10, 0, 1) ∧ readReaches (at' .ready []) 0 0x400004 = true ∧
      windowClosed ((at' .ready []).onSkim fun k => { k with capture := .armed }) 10 = true) ∧
    (0x4C : BitVec 7) = i2cTarget (at' .ready []) ∧ (0x4D : BitVec 7) ≠ i2cTarget (at' .ready []) ∧
    (portsOpen (i2cWord 0x20010 0 (at' .ready [])) = true ∧
      i2cTarget (i2cWord 0x20010 0 (at' .ready [])) = i2cTarget (at' .ready [])) ∧
    (readReaches (at' .ready []) 0 0x10010 = true ∧ windowAt 0x10010 = none ∧ headWords 0x10010 ≠ 0) ∧
    (readReaches latched 0 0x10014 = true ∧ windowAt 0x10014 = none ∧ headWords 0x10014 = 0 ∧
      highOf 0x10014 = some (0x10010, 1) ∧ (latchAt latched 0).addr = some 0x10010) ∧
    (readReaches (at' .ready []) 0 0x31FFFC = true ∧ windowAt 0x31FFFC = some (11, 16383, 1) ∧
      windowClosed (at' .ready []) 11 = false ∧ (cellAt (at' .ready []) 11 16383).valid = false) ∧
    (cellAt (word' 11 16383 { valid := true, data := 1 }) 11 16383).valid = true ∧
    (cellAt (word' 11 16383 { valid := true, data := 1 }) 11 16383).poison = false ∧
    (cellAt (word' 11 16383 { valid := true, data := 1 }) 11 16383).flips = 0 ∧
    (cellAt (word' 11 16383 { valid := true, poison := true }) 11 16383).poison = true ∧
    readReaches (word' 11 16383 { valid := true, poison := true }) 0 0x31FFFC = true ∧
    ([1, 2, 3] : List Byte).length < 4 := by decide +kernel

/-! ### Telemetry and skim -/

/-- A sequence of one entry, on input 8. -/
def entry : MonEntry :=
  { input := 8, gain := 0, sCode := 0, decimate := false, low := 0, high := 0 }
def measuring (f : Mon → Mon) (jobs : List Job) : State :=
  (at' .standby jobs).onMon fun m => f { m with seq := [entry] }

theorem witness_TelemetryConverter :
    (Taken 0x0701 1 0 (cmd 0x0701 [0x801, 0, 0]) (one .standby 0x0701 [0x801, 0, 0]) ∧
      ((cmd 0x0701 [0x801, 0, 0]).param 0).toNat % 32 = 1 ∧
      ((cmd 0x0701 [0x801, 0, 0]).param 0).toNat / 2 ^ 8 % 16 = 8 ∧
      (∀ i, i < 1 → monEntryBad (monEntryOf (cmd 0x0701 [0x801, 0, 0]) i) = false) ∧
      (one .standby 0x0701 [0x801, 0, 0]).mon.pend = none ∧
      (one .standby 0x0701 [0x801, 0, 0]).mon.running = false) ∧
    (Taken 0x0701 1 0 (cmd 0x0701 [0x801, 0, 0])
        (measuring (fun m => { m with running := true }) [cmd 0x0701 [0x801, 0, 0]]) ∧
      (measuring (fun m => { m with running := true }) []).mon.running = true) ∧
    (Taken 0x0701 1 0 (cmd 0x0701 [0x801, 0, 0])
        (measuring (fun m => { m with pend := some (1, [], 0) }) [cmd 0x0701 [0x801, 0, 0]]) ∧
      (measuring (fun m => { m with pend := some (1, [], 0) }) []).mon.pend ≠ none) ∧
    Taken 0x0702 1 0 (cmd 0x0702 [5]) (one .standby 0x0702 [5]) ∧
    ((measuring id []).codeS = true ∧ (measuring id []).mon.seq ≠ [] ∧
      (measuring id []).mon.running = false ∧ (measuring id []).mon.pend = none) ∧
    ((measuring (fun m => { m with running := true }) []).mon.passPending = false) ∧
    ((measuring (fun m => { m with running := true, passPending := true }) []).mon.passPending = true ∧
      (measuring (fun m => { m with running := true, passPending := true }) []).mon.running = true) ∧
    ((measuring (fun m => { m with running := true }) []).mon.seq[0]? = some entry ∧
      (measuring (fun m => { m with running := true }) []).mon.active + 1 =
        (measuring (fun m => { m with running := true }) []).mon.seq.length) ∧
    ((measuring (fun m => { m with running := true, seq := [entry, entry] }) []).mon.active + 1 <
      (measuring (fun m => { m with running := true, seq := [entry, entry] }) []).mon.seq.length) ∧
    (8 ≤ entry.input.toNat ∧ fullScale entry < fullScale entry + 1 ∧ (-1 : Rat) < 0 ∧
      (0 : Rat) ≤ fullScale entry ∧ convert entry (fullScale entry) = (4095, false, false) ∧
      ((measuring (fun m => { m with running := true }) []).evt.period -
        (measuring (fun m => { m with running := true }) []).mon.lastEnd).toNat < convPeriods entry.sCode.toNat ∧
      convPeriods entry.sCode.toNat ≤ ((later 128 (measuring (fun m => { m with running := true }) [])).evt.period -
        (measuring (fun m => { m with running := true }) []).mon.lastEnd).toNat) ∧
    (let s := (later 2500 (at' .standby [])).onMon fun m => { m with testDac := 0x1F7FF }
     bit s.mon.testDac 10 = true ∧ 2500 ≤ (s.evt.period - s.mon.dacSet).toNat ∧
     bit s.mon.testDac 16 = true ∧ s.mon.testDac.toNat / 2 ^ 12 % 16 = 35 - 20 ∧
     s.mon.testDac.toNat / 2 ^ 12 % 16 ≠ 20 - 20) ∧
    convert entry (inputValue (measuring id []) 8 ⟨fullScale entry, none⟩) = (4095, false, false) :=
  ⟨⟨taken_of_check (by decide +kernel), by decide +kernel⟩,
   ⟨taken_of_check (by decide +kernel), by decide +kernel⟩,
   ⟨taken_of_check (by decide +kernel), by decide +kernel⟩, taken_of_check (by decide +kernel),
   by decide +kernel⟩

/-- The skim tap as given, with commands. -/
def skimming (f : Skim → Skim) (jobs : List Job) : State := (at' .ready jobs).onSkim f

theorem witness_SkimTapCommands :
    (Taken 0x0710 1 0 (cmd 0x0710 [0x8050]) (one .ready 0x0710 [0x8050]) ∧
      5 ≤ (0x8050 : Word).toNat / 2 ^ 4 % 16 ∧ (0x80C0 : Word).toNat / 2 ^ 4 % 16 ≤ 12 ∧
      (0x8050 : Word).toNat / 2 ^ 12 % 16 ≤ 8 ∧ (one .ready 0x0710 [0x8050]).skim.capture ≠ .armed ∧
      (one .ready 0x0710 [0x8050]).skim.capture ≠ .triggered) ∧
    (Taken 0x0710 1 0 (cmd 0x0710 [0x80C0])
        (skimming (fun k => { k with capture := .triggered }) [cmd 0x0710 [0x80C0]]) ∧
      (skimming (fun k => { k with capture := .triggered }) []).skim.capture = .triggered) ∧
    (Taken 0x0711 2 0 (cmd 0x0711 [0x3F, 0x3FFFF]) (one .ready 0x0711 [0x3F, 0x3FFFF]) ∧
      ((cmd 0x0711 [0x3F, 0x3FFFF]).param 0).toNat % 64 ≠ 0) ∧
    (Taken 0x0711 2 0 (cmd 0x0711 [0x40, 0]) (one .ready 0x0711 [0x40, 0]) ∧
      ((cmd 0x0711 [0x40, 0]).param 0).toNat % 64 = 0) ∧
    (Taken 0x0712 0 0 (cmd 0x0712 [])
        (skimming (fun k => { k with capture := .armed, mask := 1 }) [cmd 0x0712 []]) ∧
      (skimming (fun k => { k with capture := .armed, mask := 1 }) []).skim.capture = .armed ∧
      (skimming (fun k => { k with capture := .armed, mask := 1 }) []).skim.mask.getLsbD 0 = true) ∧
    (Taken 0x0712 0 0 (cmd 0x0712 []) (one .ready 0x0712 []) ∧
      (one .ready 0x0712 []).skim.mask.getLsbD 0 = false) ∧
    Taken 0x0713 0 0 (cmd 0x0713 []) (one .ready 0x0713 []) ∧
    ((skimming id []).codeP = true ∧ (skimming id []).skim.capture ≠ .armed ∧
      (skimming id []).skim.syncs = []) ∧
    ((skimming (fun k => { k with syncs := [(some 0, 0), (none, 4)] }) []).skim.syncs = (some 0, 0) :: [(none, 4)] ∧
      (skimming (fun k => { k with syncs := [(some 0, 0)] }) []).codeP = true ∧
      ((later 25 (skimming id [])).evt.period - (0 : Quad)).toNat < 26 ∧
      26 ≤ ((later 26 (skimming id [])).evt.period - (0 : Quad)).toNat ∧
      (255 : BitVec 64).toNat % 256 ≠ 0 ∧ (256 : BitVec 64).toNat % 256 = 0) ∧
    ((skimming (fun k => { k with capture := .armed, mask := 16 }) []).skim.mask.getLsbD 4 = true) ∧
    ((skimming (fun k => { k with capture := .triggered }) []).skim.left = 0) :=
  ⟨⟨taken_of_check (by decide +kernel), by decide +kernel⟩,
   ⟨taken_of_check (by decide +kernel), by decide +kernel⟩,
   ⟨taken_of_check (by decide +kernel), by decide +kernel⟩,
   ⟨taken_of_check (by decide +kernel), by decide +kernel⟩,
   ⟨taken_of_check (by decide +kernel), by decide +kernel⟩,
   ⟨taken_of_check (by decide +kernel), by decide +kernel⟩, taken_of_check (by decide +kernel),
   by decide +kernel⟩

theorem witness_SkimSamples :
    (skimming id []).codeP = true ∧
    ([] : List FourCodes).length ≠ 2 * 2 ^ (skimming id []).skim.c ∧
    (List.replicate 64 ({ xi := 0, xq := 0, yi := 0, yq := 0 } : FourCodes)).length =
      2 * 2 ^ (skimming id []).skim.c ∧
    (skimming id []).skim.corrected = false ∧
    capturing (skimming id []).skim = false ∧
    capturing (skimming (fun k => { k with capture := .armed, index := 262143 }) []).skim = true ∧
    (skimming (fun k => { k with capture := .armed, index := 262143 }) []).skim.index < 262144 ∧
    MemoryCanonical (skimming (fun k => { k with capture := .armed, index := 262143 }) []) :=
  ⟨by decide +kernel, by decide +kernel, by decide +kernel, by decide +kernel, by decide +kernel,
   by decide +kernel, by decide +kernel, canonical_of_check (by decide +kernel)⟩

/-! ### Time -/

/-- The time counter as given, with commands. -/
def timed (f : Tim → Tim) (jobs : List Job) : State := (at' .standby jobs).onTim f

theorem witness_TimeCommands_config :
    (Taken 0x0501 4 0 (cmd 0x0501 [0x80080005, 0x00100008, 0, 0])
        (one .standby 0x0501 [0x80080005, 0x00100008, 0, 0]) ∧
      fld (0x80080005 : Word) 31 30 ≠ 3 ∧ 1 ≤ fld (0x80080005 : Word) 19 10 ∧
      fld (0x80080005 : Word) 19 10 ≤ 1000 ∧ 5 ≤ fld (0x80080005 : Word) 9 0 ∧
      fld (0x80080005 : Word) 9 0 ≤ 1000 ∧ 1 ≤ fld (0x00100008 : Word) 28 20 ∧
      fld (0x00100008 : Word) 28 20 ≤ 500 ∧ 8 ≤ fld (0x00100008 : Word) 19 0 ∧
      fld (0x00100008 : Word) 19 0 ≤ 1000000 ∧ fld (0 : Word) 31 16 ≤ 50000 ∧
      (signed 32 (0 : Word).toNat).natAbs ≤ 1000000 ∧
      2 * fld (0x80080005 : Word) 9 0 < 5 * fld (0x00100008 : Word) 19 0 ∧
      bit 0x80080005 25 = false) ∧
    (Taken 0x0501 4 0 (cmd 0x0501 [0xC0000000, 0, 0, 0]) (one .standby 0x0501 [0xC0000000, 0, 0, 0]) ∧
      fld (0xC0000000 : Word) 31 30 = 3) ∧
    role (timed id []) ≠ 2 := by
  refine ⟨⟨taken_of_check (by decide +kernel), by decide +kernel⟩,
    ⟨taken_of_check (by decide +kernel), by decide +kernel⟩, by decide +kernel⟩

theorem witness_TimeCommands_sets :
    (Taken 0x0502 4 0 (cmd 0x0502 [0, 0, 0xC9FF0000, 0x3B9A]) (one .standby 0x0502 [0, 0, 0xC9FF0000, 0x3B9A]) ∧
      bit 0 0 = false ∧ tripleNs (triple96 0 0xC9FF0000 0x3B9A) < 1000000000) ∧
    (Taken 0x0502 4 0 (cmd 0x0502 [1, 0, 0, 0]) (one .standby 0x0502 [1, 0, 0, 0]) ∧ bit 1 0 = true ∧
      captureEnabled (one .standby 0x0502 [1, 0, 0, 0]) = false) ∧
    (Taken 0x0502 4 0 (cmd 0x0502 [0, 0, 0xCA000000, 0x3B9A]) (one .standby 0x0502 [0, 0, 0xCA000000, 0x3B9A]) ∧
      1000000000 ≤ tripleNs (triple96 0 0xCA000000 0x3B9A)) ∧
    (Taken 0x0503 4 0 (cmd 0x0503 [0, 0, 0, 0]) (one .standby 0x0503 [0, 0, 0, 0]) ∧
      tripleNs (triple96 0 0 0) < 1000000000) ∧
    (Taken 0x0503 4 0 (cmd 0x0503 [1, 0, 0, 0])
        (timed (fun t => { t with adviceValid := true }) [cmd 0x0503 [1, 0, 0, 0]]) ∧
      (timed (fun t => { t with adviceValid := true }) []).tim.adviceValid = true) ∧
    (Taken 0x0503 4 0 (cmd 0x0503 [1, 0, 0, 0]) (one .standby 0x0503 [1, 0, 0, 0]) ∧
      (one .standby 0x0503 [1, 0, 0, 0]).tim.adviceValid = false) := by
  refine ⟨⟨taken_of_check (by decide +kernel), by decide +kernel⟩,
    ⟨taken_of_check (by decide +kernel), by decide +kernel⟩,
    ⟨taken_of_check (by decide +kernel), by decide +kernel⟩,
    ⟨taken_of_check (by decide +kernel), by decide +kernel⟩,
    ⟨taken_of_check (by decide +kernel), by decide +kernel⟩,
    ⟨taken_of_check (by decide +kernel), by decide +kernel⟩⟩

/-- An OP_TIME_PULSE of PPSOUT3 from time 0, with a mode, a period and a width. -/
def pulseWords (mode period width : Word) : List Word := [3 + 16 * mode, 0, 0, 0, period, 0, width]

/-- A period of 1,000 ns with the widest pulse, in each mode; then a mode, a nanoseconds field, a period and
a width out of range. -/
theorem witness_TimeCommands_pulse :
    (([0, 1, 2] : List Word).all fun m =>
      takenCheck 0x0504 7 0 (cmd 0x0504 (pulseWords m 1000 992))
        (timed (fun t => { t with valid := true }) [cmd 0x0504 (pulseWords m 1000 992)]) &&
      fld ((cmd 0x0504 (pulseWords m 1000 992)).param 0) 1 0 == 3 &&
      fld ((cmd 0x0504 (pulseWords m 1000 992)).param 0) 5 4 == m.toNat &&
      (timed (fun t => { t with valid := true }) []).tim.valid) ∧
    (pulseModeOf 0, pulseModeOf 1, pulseModeOf 2) = (.off, .once, .periodic) ∧
    tripleNs (triple96 0 0 0) < 1000000000 ∧
    takenCheck 0x0504 7 0 (cmd 0x0504 (pulseWords 3 1000 992)) (one .standby 0x0504 (pulseWords 3 1000 992)) = true ∧
    fld ((cmd 0x0504 (pulseWords 3 1000 992)).param 0) 5 4 = 3 ∧
    (takenCheck 0x0504 7 0 (cmd 0x0504 (pulseWords 1 1000 8)) (one .standby 0x0504 (pulseWords 1 1000 8)) = true ∧
      pulseModeOf 1 ≠ .off ∧ (one .standby 0x0504 []).tim.valid = false) ∧
    (takenCheck 0x0504 7 0 (cmd 0x0504 [3, 0, 0xCA000000, 0x3B9A, 1000, 0, 8])
        (one .standby 0x0504 [3, 0, 0xCA000000, 0x3B9A, 1000, 0, 8]) = true ∧
      1000000000 ≤ tripleNs (triple96 0 0xCA000000 0x3B9A)) ∧
    (takenCheck 0x0504 7 0 (cmd 0x0504 (pulseWords 0 999 8)) (one .standby 0x0504 (pulseWords 0 999 8)) = true ∧
      (999 : Word).toNat < 1000) ∧
    (takenCheck 0x0504 7 0 (cmd 0x0504 (pulseWords 0 1000 993)) (one .standby 0x0504 (pulseWords 0 1000 993)) = true ∧
      (1000 : Word).toNat < (993 : Word).toNat + 8) := by
  decide +kernel

/-- A set that waits, with its command. -/
def waiting (pulse : Bool) : PendingSet := { job := 0, kind := 0, value := 0, atPulse := pulse }
def setting (pulse : Bool) : State :=
  timed (fun t => { t with pendingSets := [waiting pulse] }) [{ cmd 0x0502 [] with stage := .running }]

/-- REFIN 7 takes pulses and is the capture's. -/
def capturingTime : State :=
  (timed (fun t => { t with config := 0x02E00000 }) []).onDpll fun d => { d with
    cand := [(7, { pulse := true, state := .qualified })] }

theorem witness_TimeCounterTicks :
    ((timed id []).codeS = true ∧ (timed id []).tim.pendingSets = [] ∧
      (timed id []).tim.basePending = false) ∧
    (timed (fun t => { t with basePending := true }) []).tim.basePending = true ∧
    ((setting false).tim.pendingSets = [waiting false] ∧ (waiting false).atPulse = false ∧
      findJob 0 (setting false) = some { cmd 0x0502 [] with stage := .running } ∧
      (setting false).tim.basePending = false) ∧
    (candAt capturingTime 7).pulse = true ∧ (candAt capturingTime 7).state ≠ .disabled ∧
    captureEnabled capturingTime = true ∧ captureRefin capturingTime = 7 ∧
    capturingTime.tim.pendingSets = [] ∧
    ((setting true).tim.pendingSets = [waiting true] ∧ (waiting true).atPulse = true ∧
      findJob 0 (setting true) = some { cmd 0x0502 [] with stage := .running } ∧
      ((setting true).evt.period - (waiting true).since).toNat < 500000000 ∧
      500000000 ≤ ((later 500000000 (setting true)).evt.period - (waiting true).since).toNat) ∧
    ((timed id []).tim.pendingSets.find? fun p => p.atPulse) = none ∧
    (let s := capturingTime.onTim fun t => { t with pendingSets := [waiting true] }
     captureEnabled s = true ∧ captureRefin s = 7 ∧ s.tim.pendingSets = [waiting true] ∧
     (waiting true).kind = 0 ∧
     findJob 0 (s.onCmd fun c => { c with jobs := [{ cmd 0x0502 [] with stage := .running }] }) =
       some { cmd 0x0502 [] with stage := .running }) ∧
    captureEnabled (timed id []) = false ∧ captureRefin capturingTime ≠ 6 ∧
    ((timed (fun t => { t with courses := [{ since := 0, value := 0, inc := 4 * 2 ^ 32 }] }) []).tim.courses =
      [{ since := 0, value := 0, inc := 4 * 2 ^ 32 }]) := by decide +kernel

/-- Pulse output 3 as given. -/
def pulsing (p : Pulse) : State := timed (fun t => { t with pulse := [(3, p)] }) []

theorem witness_TimedPulses :
    ((pulsing { mode := .once }).codeS = true ∧ (pulseAt (pulsing { mode := .once }) 3).mode ≠ .off ∧
      (pulseAt (pulsing { mode := .once }) 3).fired = false ∧
      (pulseAt (pulsing { mode := .once }) 3).next * 2 ^ 32 ≤ (pulsing { mode := .once }).tim.counter * 40) ∧
    ((pulseAt (pulsing { mode := .periodic, late := some 0 }) 3).late = some 0 ∧
      1 ≤ ((later 1 (pulsing { mode := .periodic, late := some 0 })).evt.period - 0).toNat ∧
      (pulsing { mode := .periodic, late := some 0 }).evt.period = 0) ∧
    (pulseAt (pulsing {}) 3).mode = .off ∧
    ((pulseAt (pulsing { mode := .once, next := 1 }) 3).late = none ∧
      (pulsing { mode := .once, next := 1 }).tim.counter * 40 <
        (pulseAt (pulsing { mode := .once, next := 1 }) 3).next * 2 ^ 32) ∧
    (pulseAt (pulsing { high := some 0 }) 3).high = some 0 ∧
    (pulseAt (pulsing { mode := .once, high := some 0, fired := true }) 3).fired = true ∧
    (pulseAt (pulsing { high := some 0 }) 3).fired = false ∧
    (pulseAt (pulsing { high := some 1 }) 3).high ≠ some 0 := by decide +kernel

/-- A follower with a servo state and its interval's frames. -/
def servoing (role : Word) (v : Servo) (f : Tim → Tim) : State :=
  timed (fun t => f { t with config := role, servo := v, valid := true, frames := 100000000 }) []

/-- A usable measurement of an offset, of the interval's first frame. -/
def offsetOnce (offset : Rat) : Meas := { offset := offset, delay := 5, far := true, index := 0 }

theorem witness_ServoIntervals :
    ((servoing 0 .off id).codeS = true ∧ intervalFrames (servoing 0 .off id) ≤
        (servoing 0 .off id).tim.frames ∧ role (servoing 0 .off id) ≠ 2) ∧
    (role (servoing 0x80000000 .tracking id) = 2 ∧
      intervalFrames (servoing 0x80000000 .tracking id) ≤ (servoing 0x80000000 .tracking id).tim.frames) ∧
    (timed id []).tim.frames < intervalFrames (timed id []) ∧
    (mean ([offsetOnce 0].map fun u => u.offset) = 0 ∧ (servoing 0x80000000 .tracking id).tim.valid = true ∧
      absRat 0 ≤ jumpThreshold (servoing 0x80000000 .tracking id) ∧
      (servoing 0x80000000 .tracking id).tim.servo ≠ .wait ∧
      (servoing 0x80000000 .tracking id).tim.servo ≠ .off) ∧
    (mean ([offsetOnce 101].map fun u => u.offset) = 101 ∧ (servoing 0x80000000 .locked id).tim.emptyRun < 63 ∧
      jumpThreshold (servoing 0x80000000 .locked id) < absRat 101 ∧
      (servoing 0x80000000 .locked id).tim.servo = .locked) ∧
    (servoing 0x80000000 .locked fun t => { t with spoiled := true }).tim.spoiled = true ∧
    (servoing 0x80000000 .wait id).tim.servo = .wait ∧ (servoing 0x80000000 .hold id).tim.servo ≠ .wait ∧
    (openRound ((2147483 : Rat) * 1000) ≤ 2147483647 ∧ 2147483647 < openRound ((2147484 : Rat) * 1000) ∧
      openRound (-(2147484 : Rat) * 1000) < -2147483648) := by
  decide +kernel

/-! ### References and the DPLL -/

/-- The DPLL as given, with commands. -/
def locking (f : Dpll → Dpll) (jobs : List Job) : State := (at' .standby jobs).onDpll f

theorem witness_DpllCommands_candidates :
    (Taken 0x0601 4 0 (cmd 0x0601 [0x207, 0, 0, 0]) (one .standby 0x0601 [0x207, 0, 0, 0]) ∧
      fld (0x207 : Word) 4 0 = 7 ∧ bit 0x207 9 = true ∧
      (one .standby 0x0601 [0x207, 0, 0, 0]).dpll.current ≠ some 7 ∧
      (one .standby 0x0601 [0x207, 0, 0, 0]).dpll.target ≠ some 7 ∧
      captureBound (one .standby 0x0601 [0x207, 0, 0, 0]) 7 = false) ∧
    (Taken 0x0601 4 0 (cmd 0x0601 [7, 800000000, 0x13881387, 0x27100258])
        (one .standby 0x0601 [7, 800000000, 0x13881387, 0x27100258]) ∧
      bit 7 9 = false ∧ bit 7 8 = false ∧ 1000 ≤ (800000000 : Word).toNat ∧
      1 ≤ fld (0x13881387 : Word) 15 0 ∧ fld (0x13881387 : Word) 31 16 ≤ 5000 ∧
      fld (0x13881387 : Word) 15 0 < fld (0x13881387 : Word) 31 16 ∧
      fld (0x27100258 : Word) 15 0 ≤ 600 ∧ 1 ≤ fld (0x27100258 : Word) 31 16 ∧
      fld (0x27100258 : Word) 31 16 ≤ 10000) ∧
    (Taken 0x0601 4 0 (cmd 0x0601 [26, 0, 0, 0]) (one .standby 0x0601 [26, 0, 0, 0]) ∧
      25 < fld (26 : Word) 4 0) ∧
    (Taken 0x0601 4 0 (cmd 0x0601 [0x207, 0, 0, 0])
        (locking (fun d => { d with current := some 7 }) [cmd 0x0601 [0x207, 0, 0, 0]]) ∧
      (locking (fun d => { d with current := some 7 }) []).dpll.current = some 7) ∧
    (Taken 0x0602 2 0 (cmd 0x0602 [0x1901, 3600]) (one .standby 0x0602 [0x1901, 3600]) ∧
      (3600 : Word).toNat ≤ 3600 ∧ fld (0x1901 : Word) 1 0 = 1 ∧ fld (0x1901 : Word) 12 8 ≤ 25 ∧
      ¬ fld (0x1901 : Word) 12 8 < 8) :=
  ⟨⟨taken_of_check (by decide +kernel), by decide +kernel⟩,
   ⟨taken_of_check (by decide +kernel), by decide +kernel⟩,
   ⟨taken_of_check (by decide +kernel), by decide +kernel⟩,
   ⟨taken_of_check (by decide +kernel), by decide +kernel⟩,
   ⟨taken_of_check (by decide +kernel), by decide +kernel⟩⟩

/-- REFIN 7 is a pulse input that has qualified or failed; output 7 is armed on it or not. -/
def aligning (st : RefState) (armed : Option Armed) (jobs : List Job) : State :=
  locking (fun d => { d with
    cand := [(7, { pulse := true, state := st })], out := [(7, { armed := armed })] }) jobs
def armedOn (c : Nat) : Armed := { job := 0, cand := c, offset := 0, set := {}, since := 0 }

/-- OP_DPLL_OUTPUT of output 7, aligned to candidate 7. -/
def alignWords : List Word := [0x3D07, 500000, 0, 0, 0]

theorem witness_DpllCommands_outputs :
    (Taken 0x0603 6 0 (cmd 0x0603 [100, 1000, 1000, 400, 0x271003E8, 0xA2710])
        (one .standby 0x0603 [100, 1000, 1000, 400, 0x271003E8, 0xA2710]) ∧
      fld (100 : Word) 6 0 = 100 ∧ fld (1000 : Word) 9 0 = 1000 ∧ fld (400 : Word) 8 0 = 400 ∧
      fld (0x271003E8 : Word) 15 0 = 1000 ∧ fld (0x271003E8 : Word) 31 16 = 10000 ∧
      fld (0xA2710 : Word) 15 0 = 10000 ∧ fld (0xA2710 : Word) 19 16 = 10) ∧
    (Taken 0x0604 5 0 (cmd 0x0604 [7, 1, 0, 0, 0]) (one .standby 0x0604 [7, 1, 0, 0, 0]) ∧
      fld (7 : Word) 2 0 = 7 ∧ bit 7 10 = false) ∧
    (Taken 0x0604 5 0 (cmd 0x0604 [0x203, 800000000, 2, 0, 0]) (one .standby 0x0604 [0x203, 800000000, 2, 0, 0]) ∧
      fld (0x203 : Word) 2 0 = 3 ∧ bit 0x203 10 = false ∧ bit 0x203 9 = true) ∧
    (Taken 0x0604 5 0 (cmd 0x0604 alignWords) (aligning .qualified none [cmd 0x0604 alignWords]) ∧
      bit 0x3D07 10 = true ∧ fld (0x3D07 : Word) 15 11 = 7 ∧ fld (0x3D07 : Word) 2 0 = 7 ∧
      (candAt (aligning .qualified none []) 7).pulse = true ∧
      (outAt (aligning .qualified none []) 7).armed = none ∧
      (candAt (aligning .qualified none []) 7).state ≠ .failed ∧
      (candAt (aligning .qualified none []) 7).state ≠ .disabled ∧
      (signed 37 0).natAbs ≤ 40000000000) ∧
    (Taken 0x0604 5 0 (cmd 0x0604 alignWords) (aligning .qualified (some (armedOn 7)) [cmd 0x0604 alignWords]) ∧
      (outAt (aligning .qualified (some (armedOn 7)) []) 7).armed ≠ none) ∧
    (Taken 0x0604 5 0 (cmd 0x0604 alignWords) (aligning .failed none [cmd 0x0604 alignWords]) ∧
      (candAt (aligning .failed none []) 7).state = .failed) :=
  ⟨⟨taken_of_check (by decide +kernel), by decide +kernel⟩,
   ⟨taken_of_check (by decide +kernel), by decide +kernel⟩,
   ⟨taken_of_check (by decide +kernel), by decide +kernel⟩,
   ⟨taken_of_check (by decide +kernel), by decide +kernel⟩,
   ⟨taken_of_check (by decide +kernel), by decide +kernel⟩,
   ⟨taken_of_check (by decide +kernel), by decide +kernel⟩⟩

/-- Candidates in use, bound to captures, beyond the REFINs, and of type PULSE. -/
def refCase (w0 w1 : Word) (f : State → State) : State := f (one .standby 0x0601 [w0, w1, 0x13881387, 0x27100258])
def refTaken (w0 w1 : Word) (f : State → State) : Bool :=
  takenCheck 0x0601 4 0 (cmd 0x0601 [w0, w1, 0x13881387, 0x27100258]) (refCase w0 w1 f)
def bound7 (s : State) : State := s.onTim fun t => { t with config := 0x2E00000 }
def known7 (s : State) : State := s.onDpll fun d => { d with
  cand := [(7, { state := .qualified, nominal := 10000000 })], current := some 7 }

theorem witness_DpllCommands_cases :
    ((refTaken 0x107 1 id && refTaken 25 0 id && refTaken 23 0 id && refTaken 7 10000001 known7 &&
      refTaken 0x107 1 bound7 && refTaken 0x207 0 bound7 && refTaken 0x108 0 id && refTaken 0x219 0 id &&
      refTaken 0x107 2 id && refTaken 7 999 id && refTaken 31 0 id) = true) ∧
    (bit 0x107 8 = true ∧ (1 : Word).toNat = 1 ∧ (candAt (refCase 0x107 1 id) 7).state = .disabled ∧
      (candAt (refCase 0x107 1 id) 7).pulse ≠ bit 0x107 8 ∧ captureBound (refCase 0x107 1 id) 7 = false) ∧
    (fld (25 : Word) 4 0 = 25 ∧ bit 25 8 = false ∧ bit 25 9 = false) ∧
    ((candAt (refCase 7 10000001 known7) 7).state = .qualified ∧
      (candAt (refCase 7 10000001 known7) 7).nominal ≠ 10000001 ∧
      (refCase 7 10000001 known7).dpll.current = some 7) ∧
    (captureBound (refCase 0x107 1 bound7) 7 = true ∧ (candAt (refCase 0x107 1 bound7) 7).pulse = false) ∧
    (fld (0x108 : Word) 4 0 = 8 ∧ bit 0x108 8 = true ∧ fld (0x219 : Word) 4 0 = 25 ∧ bit 0x219 9 = true) ∧
    ([true, false, true, true].contains false = true ∧ [true, true, true, true].contains false = false ∧
      ¬ (2 : Word).toNat = 1 ∧ ¬ 1000 ≤ (999 : Word).toNat) := by decide +kernel

theorem witness_DpllCommands_values :
    (takenCheck 0x0602 2 0 (cmd 0x0602 [0x1A01, 0]) (one .standby 0x0602 [0x1A01, 0]) = true ∧
      fld (0x1A01 : Word) 1 0 = 1 ∧ 25 < fld (0x1A01 : Word) 12 8) ∧
    (takenCheck 0x0602 2 0 (cmd 0x0602 [0x701, 0]) (one .standby 0x0602 [0x701, 0]) = true ∧
      fld (0x701 : Word) 12 8 = 7 ∧ (candAt (one .standby 0x0602 [0x701, 0]) 7).state = .disabled) ∧
    (takenCheck 0x0602 2 0 (cmd 0x0602 [0, 3601]) (one .standby 0x0602 [0, 3601]) = true ∧
      ¬ (3601 : Word).toNat ≤ 3600) ∧
    (takenCheck 0x0603 6 0 (cmd 0x0603 [100, 1000, 1000, 401, 0x271003E8, 0xA2710])
        (one .standby 0x0603 [100, 1000, 1000, 401, 0x271003E8, 0xA2710]) = true ∧
      ¬ fld (401 : Word) 8 0 ≤ 400) ∧
    (takenCheck 0x0604 5 0 (cmd 0x0604 [0x3D07, 500001, 0, 0, 0])
        (aligning .qualified none [cmd 0x0604 [0x3D07, 500001, 0, 0, 0]]) = true ∧
      ¬ (500001 : Word).toNat ≤ 500000) ∧
    (takenCheck 0x0604 5 0 (cmd 0x0604 [0x3507, 1, 0, 0, 0])
        (aligning .qualified none [cmd 0x0604 [0x3507, 1, 0, 0, 0]]) = true ∧
      bit 0x3507 10 = true ∧ fld (0x3507 : Word) 15 11 = 6 ∧
      (candAt (aligning .qualified none []) 6).pulse = false) ∧
    ((signed 37 (0x502F9000 + 9 * 2 ^ 32)).natAbs = 40000000000 ∧
      40000000000 < (signed 37 (0x502F9001 + 9 * 2 ^ 32)).natAbs) := by decide +kernel

/-- Output 3 runs at 10 MHz with its edges at a root time, or does not. -/
def running (x : ClkOut) : State := locking (fun d => { d with out := [(3, x)] }) []
def tenMHz : OutSet := { enable := true, freq := 10000000 }

theorem witness_DpllCommands_starts :
    tenMHz ≠ {} ∧
    ((outAt (running { set := tenMHz, next := some 5 }) 3).set.freq = tenMHz.freq ∧
      (outAt (running { set := tenMHz, next := some 5 }) 3).set.enable = true ∧
      (outAt (running { set := tenMHz, next := some 5 }) 3).next ≠ none) ∧
    ((outAt (running { set := { tenMHz with enable := false } }) 3).set.freq = tenMHz.freq ∧
      (outAt (running { set := { tenMHz with enable := false } }) 3).next = none) ∧
    (outAt (running {}) 3).set.freq ≠ tenMHz.freq := by decide +kernel

theorem witness_AlignmentAndNco_edges :
    0 < outPeriod (running { set := tenMHz, next := some 5 }) 3 ∧
    (outAt (runOutputs (running { set := tenMHz, next := some 5 })) 3).next = some 5 ∧
    (outAt (aligning .qualified (some { armedOn 7 with timed := true }) []) 7).armed =
      some { armedOn 7 with timed := true } := by decide +kernel

theorem witness_AlignmentAndNco :
    (outAt (aligning .qualified (some (armedOn 7)) []) 7).armed = some (armedOn 7) ∧
    (armedOn 7).cand = 7 ∧ (armedOn 7).cand ≠ 6 ∧ (outAt (aligning .qualified none []) 7).armed = none ∧
    ((locking id []).codeS = true ∧
      signed 40 (((0x74 : Word).toNat % 256) * 2 ^ 32 + (0x6A528800 : Word).toNat) = 500000000000 ∧
      signed 40 (((0x74 : Word).toNat % 256) * 2 ^ 32 + (0x6A528801 : Word).toNat) = 500000000001 ∧
      signed 40 (((0x8B : Word).toNat % 256) * 2 ^ 32 + (0x95AD7800 : Word).toNat) = -500000000000 ∧
      signed 40 (((0x8B : Word).toNat % 256) * 2 ^ 32 + (0x95AD77FF : Word).toNat) = -500000000001) ∧
    State.reset.codeS = false ∧
    ((aligning .qualified (some (armedOn 7)) []).evt.period - (armedOn 7).since).toNat < 500000000 ∧
    500000000 ≤ ((later 500000000 (aligning .qualified (some (armedOn 7)) [])).evt.period -
      (armedOn 7).since).toNat ∧
    (locking (fun d => { d with ncoWritten := 0x6A528801 }) []).dpll.ncoWritten = 0x6A528801 := by
  decide +kernel

/-- Candidate 7 at 10 MHz, or a pulse input with good intervals seen, in a state. -/
def candidate (st : RefState) (pulse : Bool) (gaps : Nat) : State :=
  locking (fun d => { d with
    cand := [(7, { state := st, valid := true, pulse := pulse, nominal := 10000000, pulseAt := some 0
                   gaps := List.replicate gaps 40000000000 })] }) []

theorem witness_ReferenceCandidates :
    (candidate .failed false 0).codeS = true ∧ (candAt (candidate .failed false 0) 7).state = .failed ∧
    (candAt (candidate .failed false 0) 7).pulse = false ∧
    (candAt (candidate .failed false 0) 7).valid = true ∧
    (candAt (candidate .qualifying false 0) 7).state = .qualifying ∧
    (candAt (candidate .qualified false 0) 7).state = .qualified ∧
    (candAt (candidate .suspect false 0) 7).state = .suspect ∧
    (candAt (candidate .disabled false 0) 7).state = .disabled ∧
    offsetOf (nominalHz (candidate .failed false 0) 7) 10000092 = 9200 ∧
    (9200 : Int).natAbs ≤ (candAt (candidate .qualified false 0) 7).accept.toNat * 100 ∧
    offsetOf (nominalHz (candidate .qualified false 0) 7) (10000000 - 12001 / 100) = -12001 ∧
    (candAt (candidate .qualified false 0) 7).reject.toNat * 100 < (-12001 : Int).natAbs ∧
    ((candAt (candidate .qualifying true 16) 7).pulse = true ∧
      (candAt (candidate .qualifying true 16) 7).gaps.length = 16 ∧
      (candAt (candidate .qualifying true 0) 7).qualTime.toNat * 250000000 ≤
        ((later 2500000000 (candidate .qualifying true 16)).evt.period -
          (candAt (candidate .qualifying true 16) 7).since).toNat) ∧
    ((candAt (candidate .qualifying true 15) 7).gaps.length < 16 ∧
      ((candidate .qualifying false 0).evt.period - (candAt (candidate .qualifying false 0) 7).since).toNat <
        (candAt (candidate .qualifying false 0) 7).qualTime.toNat * 250000000) := by decide +kernel

/-- A candidate read a while ago, TIMECLK with its rates, and a pulse run of fifteen good intervals. -/
def readAgo : State := locking (fun d => { d with cand := [(7, { state := .failed, readAt := some 0 })] }) []
def timeClock : State :=
  locking (fun d => { d with cand := [(25, { state := .qualified, rates := List.replicate 100 250000000 })] }) []

theorem witness_ReferenceCandidates_readings :
    ((candAt readAgo 7).readAt = some 0 ∧ 250000 ≤ ((later 250000 readAgo).evt.period - 0).toNat ∧
      ((later 249999 readAgo).evt.period - 0).toNat < 250000) ∧
    ((candAt timeClock 25).pulse = false ∧
      ((ownHz timeClock 25 :: (candAt timeClock 25).rates).take 100).length = 100 ∧
      offsetOf (nominalHz timeClock 25)
        (mean ((ownHz timeClock 25 :: (candAt timeClock 25).rates).take 100)) = 0) ∧
    ((candAt (candidate .qualified true 16) 7).pulseAt = some 0 ∧
      15 ≤ (candAt (candidate .qualified true 16) 7).gaps.length ∧
      nearest ((640000000000 : Rat) / ((List.replicate 16 40000000000).sum : Nat) * 1000000000 - 1000000000) = 0) ∧
    40000000000 + (candAt (candidate .qualified true 0) 7).window.toNat * 400000 < 40004000001 - 0 := by
  decide +kernel

/-- An interval at the end of PULSE_WINDOW, one before it and one after it (R296). -/
theorem witness_ReferenceCandidates_pulses :
    ((candAt (candidate .qualifying true 14) 7).pulseAt = some 0 ∧
      (candAt (candidate .qualifying true 14) 7).gaps.length < 15 ∧
      39996000000 - 0 + (candAt (candidate .qualifying true 14) 7).window.toNat * 400000 = 40000000000 ∧
      40004000000 - 0 = 40000000000 + (candAt (candidate .qualifying true 14) 7).window.toNat * 400000 ∧
      39995999999 - 0 + (candAt (candidate .qualifying true 14) 7).window.toNat * 400000 < 40000000000) ∧
    0 + 40000000000 + (candAt (candidate .qualified true 0) 7).window.toNat * 400000 <
      (later 250025001 (candidate .qualified true 0)).evt.period.toNat * 160 := by decide +kernel

/-- The DPLL in a state, with candidate 23 qualified and valid, and LINECLK and a pulse input beside it. -/
def phased (st : DpllState) (f : Dpll → Dpll) : State :=
  locking (fun d => f { d with
    state := st, cand := [(7, { pulse := true }), (23, { state := .qualified, valid := true, priority := 1 })] }) []

/-- Every candidate has failed. -/
def noCandidate : State :=
  locking (fun d => { d with cand := (List.range 26).map fun i => (i, { state := .failed }) }) []

theorem witness_DpllStates :
    (phased .freerun id).codeS = true ∧ (phased .freerun id).dpll.evalAt = none ∧
    ((phased .freerun fun d => { d with evalAt := some 0 }).dpll.evalAt = some 0 ∧
      ((later 249999 (phased .freerun id)).evt.period - 0).toNat < 250000 ∧
      250000 ≤ ((later 250000 (phased .freerun id)).evt.period - 0).toNat) ∧
    (phased .locked fun d => { d with mode := .nco }).dpll.mode = .nco ∧
    ((phased .locked fun d => { d with mode := .forcedHoldover }).dpll.mode = .forcedHoldover ∧
      (phased .locked fun d => { d with mode := .forcedHoldover }).dpll.state = .locked) ∧
    ((phased .freerun id).dpll.current = none ∧ (phased .freerun id).dpll.mode = .auto ∧
      (phased .freerun id).dpll.state ≠ .switching ∧ wanted (phased .freerun id) = some 23) ∧
    (noCandidate.dpll.current = none ∧ noCandidate.dpll.mode = .auto ∧ wanted noCandidate = none) ∧
    ((phased .locked id).dpll.state ≠ .holdover ∧ (phased .locked id).dpll.state ≠ .freerun) := by
  decide +kernel

/-- TIMECLK measured, as the current input or as a switch's target. -/
theorem witness_DpllStates_timeclk :
    Machine.measured (phased .locked fun d => { d with current := some 25 }).dpll = some 25 ∧
    Machine.measured (phased .switching fun d => { d with current := some 7, target := some 25 }).dpll = some 25 ∧
    Machine.measured (phased .locked fun d => { d with current := some 23 }).dpll ≠ some 25 ∧
    (phased .freerun fun d => { d with evalAt := some 0 }).dpll.evalAt = some 0 := by decide +kernel

theorem witness_DpllStates_switching :
    (∀ k ∈ [7, 23, 24], (phased .switching fun d => { d with target := some k }).dpll.state = .switching ∧
      (phased .switching fun d => { d with target := some k }).dpll.target = some k) ∧
    ((candAt (phased .switching id) 7).pulse = true ∧
      3 ≤ (phased .switching fun d => { d with settlePulses := 3 }).dpll.settlePulses ∧
      (phased .switching fun d => { d with settlePulses := 2 }).dpll.settlePulses < 3) ∧
    ((candAt (phased .switching id) 23).pulse = false ∧
      25000000 ≤ ((later 25000000 (phased .switching id)).evt.period - (phased .switching id).dpll.settleAt).toNat ∧
      ((later 24999999 (phased .switching id)).evt.period - (phased .switching id).dpll.settleAt).toNat <
        25000000) ∧
    ((candAt (phased .switching id) 24).pulse = false ∧
      2500000 ≤ ((later 2500000 (phased .switching id)).evt.period - (phased .switching id).dpll.settleAt).toNat ∧
      ((later 2499999 (phased .switching id)).evt.period - (phased .switching id).dpll.settleAt).toNat <
        2500000) := by decide +kernel

theorem witness_DpllStates_locking :
    ((phased .acquire fun d => { d with current := some 23 }).dpll.state = .acquire ∧
      (500000000 : Rat) ≤ ((later 500000000 (phased .acquire id)).evt.period -
        (phased .acquire id).dpll.lockFrom).toNat * (loopSettings (phased .acquire id) 23).1 ∧
      (((later 499999999 (phased .acquire id)).evt.period -
        (phased .acquire id).dpll.lockFrom).toNat : Rat) * (loopSettings (phased .acquire id) 23).1 < 500000000) ∧
    ((phased .locked fun d => { d with current := some 23 }).dpll.current = some 23 ∧
      4 * (loopSettings (phased .locked id) 23).2.2 <
        (phased .locked fun d => { d with phase := -4001 }).dpll.phase.natAbs ∧
      (phased .locked fun d => { d with phase := 4000 }).dpll.phase.natAbs ≤
        4 * (loopSettings (phased .locked id) 23).2.2) ∧
    ((phased .locked id).dpll.sampledAt = none ∧
      guarded (later 500000000 (phased .locked fun d => { d with trail := [(0, 3, true)] })) = some (3, true) ∧
      guarded (later 500000000 (phased .locked fun d => { d with trail := [(0, 3, false)] })) = some (3, false) ∧
      guarded (later 499999999 (phased .locked fun d => { d with trail := [(0, 3, true)] })) = none ∧
      ((phased .locked id).evt.period - 0).toNat < 250000000) := by decide +kernel

/-! ### Power, boot and modes -/

/-- The power part as given. -/
def powered (m : Mode) (f : Pwr → Pwr) (jobs : List Job) : State := (at' m jobs).onPwr f

/-- OP_RESET's completion was written at period 0. -/
def written : State := (at' .standby []).onCmd fun c => { c with resetWritten := true }

/-- A published AVS target, changed at period 0. -/
def avs (target : BitVec 10) : State :=
  powered .standby (fun p => { p with avsValid := true, avsTarget := target, avsAt := some 0 }) []

theorem witness_ResetsAndMonitors :
    (written.cmd.resetWritten = true ∧ 2500 ≤ ((later 2500 written).evt.period - written.cmd.resetAt).toNat ∧
      ((later 2499 written).evt.period - written.cmd.resetAt).toNat < 2500) ∧
    (at' .standby []).cmd.resetWritten = false ∧
    (nearTrip #v[680, 2000, 2000, 2000, 2000, 2000, 2000, 2000, 2000, 2000] = true ∧
      nearTrip #v[681, 2000, 2000, 2000, 2000, 2000, 2000, 2000, 2000, 1610] = true ∧
      nearTrip #v[681, 2000, 2000, 2000, 2000, 2000, 2000, 2000, 2000, 1611] = false) ∧
    (∀ v ∈ [700, 800], (avs v).pwr.avsValid = true ∧ 700 ≤ (avs v).pwr.avsTarget.toNat ∧
      (avs v).pwr.avsTarget.toNat ≤ 800 ∧ (avs v).pwr.avsAt = some 0 ∧
      ((later 24999999 (avs v)).evt.period - 0).toNat < 25000000 ∧
      25000000 ≤ ((later 25000000 (avs v)).evt.period - 0).toNat) ∧
    (at' .standby []).pwr.avsValid = false := by decide +kernel

/-- A header whose form, length and security version are right, with a given length and version. -/
def header (length security : Nat) : List Byte :=
  [0x5A, 0x4C, 0x56, 0x59, 1, 0, 0, 0, 7, 0, 0, 0, BitVec.ofNat 8 security, 0, 0, 0,
   BitVec.ofNat 8 length, 0, 0, 0] ++ List.replicate 4076 0

/-- The fuses are as high as they go. -/
def fused (m : Mode) : State :=
  powered m (fun p => { p with fusedAdvance := 32, bootOrder := [.slotB], verified := none }) []

theorem fused_minimum (m : Mode) : fusedMinimum (fused m) = 32 := by
  have : (fused m).pwr.fusedAdvance = 32 := rfl
  rw [fusedMinimum, this]
  omega

/-- A verified image waits for BOOT_COMPLETE. -/
def verified : State :=
  powered .boot (fun p => { p with verified := some (imageOf .slotA (header 16 32) []) }) []

theorem witness_BootSequence :
    (State.reset.pwr.mode = .reset ∧ State.reset.pwr.tripped = false) ∧
    ((powered .reset (fun p => { p with tripped := true, thermalWarn := true }) []).pwr.tripped = true ∧
      (powered .reset (fun p => { p with tripped := true, thermalWarn := true }) []).pwr.thermalWarn = true ∧
      (powered .reset (fun p => { p with tripped := true }) []).pwr.thermalWarn = false) ∧
    (fused .boot).pwr.mode = .boot ∧ (fused .boot).pwr.verified = none ∧
    (fused .boot).pwr.bootOrder = .slotB :: [] ∧
    ((powered .boot (fun p => { p with bootOrder := [.slotA, .slotB] }) []).pwr.bootOrder = .slotA :: [.slotB]) ∧
    imageFail (fused .boot) (readImage .slotB .headerError (fused .boot)) ≠ 0 ∧
    imageFail (fused .boot) (readImage .slotB .whole (fused .boot)) ≠ 0 ∧
    ((header 16 31).length = 4096 ∧ formOk (header 16 31) = true ∧
      lengthOk (headerField (header 16 31) 16 4) = true ∧ headerField (header 16 31) 12 4 = 31) ∧
    headerField (header 17 32) 16 4 % 16 ≠ 0 ∧ formOk (List.replicate 4096 0) = false ∧
    (verified.pwr.mode = .boot ∧ verified.pwr.verified = some (imageOf .slotA (header 16 32) []) ∧
      pinsAsserted verified = false) ∧
    4096 ≤ (slotBytes .slotA (setSlot .slotA (header 16 32) verified)).length ∧
    (at' .ready []).pwr.mode ≠ .boot := by
  decide +kernel

theorem witness_BootSequence_version : headerField (header 16 31) 12 4 < fusedMinimum (fused .boot) := by
  rw [fused_minimum]
  decide +kernel

/-- An image passes when its key's digest is the fused one and its signature verifies, which no
fixed image can be shown to do while the fused digests stay open. -/
theorem witness_image_passes (r : ImageRead) (hl : r.header.length = 4096) (hf : formOk r.header = true)
    (hn : lengthOk (headerField r.header 16 4) = true) (hv : headerField r.header 12 4 = 32)
    (hk : sha384 (signingKey r.header) = Config.keyDigest false) (hr : r.readOk = true)
    (hb : headerField r.header 16 4 ≤ r.body.length)
    (hs : signatureOk r.header (r.body.take (headerField r.header 16 4)) = true) :
    imageFail (fused .boot) r = 0 := by
  have h5 : headerFail (fused .boot) r.header = 0 := by
    simp [headerFail, hf, hn, hv, hk, fused_minimum]
  simp [imageFail, hl, h5, hr, hs, Nat.not_lt.2 hb]

/-- A load of which the body is still to come. -/
def begun : Load := { header := header 16 0, body := [], bodyLength := 16 }

theorem witness_BootSequence_load :
    ∃ l, ((at' .boot []).onCmd fun c => { c with load := some begun }).cmd.load = some l ∧
      l.body.length < l.bodyLength :=
  ⟨begun, rfl, by decide⟩

/-- A firmware command with a pointer. -/
def pointing (op : Nat) (ps : List Word) : Job := { cmd op ps with pointer := true }

theorem witness_FirmwareAndSelfTests :
    (Taken 0x0901 1 0 (cmd 0x0901 [1]) (one .standby 0x0901 [1]) ∧ bit 1 0 = true ∧
      (cmd 0x0901 [1]).pointer = false) ∧
    (Taken 0x0901 1 0 (pointing 0x0901 [1])
        (powered .standby (fun p => { p with image := some (imageOf .slotB (header 16 32) []) })
          [pointing 0x0901 [1]]) ∧
      ((powered .standby (fun p => { p with image := some (imageOf .slotB (header 16 32) []) })
          []).pwr.image.map fun i => i.source) = some (slotOf true)) ∧
    (Taken 0x0901 1 0 (pointing 0x0901 [0]) (at' .standby [pointing 0x0901 [0]]) ∧
      (pointing 0x0901 [0]).pointer = true ∧ (pointing 0x0901 [0]).priv = 0 ∧
      ((at' .standby [pointing 0x0901 [0]]).pwr.image.map fun i => i.source) ≠ some (slotOf false) ∧
      imageFail (at' .standby [pointing 0x0901 [0]]) (stagedImage (pointing 0x0901 [0])) ≠ 0) ∧
    ((powered .standby (fun p => { p with staging := [(0, true, [])] }) []).pwr.staging = (0, true, []) :: []) ∧
    (at' .standby []).pwr.staging = [] ∧
    (Taken 0x0902 1 0 (cmd 0x0902 [2]) (one .standby 0x0902 [2]) ∧ bit 2 1 = true ∧
      (cmd 0x0902 [2]).priv = 0 ∧
      imageFail (one .standby 0x0902 [2]) (readImage (slotOf (bit 2 0)) .bodyError (one .standby 0x0902 [2])) ≠ 0) ∧
    (Taken 0x0810 1 0 (cmd 0x0810 [31]) (one .maintenance 0x0810 [31]) ∧
      (31 : Word).extractLsb' 0 5 ≠ 0 ∧ (one .maintenance 0x0810 [31]).skim.capture ≠ .armed ∧
      (one .maintenance 0x0810 [31]).skim.capture ≠ .triggered) ∧
    (Taken 0x0810 1 0 (cmd 0x0810 [32]) (one .maintenance 0x0810 [32]) ∧
      (32 : Word).extractLsb' 0 5 = 0) ∧
    (Taken 0x0810 1 0 (cmd 0x0810 [8])
        ((one .maintenance 0x0810 [8]).onSkim fun k => { k with capture := .armed }) ∧
      ((8 : Word).extractLsb' 0 5).getLsbD 3 = true) ∧
    ((powered .maintenance (fun p => { p with bist := [(0, 31)] })
        [{ cmd 0x0810 [31] with stage := .working, committed := true }]).pwr.bist = (0, 31) :: [] ∧
      findJob 0 (powered .maintenance (fun p => { p with bist := [(0, 31)] })
        [{ cmd 0x0810 [31] with stage := .working, committed := true }]) =
        some { cmd 0x0810 [31] with stage := .working, committed := true }) :=
  ⟨⟨taken_of_check (by decide +kernel), by decide +kernel⟩,
   ⟨taken_of_check (by decide +kernel), by decide +kernel⟩,
   ⟨taken_of_check (by decide +kernel), by decide +kernel⟩, by decide +kernel, by decide +kernel,
   ⟨taken_of_check (by decide +kernel), by decide +kernel⟩,
   ⟨taken_of_check (by decide +kernel), by decide +kernel⟩,
   ⟨taken_of_check (by decide +kernel), by decide +kernel⟩,
   ⟨taken_of_check (by decide +kernel), by decide +kernel⟩, by decide +kernel⟩

/-- OP_MODE_SET in a mode, with the power part as given. -/
def moding (m : Mode) (n : Word) (f : Pwr → Pwr) : State := powered m f [cmd 0x0103 [n]]

theorem witness_ModeCommands :
    (Taken 0x0103 1 0 (cmd 0x0103 [5]) (moding .ready 5 id) ∧ targetMode 5 = none) ∧
    (Taken 0x0103 1 0 (cmd 0x0103 [3]) (moding .ready 3 id) ∧
      targetMode 3 = some (moding .ready 3 id).pwr.mode) ∧
    (Taken 0x0103 1 0 (cmd 0x0103 [4]) (moding .standby 4 id) ∧ targetMode 4 = some .acquire ∧
      Mode.acquire ≠ (moding .standby 4 id).pwr.mode ∧ listed .standby .acquire = false) ∧
    (Taken 0x0103 1 0 (cmd 0x0103 [2]) (moding .ready 2 fun p => { p with starting := true }) ∧
      targetMode 2 = some .standby ∧ listed .ready .standby = true ∧
      (moding .ready 2 fun p => { p with starting := true }).pwr.starting = true) ∧
    ([(Mode.ready, 4), (.ready, 6), (.ready, 2), (.standby, 3), (.acquire, 3), (.traffic, 3),
      (.maintenance, 3)].all fun x =>
        takenCheck 0x0103 1 0 (cmd 0x0103 [word x.2]) (moding x.1 (word x.2) id) &&
          fld (word x.2) 2 0 == x.2 && !(moding x.1 (word x.2) id).pwr.starting &&
          (moding x.1 (word x.2) id).pwr.windDown.isNone) ∧
    (Taken 0x0104 0 0 (cmd 0x0104 [])
        (at' .ready [cmd 0x0104 [], target 0x0501 .running]) ∧
      findJob 1 (at' .ready [cmd 0x0104 [], target 0x0501 .running]) = some (target 0x0501 .running) ∧
      (target 0x0501 .running).stage ≠ .decided ∧ (target 0x0501 .decided).stage = .decided ∧
      (target 0x0501 .running).committed = false ∧
      ({ target 0x0501 .working with committed := true } : Job).committed = true ∧
      (at' .ready [cmd 0x0104 []]).pwr.pRunning = true ∧
      (at' .ready [cmd 0x0104 []]).pwr.windDown = none ∧ (at' .standby [cmd 0x0104 []]).pwr.pRunning = false) ∧
    JobIdsFresh (at' .ready [cmd 0x0104 [], target 0x0501 .running]) :=
  ⟨⟨taken_of_check (by decide +kernel), by decide +kernel⟩,
   ⟨taken_of_check (by decide +kernel), by decide +kernel⟩,
   ⟨taken_of_check (by decide +kernel), by decide +kernel⟩,
   ⟨taken_of_check (by decide +kernel), by decide +kernel⟩, by decide +kernel,
   ⟨taken_of_check (by decide +kernel), by decide +kernel⟩, ⟨by decide +kernel, by decide +kernel⟩⟩

/-- A wind-down, with the OP_MODE_SET that started it. -/
def winding (w : WindDown) : State :=
  powered .ready (fun p => { p with windDown := some w, modeJob := some 0 })
    [{ cmd 0x0103 [2] with stage := .working, committed := true }]

/-- A start-up that began at period 0, with DEV_START as given. -/
def starting (w : Word) : State :=
  powered .ready (fun p => { p with starting := true, start := w, modeJob := some 0 }) []

theorem witness_StartUpAndWindDown :
    (powered .ready (fun p => { p with readyEntryDue := true, pRunning := false }) []).pwr.readyEntryDue = true ∧
    (at' .ready []).pwr.readyEntryDue = false ∧ (at' .ready []).pwr.pRunning = true ∧
    ((starting 0xFF00).pwr.starting = true ∧ (starting 0xFF00).codeP = true ∧
      (starting 0xFF00).pwr.modeJob = some 0 ∧
      bit (starting 0xFF00).pwr.start (16 + 7) = false ∧ fld (starting 0xFF00).pwr.start 15 8 = 255 ∧
      fld (starting 0x7F00).pwr.start 15 8 ≠ 255 ∧
      ((later 437499 (starting 0)).evt.period - (starting 0).pwr.readyAt).toNat < 62500 * 7 ∧
      62500 * 7 ≤ ((later 437500 (starting 0)).evt.period - (starting 0).pwr.readyAt).toNat ∧
      ((later 174999 (starting 0)).evt.period - (starting 0).pwr.readyAt).toNat < 25000 * 7 ∧
      25000 * 7 ≤ ((later 175000 (starting 0)).evt.period - (starting 0).pwr.readyAt).toNat) ∧
    (at' .ready []).pwr.starting = false ∧
    ((powered .ready (fun p => { p with start := 0x80 }) []).codeP = true ∧ bit 0x80 7 = true ∧
      converterLocked (powered .ready (fun p => { p with start := 0x80 }) []) 7 = false ∧
      converterLocked ((powered .ready (fun p => { p with start := 0x80 }) []).onRx fun r =>
        { r with adcLocked := true }) 7 = true) ∧
    ((winding .output).pwr.windDown = some .output ∧ (winding .output).tx.out = .quiet ∧
      (winding .output).tx.hooks = none) ∧
    ((winding .output).onTx fun t => { t with out := .rampDown }).tx.out ≠ .quiet ∧
    (∀ n ∈ [24, 23, 1], (winding (.units n)).pwr.windDown = some (.units n) ∧
      stopDue n (later 437500 (winding (.units n))) = true) ∧
    stopDue 23 (winding (.units 23)) = false := by decide +kernel

theorem witness_StartUpAndWindDown_standby :
    ((winding .unitsStopped).pwr.windDown = some .unitsStopped ∧ (winding .unitsStopped).cmd.resetJob = none ∧
      ((later 449999 (winding .unitsStopped)).evt.period - (winding .unitsStopped).pwr.windAt).toNat < 450000 ∧
      450000 ≤ ((later 450000 (winding .unitsStopped)).evt.period - (winding .unitsStopped).pwr.windAt).toNat ∧
      (winding .unitsStopped).pwr.modeJob = some 0 ∧
      findJob 0 (winding .unitsStopped) =
        some { cmd 0x0103 [2] with stage := .working, committed := true } ∧
      (winding .unitsStopped).frm.switch = none ∧ (winding .unitsStopped).rx.pend = [] ∧
      (winding .unitsStopped).dec.cfgPend = [] ∧ (winding .unitsStopped).dec.sharesPend = [] ∧
      (∀ g, g < 12 → (memGrp (winding .unitsStopped) g).pass = none)) ∧
    ((winding .unitsStopped).onCmd fun c => { c with resetJob := some 0 }).cmd.resetJob = some 0 ∧
    (winding .output).pwr.windDown ≠ some .unitsStopped := by decide +kernel

/-! ### Maps and frames -/

/-- Words from a key on, before the rest of a table. -/
def run : Nat → List Word → Tab MemCell → Tab MemCell
  | _, [], rest => rest
  | k, w :: l, rest => (k, { valid := true, data := w.setWidth 128 }) :: run (k + 1) l rest

theorem tabGet_run_past (x : Nat) (rest : Tab MemCell) : ∀ (l : List Word) (k : Nat), k + l.length ≤ x →
    tabGet {} (run k l rest) x = tabGet {} rest x
  | [], _, _ => rfl
  | w :: l, k, h => by
    have h' : k + 1 + l.length ≤ x := by simp only [List.length_cons] at h; omega
    have h1 : k ≠ x := by omega
    have h2 : ¬ x < k := by omega
    simp only [run, tabGet, h1, h2, if_false]
    exact tabGet_run_past x rest l (k + 1) h'

theorem tabGet_run (rest : Tab MemCell) : ∀ (l : List Word) (k i : Nat), i < l.length →
    tabGet {} (run k l rest) (k + i) = { valid := true, data := (l.getD i 0).setWidth 128 }
  | w :: l, k, 0, _ => by simp [run, tabGet]
  | w :: l, k, i + 1, h => by
    have h1 : k ≠ k + (i + 1) := by omega
    have h2 : ¬ k + (i + 1) < k := by omega
    have h3 : k + (i + 1) = k + 1 + i := by omega
    simp only [run, tabGet, h1, h2, if_false, List.getD_cons_succ]
    rw [h3]
    exact tabGet_run rest l (k + 1) i (by simpa using h)

/-- The 0.4T preset's plain map, as map A or B may hold it. -/
def small : Profile := presetProfile 6
def plain : List Word := mapHeader small 82 ++ plainRows 80
def stored (b : Bool) (words : List Word) (rest : Tab MemCell) : Tab MemCell :=
  run (memKey (mapGroup b) 0) words rest

/-- Both maps hold the plain map; A is in use. -/
def mapped (jobs : List Job) : State :=
  { at' .traffic jobs with
    prof := small, mem := { State.reset.mem with cells := stored false plain (stored true plain []) } }

/-- A switch to map B that waits for its superframe. -/
def switching (opened : Bool) (jobs : List Job) : State :=
  (mapped jobs).onFrm fun f => { f with switch := some { job := 0, target := true, opened := opened } }

/-- The last good frame named map B. -/
def mapReceived (jobs : List Job) : State := (mapped jobs).onFrm fun f => { f with rxNamed := some true }

/-- OP_LINE_PROFILE with explicit parameters. -/
def explicit : Job := cmd 0x0201 (1080 :: 0x701E0 :: List.replicate 16 0x44444444)

theorem witness_MapCommands_profile :
    (Taken 0x0201 1 0 (cmd 0x0201 [0x6000]) (one .ready 0x0201 [0x6000]) ∧ fld (0x6000 : Word) 14 12 = 6 ∧
      0 ≤ frameFill (presetProfile 6) ((presetProfile 6).slots / 20) ∧
      (one .ready 0x0201 [0x6000]).frm.switch = none ∧
      (presetProfile 6).rate ≠ (one .ready 0x0201 [0x6000]).prof.rate) ∧
    (Taken 0x0201 1 0 (cmd 0x0201 [0x1000]) (one .ready 0x0201 [0x1000]) ∧
      0 ≤ frameFill (presetProfile 1) ((presetProfile 1).slots / 20) ∧
      (presetProfile 1).rate = (one .ready 0x0201 [0x1000]).prof.rate) ∧
    (Taken 0x0201 1 0 explicit (at' .ready [explicit]) ∧ fld (explicit.param 0) 14 12 = 0 ∧
      explicitFault explicit = none ∧
      0 ≤ frameFill (explicitProfile explicit) ((explicitProfile explicit).slots / 20)) ∧
    (Taken 0x0201 1 0 (cmd 0x0201 [0x1000]) ((one .ready 0x0201 [0x1000]).onFrm fun f =>
        { f with switch := some { job := 1, target := true } }) ∧
      ((one .ready 0x0201 [0x1000]).onFrm fun f =>
        { f with switch := some { job := 1, target := true } }).frm.switch ≠ none) ∧
    (Taken 0x0201 1 0 (cmd 0x0201 [0x7000]) (one .ready 0x0201 [0x7000]) ∧ fld (0x7000 : Word) 14 12 = 7) :=
  ⟨⟨taken_of_check (by decide +kernel), by decide +kernel⟩,
   ⟨taken_of_check (by decide +kernel), by decide +kernel⟩,
   ⟨taken_of_check (by decide +kernel), by decide +kernel⟩,
   ⟨taken_of_check (by decide +kernel), by decide +kernel⟩,
   ⟨taken_of_check (by decide +kernel), by decide +kernel⟩⟩

/-- OP_MAP_LOAD of the plain map into A or B. -/
def loading (b : Word) : Job := cmd 0x0310 (b :: plainRows 80)

theorem plain_valid : mapValid small (mapWords small (plainRows 80)) = true := by decide +kernel

theorem witness_MapCommands_load :
    (Taken 0x0310 1 0 (loading 1) (mapped [loading 1]) ∧ bit ((loading 1).param 0) 0 = true ∧
      2 ≤ (plainRows 80).length ∧ (plainRows 80).length ≤ 1006 ∧
      (mapped []).frm.txMap ≠ true ∧
      (mapped [loading 1]).frm.rxNamed ≠ some true ∧ switchTarget (mapped [loading 1]) ≠ some true) ∧
    (Taken 0x0310 1 0 (loading 0) (mapped [loading 0]) ∧ (mapped [loading 0]).frm.txMap = false ∧
      poisonPresent (mapped [loading 0]) (mapGroup false) = false) ∧
    (Taken 0x0310 1 0 (loading 1) (mapReceived [loading 1]) ∧
      (mapReceived [loading 1]).frm.rxNamed = some true ∧
      poisonPresent (mapReceived [loading 1]) (mapGroup true) = false) ∧
    (Taken 0x0310 1 0 (loading 1) (switching false [loading 1]) ∧
      switchTarget (switching false [loading 1]) = some true) ∧
    (Taken 0x0310 1 0 (cmd 0x0310 [1, 0, 0]) (mapped [cmd 0x0310 [1, 0, 0]]) ∧
      mapValid small (mapWords small [0, 0]) = false) ∧
    (mapWords small (plainRows 80)).length = 1024 :=
  ⟨⟨taken_of_check (by decide +kernel), by decide +kernel⟩,
   ⟨taken_of_check (by decide +kernel), by decide +kernel⟩,
   ⟨taken_of_check (by decide +kernel), by decide +kernel⟩,
   ⟨taken_of_check (by decide +kernel), by decide +kernel⟩,
   ⟨taken_of_check (by decide +kernel), by decide +kernel⟩, by decide +kernel⟩

/-- The first row that breaks R55, the first one, and a map of good rows that leaves a slot without one. -/
theorem witness_MapCommands_rows :
    (rowOffends small.slots [0, 0] 0 = true ∧ (0 : Nat) < ([0, 0] : List Word).length) ∧
    (takenCheck 0x0310 1 0 (cmd 0x0310 [1, ohRow, endRow]) (mapped [cmd 0x0310 [1, ohRow, endRow]]) = true ∧
      mapValid small (mapWords small [ohRow, endRow]) = false ∧
      rowOffends small.slots [ohRow, endRow] 0 = false ∧ rowOffends small.slots [ohRow, endRow] 1 = false) ∧
    (mapValid small (mapWords small [ohRow, 0x200003FF, endRow]) = false ∧
      rowOffends small.slots [ohRow, 0x200003FF, endRow] 0 = false ∧
      rowOffends small.slots [ohRow, 0x200003FF, endRow] 1 = true) := by decide +kernel

/-- OP_MAP_SWITCH to map B, and the same with B's first row poisoned or B never written. -/
def toB : Job := cmd 0x0311 [1]
def poisonedB : State := setCell 8 18 { valid := true, poison := true } (mapped [toB])
def emptyB : State := { mapped [toB] with mem := { State.reset.mem with cells := stored false plain [] } }

theorem plain_length : plain.length = 100 := by decide +kernel

theorem cell_plain (i : Nat) (h : i < 100) : cellAt (mapped [toB]) 8 i =
    { valid := true, data := (plain.getD i 0).setWidth 128 } := by
  have : cellAt (mapped [toB]) 8 i = tabGet {} (stored false plain (stored true plain [])) (memKey 8 0 + i) := rfl
  rw [this, stored, tabGet_run_past _ _ plain _ (by rw [plain_length]; simp [memKey, mapGroup]; omega)]
  exact tabGet_run [] plain (memKey 8 0) i (by rw [plain_length]; exact h)

theorem cell_after (i : Nat) (h : 100 ≤ i) : cellAt (mapped [toB]) 8 i = {} := by
  have : cellAt (mapped [toB]) 8 i = tabGet {} (stored false plain (stored true plain [])) (memKey 8 0 + i) := rfl
  rw [this, stored, tabGet_run_past _ _ plain _ (by rw [plain_length]; simp [memKey, mapGroup]; omega),
    stored, tabGet_run_past _ _ plain _ (by rw [plain_length]; simp [memKey, mapGroup]; omega)]
  rfl

theorem stored_plain : storedMap (mapped [toB]) true = mapWords small (plainRows 80) := by
  have hw : mapWords small (plainRows 80) = plain ++ List.replicate 924 0 := by
    show plain ++ List.replicate (1024 - plain.length) 0 = _
    rw [plain_length]
  rw [hw]
  apply List.ext_getElem
  · simp only [storedMap, List.length_map, List.length_range, List.length_append, List.length_replicate,
      plain_length]
  · intro i h1 h2
    have hg : mapGroup true = 8 := rfl
    simp only [storedMap, List.getElem_map, List.getElem_range, hg]
    by_cases h : i < 100
    · have hp : i < plain.length := by rw [plain_length]; exact h
      have e : plain.getD i 0 = plain[i] := by simp [hp]
      rw [cell_plain i h, List.getElem_append_left hp, e]
      simp
    · rw [cell_after i (by omega), List.getElem_append_right (by rw [plain_length]; omega),
        List.getElem_replicate]
      rfl

theorem witness_MapCommands_read :
    (seeWords 8 2 0 (18 + fld ((cellAt (mapped [toB]) 8 0).data.setWidth 32) 9 0) (mapped [toB])).1.isSome
      = true := by
  have h0 : 18 + fld ((cellAt (mapped [toB]) 8 0).data.setWidth 32) 9 0 = 100 := by decide +kernel
  rw [h0, seeWords_good 8 2 (mapped [toB]) 100 0 fun i hi => by rw [Nat.zero_add, cell_plain i hi]; exact ⟨rfl, rfl, rfl⟩]
  rfl

theorem witness_MapCommands_valid : mapValid small (storedMap (mapped [toB]) true) = true := by
  rw [stored_plain, plain_valid]

theorem witness_MapCommands_switch :
    (Taken 0x0311 1 0 toB (mapped [toB]) ∧
      sameHeader (storedMap (mapped [toB]) true) (storedMap (mapped [toB]) false) = true ∧
      (mapped [toB]).frm.switch = none ∧
      (mapped [toB]).frm.txMap ≠ true) ∧
    (Taken 0x0311 1 0 (cmd 0x0311 [0]) (mapped [cmd 0x0311 [0]]) ∧
      (mapped [cmd 0x0311 [0]]).frm.txMap = false) ∧
    (Taken 0x0311 1 0 toB poisonedB ∧
      (seeWords 8 2 0 (18 + fld ((cellAt poisonedB 8 0).data.setWidth 32) 9 0) poisonedB).1.isNone = true) ∧
    (Taken 0x0311 1 0 toB emptyB ∧
      (seeWords 8 2 0 (18 + fld ((cellAt emptyB 8 0).data.setWidth 32) 9 0) emptyB).1.isSome = true ∧
      sameHeader (storedMap emptyB true) (storedMap emptyB false) = false) :=
  ⟨⟨taken_of_check (by decide +kernel), by decide +kernel⟩,
   ⟨taken_of_check (by decide +kernel), by decide +kernel⟩,
   ⟨taken_of_check (by decide +kernel), by decide +kernel⟩,
   ⟨taken_of_check (by decide +kernel), by decide +kernel⟩⟩

/-- A switch in progress, and a target whose header fits but whose first row is an END. -/
def brokenB : State := setCell 8 18 { valid := true, data := endRow.setWidth 128 } (mapped [toB])

theorem witness_MapCommands_busy :
    takenCheck 0x0311 1 0 toB (switching false [toB]) = true ∧ (switching false [toB]).frm.switch ≠ none ∧
    sameHeader (storedMap (switching false [toB]) true) (storedMap (switching false [toB]) false) = true ∧
    takenCheck 0x0311 1 0 toB brokenB = true ∧
    sameHeader (storedMap brokenB true) (storedMap brokenB false) = true ∧
    mapValid small (storedMap brokenB true) = false ∧
    (seeWords 8 2 0 (18 + fld ((cellAt brokenB 8 0).data.setWidth 32) 9 0) brokenB).1.isSome = true := by
  decide +kernel

theorem witness_MapCommands_busy_valid : mapValid small (storedMap (switching false [toB]) true) = true :=
  witness_MapCommands_valid

theorem witness_MapCommands_busy_read :
    (seeWords 8 2 0 (18 + fld ((cellAt (switching false [toB]) 8 0).data.setWidth 32) 9 0)
      (switching false [toB])).1.isSome = true := by
  have h0 : 18 + fld ((cellAt (switching false [toB]) 8 0).data.setWidth 32) 9 0 = 100 := by decide +kernel
  have hc : ∀ i, cellAt (switching false [toB]) 8 i = cellAt (mapped [toB]) 8 i := fun _ => rfl
  rw [h0, seeWords_good 8 2 (switching false [toB]) 100 0 fun i hi => by
    rw [Nat.zero_add, hc, cell_plain i hi]; exact ⟨rfl, rfl, rfl⟩]
  rfl

/-- An open frame, poisoned or not. -/
def opened (poison : Bool) : OpenFrame :=
  { count := 7, sel := false, next := false, txTime := 0, prof := small, crc := 0, rows := [], epoch := 0
    containers := [], poison := poison }

theorem witness_FramesSentAndReceived_sent :
    ((mapped []).codeP = true ∧ (mapped []).frm.asm = none ∧ openCount (mapped []).frm = 0 ∧
      (mapped []).frm.stopped = false ∧ (mapped []).frm.switch = none) ∧
    (openCount ((mapped []).onFrm fun f => { f with stopped := true, nextCount := 1 }).frm = 8) ∧
    (openCount ((switching false []).onFrm fun f => { f with nextCount := 7 }).frm).toNat % 8 ≠ 0 ∧
    ((openCount (switching false []).frm).toNat % 8 = 0) ∧
    (findJob 0 (switching true [{ cmd 0x0311 [1] with stage := .running }]) =
        some { cmd 0x0311 [1] with stage := .running } ∧
      (switching true []).cry.switches = []) ∧
    State.reset.codeP = false ∧
    (switching false []).frm.switch = some { job := 0, target := true, opened := false } ∧
    (switching true []).frm.switch = some { job := 0, target := true, opened := true } ∧
    mustWhey (opened true) (mapped []) = true ∧ mustWhey (opened false) (mapped []) = false ∧
    ((mapped []).onFrm fun f => { f with asm := some (opened true) }).frm.asm = some (opened true) ∧
    ((mapped []).onFrm fun f => { f with asm := some (opened false) }).frm.asm ≠ none ∧
    (mapped []).frm.ready = none := by decide +kernel

/-- A frame's blocks, the first with the bits of an overhead whose OH_VERSION is 1. -/
def blockOf' (i : Nat) (bits : List Bool) : RxBlock :=
  { seq := BitVec.ofNat 64 i, frame := 0, index := i, cause := .passed, bits := bits }
def frameOf (bits : List Bool) : List RxBlock :=
  blockOf' 0 bits :: (List.range (frameBlocks small - 1)).map fun i => blockOf' (i + 1) []
def goodBits : List Bool := scramble (List.replicate 79 false ++ [true])

theorem witness_FramesSentAndReceived_received :
    (readFrame (mapped []) (frameOf goodBits)).good = true ∧
    (readFrame (mapped []) (frameOf [])).good = false ∧
    (frameOf goodBits).length = frameBlocks small ∧
    (∀ a ∈ frameOf goodBits, ∀ b ∈ frameOf goodBits, a.frame = b.frame) ∧
    (((mapped []).onFrm fun f => { f with rxBlocks := frameOf goodBits }).frm.rxBlocks.take
      (frameBlocks small)).length = frameBlocks small ∧
    ((mapped []).frm.rxBlocks.take (frameBlocks small)).length < frameBlocks small := by
  refine ⟨by decide +kernel, by decide +kernel, by decide +kernel, ?_, by decide +kernel, by decide +kernel⟩
  have h : ∀ a ∈ frameOf goodBits, a.frame = 0 := by
    intro a ha
    simp only [frameOf, List.mem_cons, List.mem_map] at ha
    rcases ha with rfl | ⟨i, -, rfl⟩ <;> rfl
  intro a ha b hb
  rw [h a ha, h b hb]

/-- A frame to echo, received at root time 0, and map A of two words that read clean. -/
def echoing : State := (mapped []).onFrm fun f => { f with
  echo := some { count := 7, txTime := 0, arrival := 0, at' := 0 } }
def shortMap : State :=
  { mapped [] with mem := { State.reset.mem with cells := run (memKey 7 0) (List.replicate 18 0) [] } }

theorem witness_FramesSentAndReceived_echo :
    echoing.frm.echo = some { count := 7, txTime := 0, arrival := 0, at' := 0 } ∧ (mapped []).frm.echo = none ∧
    (sequencerRead false shortMap).1.isSome = true := by decide +kernel

/-! ### Circuits -/

/-- Circuit 1023 as given, its lane 15 in a state. -/
def circuit (x : Circ) (l : Lane) (jobs : List Job) : State :=
  { at' .ready jobs with circ := [(1023, x)], lane := [(15, l)] }

theorem witness_CircuitCommands :
    (Taken 0x0301 2 0 (cmd 0x0301 [1023, 0x1F0]) (one .ready 0x0301 [1023, 0x1F0]) ∧
      fld (1023 : Word) 9 0 = 1023 ∧ badConfig { created := true, config := 0x1F0, egressFill := true } = false ∧
      (circAt (one .ready 0x0301 [1023, 0x1F0]) 1023).created = false ∧
      (∀ k ∈ Circ.lanes { created := true, config := 0x1F0, egressFill := true },
        (laneAt (one .ready 0x0301 [1023, 0x1F0]) k).circuit = none)) ∧
    (Taken 0x0301 2 0 (cmd 0x0301 [0, 0x1F0])
        (circuit { created := true } { circuit := some 1023 } [cmd 0x0301 [0, 0x1F0]]) ∧
      15 ∈ Circ.lanes { created := true, config := 0x1F0, egressFill := true } ∧
      (laneAt (circuit { created := true } { circuit := some 1023 } []) 15).circuit ≠ none) ∧
    (Taken 0x0301 2 0 (cmd 0x0301 [1023, 0x1F0]) (circuit { created := true } {} [cmd 0x0301 [1023, 0x1F0]]) ∧
      (circAt (circuit { created := true } {} []) 1023).created = true) ∧
    (Taken 0x0301 2 0 (cmd 0x0301 [1023, 0]) (one .ready 0x0301 [1023, 0]) ∧
      badConfig { created := true, egressFill := true } = true) ∧
    (Taken 0x0302 1 0 (cmd 0x0302 [1023]) (circuit { created := true } {} [cmd 0x0302 [1023]]) ∧
      circuitMapped (circuit { created := true } {} [cmd 0x0302 [1023]]) 1023 = false) ∧
    (Taken 0x0302 1 0 (cmd 0x0302 [1023]) (one .ready 0x0302 [1023]) ∧
      (circAt (one .ready 0x0302 [1023]) 1023).created = false) :=
  ⟨⟨taken_of_check (by decide +kernel), by decide +kernel⟩,
   ⟨taken_of_check (by decide +kernel), by decide +kernel⟩,
   ⟨taken_of_check (by decide +kernel), by decide +kernel⟩,
   ⟨taken_of_check (by decide +kernel), by decide +kernel⟩,
   ⟨taken_of_check (by decide +kernel), by decide +kernel⟩,
   ⟨taken_of_check (by decide +kernel), by decide +kernel⟩⟩

/-- Map A names circuit 1023 in its one tag row. -/
def named : State :=
  { circuit { created := true } {} [cmd 0x0302 [1023]] with
    mem := { State.reset.mem with cells := stored false (mapHeader small 3 ++ [ohRow, 0x200003FF, endRow]) [] } }

/-- Its ingress has failed, its lane in a state. -/
def failed (l : Lane) : State :=
  circuit { created := true, config := 0x1F0, ingressFail := true } l []

/-- OP_CIRCUIT_CREATE of a circuit of four lanes, 12 to 15, whose start slots have passed. -/
def fourLanes : Word := 0x4C2
def started : State := (one .ready 0x0301 [1023, fourLanes]).onPwr fun p => { p with start := 0xFF000000 }

theorem witness_CircuitCommands_pairs :
    takenCheck 0x0301 2 0 (cmd 0x0301 [1023, fourLanes]) started = true ∧
    badConfig { created := true, config := fourLanes, egressFill := true } = false ∧
    Circ.lanes { created := true, config := fourLanes } = [12, 13, 14, 15] ∧
    (∀ k ∈ [12, 13, 14, 15], (laneAt started k).circuit = none ∧ (laneAt started k).waiting = [] ∧
      (laneAt started k).state = 0 ∧ slotPassed started k = true) ∧ started.codeP = true ∧
    [12, 13, 14, 15].filter (fun k => decide ((laneAt started k).state = 0) && slotPassed started k) =
      [12, 13, 14, 15] ∧
    (0 ∉ ([12, 13, 14, 15] : List Nat)) := by decide +kernel

theorem witness_CircuitCommands_counters : CounterTablesCanonical (failed {}) := by
  simp only [CounterTablesCanonical]
  decide +kernel

theorem witness_CircuitCommands_loss :
    (circAt (failed {}) 1023).created = true ∧ (failed {}).codeP = true ∧
    (∃ k ∈ (circAt (failed {}) 1023).lanes, k ∈ ({ circ := 1023, lanes := [15] } : LockLoss).lanes) ∧
    (∀ k ∈ (circAt (failed {}) 1023).lanes, k ∉ ({ circ := 1023, lanes := [14] } : LockLoss).lanes) := by
  decide +kernel

theorem witness_CircuitCommands_ingress :
    (takenCheck 0x0302 1 0 (cmd 0x0302 [1023]) named = true ∧ (circAt named 1023).created = true ∧
      circuitMapped named 1023 = true) ∧
    ((circAt (circuit { created := true } {} []) 1023).ingressFail = false ∧
      (circuit { created := true } {} []).codeP = true) ∧
    ((circAt (failed { state := 4, amLock := true }) 1023).ingressFail = true ∧
      (failed { state := 4, amLock := true }).codeP = true ∧
      (circAt (failed { state := 4, amLock := true }) 1023).lanes = [15] ∧
      (laneAt (failed { state := 4, amLock := true }) 15).state = 4 ∧
      (laneAt (failed { state := 4, amLock := true }) 15).amLock = true ∧
      250000 ≤ ((later 250000 (failed { state := 4, amLock := true })).evt.period -
        (circAt (failed { state := 4, amLock := true }) 1023).lockAt).toNat ∧
      ((later 249999 (failed { state := 4, amLock := true })).evt.period -
        (circAt (failed { state := 4, amLock := true }) 1023).lockAt).toNat < 250000) ∧
    ((circAt (failed { state := 4 }) 1023).lanes = [15] ∧
      (laneAt (failed { state := 4 }) 15).amLock = false) ∧
    (circAt (at' .ready []) 1023).created = false ∧ (at' .standby []).codeP = false :=
  ⟨by decide +kernel, by decide +kernel, by decide +kernel, by decide +kernel, by decide +kernel⟩

/-- A PTP Sync message on Ethernet, and the same with its messageTypeSpecific field in use. -/
def sync : List Byte := List.replicate 12 0 ++ [0x88, 0xF7, 0x00, 0x02] ++ List.replicate 60 0
def taken : List Byte := sync.take 30 ++ [1] ++ sync.drop 31

/-- A circuit as given, with its one lane. -/
def alone (f : Circ → Circ) : State := circuit (f { created := true, config := 0x1F0 }) {} []

/-- A circuit being cut, with blocks waiting. -/
def cutting (n : Nat) (overrun : Bool) : State :=
  alone fun x => { x with cutting := true, overrun := overrun, fifo := List.replicate n 0 }

theorem witness_CircuitStreams :
    ((cutting 0 false).codeP = true ∧ (circAt (cutting 0 false) 1023).created = true ∧
      (circAt (cutting 0 false) 1023).cutting = true ∧
      (circAt (cutting 0 false) 1023).ingressFail = false ∧ clientLoop (cutting 0 false) 1023 = false ∧
      (circAt (cutting 0 false) 1023).fifo.length <
        containerBlocks (circAt (cutting 0 false) 1023).slotCount (cutting 0 false).prof.rate + 512) ∧
    ((circAt (cutting 0 true) 1023).overrun = true ∧ (circAt (cutting 0 true) 1023).fifo.length ≤
        containerBlocks (circAt (cutting 0 true) 1023).slotCount (cutting 0 true).prof.rate + 256) ∧
    ((circAt (alone id) 1023).cutting = false ∧ clientLoop (alone id) 1023 = false) ∧
    clientLoop (circuit { created := true, config := 0x1F0 } { loopback := 3 } []) 1023 = true ∧
    underTest (circuit { created := true, config := 0x1F0 } { loopback := 3 } []) 1023 = true ∧
    (circAt (alone id) 1023).egressFill = false ∧
    (circAt (alone fun x => { x with egressFill := true }) 1023).egressFill = true ∧
    (circAt (circuit { created := true, config := 0x8000 } {} []) 1023).tcEnable = true ∧
    ptpAt sync = some (14, none) ∧ isEvent sync 14 = true ∧ (14 : Nat) + 34 ≤ 256 ∧
    14 + 34 ≤ sync.length ∧ (ptpAt (sync.take 47) = some (14, none) ∧ isEvent (sync.take 47) 14 = true ∧
      (sync.take 47).length < 14 + 34) ∧
    (ptpAt taken = some (14, none) ∧ isEvent taken 14 = true ∧ 14 + 34 ≤ taken.length ∧
      (taken.drop (14 + 16)).take 4 ≠ [0, 0, 0, 0]) ∧
    (sync.drop (14 + 16)).take 4 = [0, 0, 0, 0] ∧
    (circAt (alone id) 1023).tcEnable = false ∧ (at' .standby []).codeP = false := by decide +kernel

/-- Symbols that fill no codeword, ones that fill one, and a decoded block that waits. -/
theorem witness_CircuitStreams_symbols :
    (circAt (takeSymbols 1023 [0] (cutting 0 false)) 1023).decoded = [] ∧
    (circAt (takeSymbols 1023 [] (alone fun x => { x with decoded := [(0, true)] })) 1023).decoded = [(0, true)] ∧
    544 * codewords (circAt (alone id) 1023).clientType = 544 ∧
    ((circAt (alone fun x => { x with rxSymbols := List.replicate 543 0 }) 1023).rxSymbols ++
      arrivingSymbols 1023 [0] (alone fun x => { x with rxSymbols := List.replicate 543 0 })).length = 544 ∧
    ((circAt (alone id) 1023).rxSymbols ++ arrivingSymbols 1023 [0] (alone id)).length < 544 ∧
    (∀ k ∈ (circAt (alone id) 1023).lanes, (laneAt (alone id) k).loopback ≠ 1) := by decide +kernel

theorem witness_CircuitStreams_recovery :
    ((circAt (alone id) 1023).localTiming = false ∧ (circAt (alone id) 1023).inBand = none ∧
      (circAt (alone fun x => { x with inBand := some 0 }) 1023).inBand = some 0 ∧
      secondPeriods ≤ ((later 250000000 (alone id)).evt.period - 0).toNat ∧
      ((later 249999999 (alone id)).evt.period - 0).toNat < secondPeriods) ∧
    (circAt (circuit { created := true, config := 0x4000 } {} []) 1023).localTiming = true ∧
    ((circAt (alone fun x => { x with recoveryLocked := true }) 1023).recoveryLocked = true ∧
      (circAt (alone id) 1023).recoveryLocked = false ∧
      256 < (circAt (alone fun x => { x with fillError := -257 }) 1023).fillError.natAbs ∧
      (circAt (alone fun x => { x with fillError := 256 }) 1023).fillError.natAbs ≤ 256 ∧
      1 / 5000 ≤ absRat (circAt (alone fun x => { x with steer := -1 / 5000 }) 1023).steer ∧
      absRat (circAt (alone id) 1023).steer < 1 / 5000) := by decide +kernel

/-- A FIFO of any length. -/
theorem witness_CircuitStreams_full (n : Nat) :
    (circAt (cutting n false) 1023).fifo.length = n ∧ (circAt (cutting n false) 1023).overrun = false ∧
    (circAt (cutting n true) 1023).fifo.length = n ∧ (circAt (cutting n true) 1023).overrun = true :=
  ⟨List.length_replicate, rfl, List.length_replicate, rfl⟩

/-! ### Host lanes -/

/-- Lane 15 as given, in a circuit or not, with commands. -/
def laned (x : Lane) (jobs : List Job) : State :=
  { at' .maintenance jobs with
    circ := [(1023, { created := true, config := 0x1F0 })], lane := [(15, x)] }
/-- OP_HLANE_CONFIG of lane 15 with settings at the ends of their ranges. -/
def laneWords : List Word := [0x8000, 0x280000, 0xF0F0, 0x3E80810, 2400]

theorem witness_LaneCommands :
    (Taken 0x0320 5 0 (cmd 0x0320 laneWords) (one .ready 0x0320 laneWords) ∧
      maskLanes ((cmd 0x0320 laneWords).param 0) = [15] ∧ fld (0x280000 : Word) 21 16 = 40 ∧
      signed 8 (fld (0xF0F0 : Word) 7 0) = -16 ∧ signed 8 (fld (0xF0F0 : Word) 15 8) = -16 ∧
      fld (0x3E80810 : Word) 4 0 = 16 ∧ fld (0x3E80810 : Word) 12 8 = 8 ∧
      fld (0x3E80810 : Word) 25 16 = 1000 ∧ fld (2400 : Word) 15 0 = 2400) ∧
    (Taken 0x0320 5 0 (cmd 0x0320 [0, 0, 0, 0, 0]) (one .ready 0x0320 [0, 0, 0, 0, 0]) ∧
      maskLanes 0 = []) ∧
    (Taken 0x0321 1 0 (cmd 0x0321 [0x8000]) (laned { circuit := some 1023 } [cmd 0x0321 [0x8000]]) ∧
      (laneAt (laned { circuit := some 1023 } []) 15).enabled = true ∧
      (laneAt (laned { circuit := some 1023 } []) 15).state = 0 ∧
      (laneAt (laned { circuit := some 1023, state := 4 } []) 15).enabled = true ∧
      (laneAt (laned { circuit := some 1023, state := 4 } []) 15).state ≠ 0) ∧
    (Taken 0x0321 1 0 (cmd 0x0321 [0x8000]) (laned {} [cmd 0x0321 [0x8000]]) ∧ 15 ∈ maskLanes 0x8000 ∧
      (laneAt (laned {} []) 15).enabled = false) ∧
    (Taken 0x0822 2 0 (cmd 0x0822 [0x8000, 0x343])
        (laned { circuit := some 1023 } [cmd 0x0822 [0x8000, 0x343]]) ∧
      fld (0x343 : Word) 2 0 = 3 ∧ fld (0x343 : Word) 6 4 = 4 ∧ fld (0x343 : Word) 10 8 = 3 ∧
      exactGroup (laned { circuit := some 1023 } [cmd 0x0822 [0x8000, 0x343]]) [15] = true ∧
      (laneAt (laned { circuit := some 1023 } []) 15).rate = bit 0x343 12) ∧
    (Taken 0x0822 2 0 (cmd 0x0822 [0x8000, 2])
        (laned { circuit := some 1023, state := 4 } [cmd 0x0822 [0x8000, 2]]) ∧
      (laneAt (laned { circuit := some 1023, state := 4 } []) 15).state = 4) ∧
    (Taken 0x0822 2 0 (cmd 0x0822 [0x8000, 3]) (laned {} [cmd 0x0822 [0x8000, 3]]) ∧
      exactGroup (laned {} [cmd 0x0822 [0x8000, 3]]) [15] = false) ∧
    ((laneAt (laned { circuit := some 1023, state := 4 } []) 15).circuit ≠ none ∧
      fld (0 : Word) 2 0 = (laneAt (laned { circuit := some 1023, state := 4 } []) 15).loopback.toNat) ∧
    (laneAt (laned {} []) 15).state = 0 ∧ bit 0x80 7 ≠ (laneAt (laned { circuit := some 1023 } []) 15).rxInvert :=
  ⟨⟨taken_of_check (by decide +kernel), by decide +kernel⟩,
   ⟨taken_of_check (by decide +kernel), by decide +kernel⟩,
   ⟨taken_of_check (by decide +kernel), by decide +kernel⟩,
   ⟨taken_of_check (by decide +kernel), by decide +kernel⟩,
   ⟨taken_of_check (by decide +kernel), by decide +kernel⟩,
   ⟨taken_of_check (by decide +kernel), by decide +kernel⟩,
   ⟨taken_of_check (by decide +kernel), by decide +kernel⟩, by decide +kernel⟩

/-- OP_HLANE_TEST of lane 15 as given. -/
def testTaken (w : Word) (x : Lane) : Bool :=
  takenCheck 0x0822 2 0 (cmd 0x0822 [0x8000, w]) (laned x [cmd 0x0822 [0x8000, w]])

theorem witness_LaneCommands_refusals :
    (testTaken 0x4 {} && testTaken 0x50 {} && testTaken 0x400 {} && testTaken 0x1000 { circuit := some 1023 } &&
      testTaken 2 { circuit := some 1023, state := 3 } &&
      takenCheck 0x0822 2 0 (cmd 0x0822 [0, 0]) (one .maintenance 0x0822 [0, 0]) &&
      takenCheck 0x0320 5 0 (cmd 0x0320 [0x8000, 0x290000, 0, 0, 0]) (one .ready 0x0320 [0x8000, 0x290000, 0, 0, 0])) =
      true ∧
    (3 < fld (0x4 : Word) 2 0 ∧ 4 < fld (0x50 : Word) 6 4 ∧ 3 < fld (0x400 : Word) 10 8 ∧
      ¬ fld (0x290000 : Word) 21 16 ≤ 40) ∧
    ((laneAt (laned { circuit := some 1023 } []) 15).rate ≠ bit 0x1000 12) ∧
    (laneAt (laned { circuit := some 1023, state := 3 } []) 15).state ≠ 4 ∧
    [true, false, true, true, true].contains false = true := by decide +kernel

/-- Settings that change the precoding of an enabled lane and of one that is not, and each end of a test. -/
theorem witness_LaneCommands_changes :
    ((laneAt (laned { circuit := some 1023, state := 4, txPrecode := true } []) 15).enabled = true ∧
      (laneAt (laned { txPrecode := true } []) 15).enabled = false) ∧
    ((laneAt (laned { tested := true, state := 4, loopback := 1 } []) 15).circuit = none ∧
      fld (0 : Word) 2 0 = 0 ∧ fld (0 : Word) 6 4 = 0) ∧
    (fld (0x11 : Word) 2 0 ≠ (laneAt (laned { state := 4 } []) 15).loopback.toNat ∧
      fld (0x10 : Word) 2 0 = (laneAt (laned { state := 4 } []) 15).loopback.toNat) ∧
    (later 1 (laned {} [])).evt.period ≠ 0 ∧
    (laneAt (laned { state := 4, tested := true } []) 15).tested = true := by decide +kernel

/-- Lane 15, of circuit 1023. -/
def lane (x : Lane) : State := laned { x with circuit := some 1023 } []

theorem witness_LaneBringUp_starts :
    ((lane {}).codeP = true ∧ (laneAt (lane {}) 15).enabled = true ∧ (laneAt (lane {}) 15).state = 0 ∧
      (laneAt (lane {}) 15).waiting = []) ∧
    (laneAt (laned {} []) 15).enabled = false ∧ (at' .standby []).codeP = false ∧
    (7 * 12500 ≤ ((later 87500 (lane {})).evt.period - (lane {}).pwr.readyAt).toNat ∧
      ((later 87499 (lane {})).evt.period - (lane {}).pwr.readyAt).toNat < 7 * 12500) ∧
    (lane {}).pwr.pairs = [] ∧
    ((powered .ready (fun p => { p with pairs := [(0, [14, 15])] }) []).pwr.pairs = [(0, [14, 15])] ∧
      12500 ≤ ((later 12500 (lane {})).evt.period - 0).toNat ∧
      ((later 12499 (lane {})).evt.period - 0).toNat < 12500) := by decide +kernel

/-- A restart that waits for lane 15 alone. -/
def awaited : State :=
  laned { circuit := some 1023, waiting := [0] } [{ cmd 0x0321 [0x8000] with stage := .running }]

theorem witness_LaneBringUp_waiting :
    awaited.codeP = true ∧ (laneAt awaited 15).enabled = true ∧ (laneAt awaited 15).state = 0 ∧
    (laneAt awaited 15).waiting = [0] ∧
    findJob 0 awaited = some { cmd 0x0321 [0x8000] with stage := .running } ∧
    (∀ e ∈ awaited.lane, e.1 ≠ 15 → 0 ∉ e.2.waiting) ∧ tabWf {} awaited.lane = true := by decide +kernel

/-- Each step of the bring-up just in time and just before. -/
theorem witness_LaneBringUp_steps :
    ([(1, 500), (2, 2500), (3, 250000), (2, 50000), (3, 5000000)].all fun n =>
      (laneAt (lane { state := n.1 }) 15).state == n.1 &&
      decide (n.2 ≤ ((later (BitVec.ofNat 64 n.2) (lane {})).evt.period - (laneAt (lane {}) 15).since).toNat) &&
      decide (((later (BitVec.ofNat 64 (n.2 - 1)) (lane {})).evt.period - (laneAt (lane {}) 15).since).toNat <
        n.2)) ∧
    (laneAt (lane { state := 3, startIndex := 6 }) 15).startIndex = 6 ∧
    ((laneAt (lane { state := 3 }) 15).frozen = false ∧ (laneAt (lane { state := 3 }) 15).idle = 0) ∧
    (laneAt (lane { state := 3 }) 15).snrMin.toNat ≤ (1600 : BitVec 16).toNat ∧
    (1599 : BitVec 16).toNat < (laneAt (lane { state := 3 }) 15).snrMin.toNat ∧
    ((laneAt (lane { state := 4 }) 15).state = 4 ∧ (laneAt (lane { state := 4 }) 15).frozen = false ∧
      250 ≤ ((later 250 (lane {})).evt.period - (laneAt (lane {}) 15).thawedAt).toNat ∧
      25000 ≤ ((later 25000 (lane {})).evt.period - (laneAt (lane {}) 15).thawedAt).toNat) ∧
    ((laneAt (lane { state := 4, frozen := true }) 15).frozen = true ∧ (2 : BitVec 4) ≠ 1) := by
  decide +kernel

/-- 256 symbols that run through the four levels, and a lane with the lowest limits. -/
def stairs : LaneWindow := window ((List.range 256).map fun i => i % 4)
def lenient : Lane := { tdMin := 1, loMin := 1, state := 4 }

theorem witness_LaneBringUp_windows :
    ((laneAt (lane { state := 3 }) 15).txOn = false ∧ receivedSymbols (window [0, 0]) { state := 3 } = [0, 0] ∧
      densityFails {} [0, 0] = true ∧ levelFails {} [0, 0] = true) ∧
    (receivedSymbols stairs lenient = stairs.symbols ∧
      densityFails lenient stairs.symbols = false ∧ levelFails lenient stairs.symbols = false) ∧
    ((laneAt (lane { state := 4, frozen := true, passed := 14 }) 15).passed < 15 ∧
      ¬ (laneAt (lane { state := 4, frozen := true, passed := 15 }) 15).passed < 15) ∧
    ((laneAt (lane { state := 1, txOn := true }) 15).txOn = true ∧
      (laneAt (lane { state := 1, txOn := true }) 15).state ≠ 3 ∧
      (laneAt (lane { state := 1, txOn := true }) 15).state ≠ 4) ∧
    ((laneAt (lane { frozen := true, freezeLimit := 0 }) 15).freezeLong = false ∧
      (laneAt (lane { frozen := true, freezeLimit := 0 }) 15).freezeLimit.toNat * 250000 ≤
        ((lane { frozen := true, freezeLimit := 0 }).evt.period -
          (laneAt (lane { frozen := true, freezeLimit := 0 }) 15).frozenAt).toNat) := by decide +kernel

/-- Windows of a lane that sends: its egress on client fill, its content full, new taps. -/
theorem witness_LaneBringUp_sending :
    ((laneAt (lane { state := 4, amLock := true }) 15).circuit = some 1023 ∧
      15 ∈ (circAt (lane { state := 4, amLock := true }) 1023).lanes ∧
      (laneAt (lane { state := 4, amLock := true }) 15).amLock = true) ∧
    ((laneAt (lane { txOn := true }) 15).txOn = true ∧ (laneAt (lane { txOn := true }) 15).pattern = 0 ∧
      (laneAt (lane { txOn := true }) 15).loopback ≠ 2 ∧
      (laneAt (lane { txOn := true }) 15).content.length < 8192 ∧
      (circAt (onCirc 1023 (fun x => { x with egressFill := true }) (lane { txOn := true })) 1023).egressFill = true ∧
      (circAt (lane {}) 1023).egressFill = false ∧ clientLoop (lane {}) 1023 = false ∧
      clientLoop (lane { loopback := 3 }) 1023 = true ∧ (circAt (lane {}) 1023).egress = []) ∧
    ((laneAt (lane {}) 15).ffe = ((laneAt (lane {}) 15).cPre, (laneAt (lane {}) 15).cPost) ∧
      (laneAt (lane { cPre := -1 }) 15).ffe ≠ ((laneAt (lane { cPre := -1 }) 15).cPre, 0)) := by decide +kernel

theorem witness_LaneBringUp_groups :
    ((circAt (lane { state := 4 }) 1023).created = true ∧ (circAt (lane { state := 4 }) 1023).lanes = [15] ∧
      (circAt (lane { state := 4 }) 1023).firstLane = 15 ∧
      pcsComplete (circAt (lane { state := 4 }) 1023).laneCount [0] = true ∧
      pcsComplete (circAt (lane { state := 4 }) 1023).laneCount [1] = false ∧ deskews [7] = [0] ∧
      deskews [5, 2005] = [0, 2000]) ∧
    ((laneAt (lane { state := 4 }) 15).deskewRaised = false ∧ (laneAt (lane { state := 4 }) 15).aligned = false ∧
      (laneAt (lane { state := 4, aligned := true }) 15).aligned = true ∧
      alignLate (later 2500000 (lane { state := 4 })) (circAt (lane { state := 4 }) 1023) = true ∧
      alignLate (later 2499999 (lane { state := 4 })) (circAt (lane { state := 4 }) 1023) = false) ∧
    ((laneAt (lane { checker := 1, check := { run := 1024 } }) 15).checker ≠ 0 ∧
      (laneAt (lane { checker := 1, check := { run := 1024 } }) 15).checkerLocked = false ∧
      (laneAt (lane { checker := 1, check := { run := 1024 } }) 15).check.due false = true ∧
      (laneAt (lane { checker := 1, check := { run := 1023 } }) 15).check.due false = false) ∧
    ((laneAt (lane { checkerLocked := true, check := { bits := 4096, errors := 1024 } }) 15).check.due true = true ∧
      (laneAt (lane { checkerLocked := true, check := { bits := 4096, errors := 1023 } }) 15).check.due true =
        false) ∧
    ((laneAt (lane {}) 15).checker = 0 ∧ (laneAt (lane {}) 15).checkerLocked = false) := by
  decide +kernel

/-! ### Transmit DSP and optics port -/

/-- The transmitter as given, with commands. -/
def sending (f : Tx → Tx) (jobs : List Job) : State := (at' .ready jobs).onTx f

/-- OP_TX_SHAPE at the low and high ends of its ranges. -/
def shapeWords : List Word := [0x4001, 0]
/-- OP_TX_MASK at -40 dB everywhere. -/
def maskWords : List Word := List.replicate 64 0xFE70FE70 ++ [0xFE70]
def maskOf : List Int :=
  (List.range 129).map fun i => half ((cmd 0x0211 maskWords).param (i / 2)) (i % 2 == 1)
/-- OP_TX_PRECOMP of lane XI, all zero. -/
def precompWords : List Word := 1 :: List.replicate 68 0

theorem witness_TransmitCommands_gains :
    gainOk { beta := 1, boost := 0, rms := 64 } = true ∧ gainOk { mask := maskOf } = true ∧
    gainOk { xi := laneOf (cmd 0x0212 precompWords) 3 } = true ∧ gainOk {} = true :=
  ⟨gainOk_of_nonpos _ (by simp) (by simp) (by decide) (by decide),
   gainOk_of_nonpos _ (by decide +kernel) (by simp) (by decide) (by decide),
   gainOk_of_nonpos _ (by simp) (by decide +kernel) (by decide) (by decide),
   gainOk_of_nonpos _ (by simp) (by simp) (by decide) (by decide)⟩

/-- Twelve dB of mask and thirty-six of one lane's correction. -/
def loud : TxFilter := { mask := List.replicate 129 120, xi := { amp := List.replicate 65 360 } }

theorem loud_step : dbFactor 18 < combinedGain loud loud.xi.amp 0 true (16 * 0 : Nat) ∧
    18 < combinedDb loud loud.xi.amp 0 true (16 * 0 : Nat) := by decide +kernel

theorem loud_gain : gainOk loud = false := by
  have h : stepOk loud loud.xi.amp 0 true 0 = false := by
    have h0 : ∀ a b c : Rat, a ≤ max (max a b) c := fun a b c => by grind
    have h1 : ¬ stepPeak loud loud.xi.amp 0 true 0 ≤ dbFactor 18 := fun h =>
      Rat.not_le.2 loud_step.1 (Rat.le_trans (h0 _ _ _) h)
    have h2 := Rat.not_le.2 loud_step.2
    simp only [stepOk, h1, h2, decide_false, Bool.false_and, Bool.or_false]
  have : ((List.range 64).all fun k => stepOk loud loud.xi.amp 0 true k && stepOk loud loud.xi.amp 0 false k) = false := by
    rw [List.all_eq_false]
    exact ⟨0, by simp, by simp [h]⟩
  simp only [gainOk, this, Bool.false_and]

/-- OP_TX_MASK of 12 dB everywhere beside that correction. -/
def loudWords : List Word := List.replicate 64 0x780078 ++ [0x78]
theorem witness_TransmitCommands_loud :
    takenCheck 0x0211 65 0 (cmd 0x0211 loudWords)
      (sending (fun t => { t with filter := { xi := loud.xi } }) [cmd 0x0211 loudWords]) = true ∧
    { (sending (fun t => { t with filter := { xi := loud.xi } }) []).tx.filter with
      mask := (List.range 129).map (fun i => half ((cmd 0x0211 loudWords).param (i / 2)) (i % 2 == 1)) } = loud ∧
    fld ((cmd 0x0211 loudWords).param 64) 31 16 = 0 := by decide +kernel

/-- A command of the transmitter with its words, all else at reset. -/
def txTaken (op need : Nat) (ps : List Word) : Bool := takenCheck op need 0 (cmd op ps) (one .ready op ps)

/-- Values out of range, each with its word, and words that are missing. -/
theorem witness_TransmitCommands_refusals :
    (txTaken 0x0210 2 [0x400D, 0] && txTaken 0x0210 2 [0x4071, 0] && txTaken 0x0210 2 [0x3F01, 0] &&
      txTaken 0x0210 2 [0xC101, 0] && txTaken 0x0211 65 (List.replicate 65 121) &&
      txTaken 0x0211 65 (List.replicate 64 0 ++ [0x10000]) && txTaken 0x0212 3 (1 :: List.replicate 68 0x7FFF) &&
      txTaken 0x0212 3 [16, 201, 0] && txTaken 0x0212 3 [16, 0, 201] && txTaken 0x0213 3 [0, 1000001, 1] &&
      txTaken 0x0213 3 [0, 1, 0] && txTaken 0x0215 1 [9] && txTaken 0x0215 1 [0x88, 0] &&
      takenCheck 0x0220 1 0 (cmd 0x0220 [1]) (one .standby 0x0220 [1]) &&
      takenCheck 0x0221 1 0 (cmd 0x0221 [65]) (one .standby 0x0221 [65]) &&
      takenCheck 0x0221 1 0 (cmd 0x0221 [1]) (one .standby 0x0221 [1])) = true ∧
    (12 < fld (0x400D : Word) 3 0 ∧ 6 < fld (0x4071 : Word) 7 4 ∧ fld (0x3F01 : Word) 17 8 < 64 ∧
      192 < fld (0xC101 : Word) 17 8) ∧
    (120 < half 121 false ∧ fld (0x10000 : Word) 31 16 ≠ 0 ∧ 200 < half 201 false) ∧
    laneFault (laneOf (cmd 0x0212 (1 :: List.replicate 68 0x7FFF)) 3) ≠ none ∧
    (8 < fld (9 : Word) 3 0 ∧ (cmd 0x0215 [0x88, 0]).params.length < 1 + 8 + 8 ∧
      (cmd 0x0220 [1]).params.length ≤ 1) := by decide +kernel

/-- The filter in use at reset is the default one, which the four filters above change. -/
theorem witness_TransmitCommands_filters :
    (one .ready 0x0210 []).tx.filter = {} ∧
    (Taken 0x0210 2 0 (cmd 0x0210 shapeWords) (one .ready 0x0210 shapeWords) ∧
      fld (0x4001 : Word) 3 0 = 1 ∧ fld (0x4001 : Word) 7 4 = 0 ∧ fld (0x4001 : Word) 17 8 = 64 ∧
      (one .ready 0x0210 shapeWords).tx.update = none) ∧
    (Taken 0x0210 2 0 (cmd 0x0210 shapeWords)
        (sending (fun t => { t with update := some (1, {}) }) [cmd 0x0210 shapeWords]) ∧
      (sending (fun t => { t with update := some (1, {}) }) []).tx.update ≠ none) ∧
    (Taken 0x0210 2 0 (cmd 0x0210 [0x4000, 0]) (one .ready 0x0210 [0x4000, 0]) ∧
      fld (0x4000 : Word) 3 0 = 0) ∧
    (Taken 0x0211 65 0 (cmd 0x0211 maskWords) (one .ready 0x0211 maskWords) ∧
      (∀ v ∈ maskOf, -400 ≤ v ∧ v ≤ 120) ∧
      fld ((cmd 0x0211 maskWords).param 64) 31 16 = 0) ∧
    (Taken 0x0212 3 0 (cmd 0x0212 precompWords) (one .ready 0x0212 precompWords) ∧
      bit 1 0 = true ∧ bit 1 1 = false ∧ bit 1 2 = false ∧ bit 1 3 = false ∧ bit 1 4 = false ∧
      69 ≤ (cmd 0x0212 precompWords).params.length ∧
      laneFault (laneOf (cmd 0x0212 precompWords) 3) = none) ∧
    (Taken 0x0212 3 0 (cmd 0x0212 [16, 0, 0]) (one .ready 0x0212 [16, 0, 0]) ∧ bit 16 4 = true ∧
      (takeLane (cmd 0x0212 [16, 0, 0]) 3 (fun l f => { f with yq := l })
        (takeLane (cmd 0x0212 [16, 0, 0]) 2 (fun l f => { f with yi := l })
        (takeLane (cmd 0x0212 [16, 0, 0]) 1 (fun l f => { f with xq := l })
        (takeLane (cmd 0x0212 [16, 0, 0]) 0 (fun l f => { f with xi := l })
          (({} : TxFilter), 3, none))))).2.1 = 3 ∧
      half 0 false = 0 ∧ half 0 true = 0) ∧
    (Taken 0x0212 3 0 (cmd 0x0212 [1, 0, 0]) (one .ready 0x0212 [1, 0, 0]) ∧
      (cmd 0x0212 [1, 0, 0]).params.length < 69) :=
  ⟨by decide +kernel, ⟨taken_of_check (by decide +kernel), by decide +kernel⟩,
   ⟨taken_of_check (by decide +kernel), by decide +kernel⟩,
   ⟨taken_of_check (by decide +kernel), by decide +kernel⟩,
   ⟨taken_of_check (by decide +kernel), by decide +kernel⟩,
   ⟨taken_of_check (by decide +kernel), by decide +kernel⟩,
   ⟨taken_of_check (by decide +kernel), by decide +kernel⟩,
   ⟨taken_of_check (by decide +kernel), by decide +kernel⟩⟩

theorem witness_TransmitCommands_port :
    (Taken 0x0213 3 0 (cmd 0x0213 [0, 1, 1000000]) (one .ready 0x0213 [0, 1, 1000000]) ∧
      (one .ready 0x0213 [0, 1, 1000000]).tx.out ≠ .rampUp ∧
      (one .ready 0x0213 [0, 1, 1000000]).tx.out ≠ .rampDown) ∧
    (Taken 0x0213 3 0 (cmd 0x0213 [0, 1, 1])
        (sending (fun t => { t with out := .rampUp }) [cmd 0x0213 [0, 1, 1]]) ∧
      (sending (fun t => { t with out := .rampUp }) []).tx.out = .rampUp) ∧
    (Taken 0x0214 1 0 (cmd 0x0214 [0]) (one .ready 0x0214 [0]) ∧ bit 0 0 = false) ∧
    (Taken 0x0214 1 0 (cmd 0x0214 [1]) (one .ready 0x0214 [1]) ∧ bit 1 0 = true ∧
      requestHeld (sending (fun t => { t with synthLocked := true }) [cmd 0x0214 [1]]) = false ∧
      takenCheck 0x0214 1 0 (cmd 0x0214 [1])
        (sending (fun t => { t with synthLocked := true }) [cmd 0x0214 [1]]) = true) ∧
    (Taken 0x0214 1 0 (cmd 0x0214 [1])
        (sending (fun t => { t with alert := true, alertAction := true }) [cmd 0x0214 [1]]) ∧
      requestHeld (sending (fun t => { t with alert := true, alertAction := true }) [cmd 0x0214 [1]]) = true) ∧
    (Taken 0x0215 1 0 (cmd 0x0215 (0x88 :: List.replicate 16 7)) (one .ready 0x0215 (0x88 :: List.replicate 16 7)) ∧
      fld (0x88 : Word) 3 0 = 8 ∧ fld (0x88 : Word) 7 4 = 8 ∧
      (one .ready 0x0215 (0x88 :: List.replicate 16 7)).tx.hooks = none) ∧
    (Taken 0x0215 1 0 (cmd 0x0215 [0]) (sending (fun t => { t with hooks := some .up }) [cmd 0x0215 [0]]) ∧
      (sending (fun t => { t with hooks := some .up }) []).tx.hooks ≠ none) ∧
    (Taken 0x0220 1 0 (cmd 0x0220 (64 :: List.replicate 64 0)) (one .standby 0x0220 (64 :: List.replicate 64 0)) ∧
      64 < (cmd 0x0220 (64 :: List.replicate 64 0)).params.length) ∧
    (Taken 0x0220 1 0 (cmd 0x0220 [65]) (one .standby 0x0220 [65]) ∧ 64 < (65 : Word).toNat) ∧
    (Taken 0x0221 1 0 (cmd 0x0221 [1, 0]) (one .standby 0x0221 [1, 0]) ∧
      1 < (cmd 0x0221 [1, 0]).params.length) ∧
    (Taken 0x0222 0 0 (cmd 0x0222 []) (one .standby 0x0222 []) ∧ (one .standby 0x0222 []).tx.out = .quiet) ∧
    (Taken 0x0222 0 0 (cmd 0x0222 []) (sending (fun t => { t with out := .on }) [cmd 0x0222 []]) ∧
      (sending (fun t => { t with out := .on }) []).tx.out ≠ .quiet) :=
  ⟨⟨taken_of_check (by decide +kernel), by decide +kernel⟩,
   ⟨taken_of_check (by decide +kernel), by decide +kernel⟩,
   ⟨taken_of_check (by decide +kernel), by decide +kernel⟩,
   ⟨taken_of_check (by decide +kernel), by decide +kernel⟩,
   ⟨taken_of_check (by decide +kernel), by decide +kernel⟩,
   ⟨taken_of_check (by decide +kernel), by decide +kernel⟩,
   ⟨taken_of_check (by decide +kernel), by decide +kernel⟩,
   ⟨taken_of_check (by decide +kernel), by decide +kernel⟩,
   ⟨taken_of_check (by decide +kernel), by decide +kernel⟩,
   ⟨taken_of_check (by decide +kernel), by decide +kernel⟩,
   ⟨taken_of_check (by decide +kernel), by decide +kernel⟩,
   ⟨taken_of_check (by decide +kernel), by decide +kernel⟩⟩

/-- A transaction on the wire. -/
def wired (read : Bool) (retries : Nat) (onWire : Bool) : OptWire :=
  { trans := { job := some 0, read := read, addr := 0, data := 0, index := 0, last := true }
    retries := retries, onWire := onWire }

/-- A frame of no containers, ready for its first sample. -/
def lineFrame : LineFrame :=
  { frame := { count := 0, sel := false, next := false, txTime := 0, prof := presetProfile 6, crc := 0
               rows := [], epoch := 0, containers := [], poison := false }
    overhead := [], whey := false }

/-- A reset of the module, by command 0 from period 0. -/
def resetting : State :=
  sending (fun t => { t with optResetJobs := [(0, 0)], resetActive := true })
    [{ cmd 0x0222 [] with stage := .working, committed := true }]

theorem witness_TransmitEvents :
    ((sending id []).codeP = true ∧ requestHeld (sending (fun t => { t with synthLocked := true }) []) = false ∧
      requestHeld (sending (fun t => { t with alert := true, alertAction := true }) []) = true ∧
      (sending id []).rx.pend = []) ∧
    ((sending (fun t => { t with request := true }) []).tx.out = .quiet ∧
      (sending (fun t => { t with request := true }) []).tx.hooks = none ∧
      (sending (fun t => { t with request := true }) []).tx.upHooks = [] ∧
      (sending (fun t => { t with request := true }) []).tx.synthLocked = false ∧
      (sending (fun t => { t with synthLocked := true }) []).tx.synthLocked = true) ∧
    ([OutState.on, .rampUp, .rampDown].all fun o => [true, false].all fun r =>
      (sending (fun t => { t with out := o, request := r }) []).tx.out == o &&
        (sending (fun t => { t with out := o, request := r }) []).tx.request == r) ∧
    ((sending (fun t => { t with update := some (0, {}) }) [cmd 0x0210 []]).tx.update = some (0, {}) ∧
      findJob 0 (sending (fun t => { t with update := some (0, {}) }) [cmd 0x0210 []]) = some (cmd 0x0210 [])) ∧
    (((sending id []).onFrm fun f => { f with ready := some lineFrame }).frm.ready = some lineFrame) ∧
    (250000 ≤ ((later 250000 (sending id [])).evt.period - (sending id []).tx.clipAt).toNat ∧
      ((later 249999 (sending id [])).evt.period - (sending id []).tx.clipAt).toNat < 250000) ∧
    (sending id []).frm.ready = none ∧ State.reset.codeP = false ∧
    (1 ≤ phiNow (sending (fun t => { t with out := .rampUp, phi := 1 }) []) ∧
      phiNow (sending (fun t => { t with out := .rampUp, phi := 0 }) []) < 1 ∧
      phiNow (sending (fun t => { t with out := .rampDown, phi := 0 }) []) ≤ 0 ∧
      0 < phiNow (sending (fun t => { t with out := .rampDown, phi := 1 }) [])) ∧
    (sending (fun t => { t with quietHooks := [1] }) []).tx.quietHooks ≠ [] ∧
    ((sending (fun t => { t with wire := some (wired true 0 true) }) []).tx.wire = some (wired true 0 true) ∧
      (wired true 0 true).onWire = true ∧
      (BitVec.ofNat 8 (optCrc true 0 0)).toNat = optCrc true (wired true 0 true).trans.addr 0 ∧
      (wired true 1 true).retries < (sending id []).tx.optRetries.toNat ∧
      (sending id []).tx.optRetries.toNat ≤ (wired true 2 true).retries ∧
      (wired true 0 false).onWire = false ∧ (sending id []).tx.wire = none ∧
      2500 ≤ ((later 2500 (sending id [])).evt.period - (wired true 0 false).failedAt).toNat ∧
      ((later 2499 (sending id [])).evt.period - (wired true 0 false).failedAt).toNat < 2500) ∧
    (resetting.tx.optResetJobs = (0, 0) :: [] ∧ resetting.tx.resetActive = true ∧ resetting.codeS = true ∧
      252500 ≤ ((later 252500 resetting).evt.period - 0).toNat ∧
      ((later 252499 resetting).evt.period - 0).toNat < 252500 ∧
      resetting.tx.optResetJobs ≠ [] ∧
      findJob 0 resetting = some { cmd 0x0222 [] with stage := .working, committed := true } ∧
      (∀ q ∈ resetting.tx.hostQueue, q.job ≠ some 0) ∧
      (sending (fun t => { t with resetActive := false }) []).tx.resetActive = false) := by
  decide +kernel

/-! ### Receive DSP -/

/-- The receiver as given in a mode, with commands. -/
def receiving (m : Mode) (f : Rx → Rx) (jobs : List Job) : State := (at' m jobs).onRx f
/-- The acquisition machine in state n, with all its loops locked. -/
def acquiring (n : Nat) : State :=
  receiving .acquire (fun r => { r with
    acq := n, adcLocked := true, timingLocked := true, carrierLocked := true, snrRun := 4 }) []

def frontWords : List Word := [3, 0, 0, 0, 0, 0, 0]
/-- A fixed dispersion at the centre wavelength. -/
def cdWords : List Word := [1 + 4 * 16, 0, 1000, 500, 155000]
/-- The dispersion search with bounds of both signs, negative first. -/
def cdSearch : List Word := [4 * 16, -1000, 1000, 0, 165000]
/-- Thresholds at the high ends of their ranges. -/
def sepWords : List Word := [3 + 12 * 16 + 12 * 256, 16 + 64 * 256]

/-- What every command with words in range meets, in a mode. -/
def accepts (op need : Nat) (ps : List Word) (s : State) : Bool :=
  takenCheck op need 0 (cmd op ps) s

theorem witness_ReceiveCommands :
    ([true, false].all fun p =>
      accepts 0x0230 7 frontWords ((one .ready 0x0230 frontWords).onPwr fun w => { w with pRunning := p }) &&
      (((one .ready 0x0230 frontWords).onPwr fun w => { w with pRunning := p }).codeP == p)) ∧
    (half 0 false = 0 ∧ half 0 true = 0 ∧
      rxInverts (takeFrontend frontWords {}) = rxInverts {}) ∧
    (Taken 0x0231 5 0 (cmd 0x0231 cdWords) (one .ready 0x0231 cdWords) ∧
      Taken 0x0231 5 0 (cmd 0x0231 cdSearch) (one .ready 0x0231 cdSearch) ∧
      (∀ p ∈ [cdWords, cdSearch], fld ((cmd 0x0231 p).param 0) 6 4 ≤ 4 ∧
        145000 ≤ ((cmd 0x0231 p).param 4).toNat ∧ ((cmd 0x0231 p).param 4).toNat ≤ 165000 ∧
        (∀ i ∈ [1, 2, 3], cdOk State.reset.prof.rate ((cmd 0x0231 p).param 4).toNat
          (fld ((cmd 0x0231 p).param 0) 6 4) (wordInt ((cmd 0x0231 p).param i)) = true) ∧
        wordInt ((cmd 0x0231 p).param 1) ≤ wordInt ((cmd 0x0231 p).param 2) ∧
        fld ((cmd 0x0231 p).param 0) 6 4 = State.reset.rx.cfg.nCode)) ∧
    (Taken 0x0232 2 0 (cmd 0x0232 sepWords) (one .traffic 0x0232 sepWords) ∧
      fld ((cmd 0x0232 sepWords).param 0) 7 4 ≤ 12 ∧ fld ((cmd 0x0232 sepWords).param 0) 11 8 ≤ 12 ∧
      4 ≤ fld ((cmd 0x0232 sepWords).param 1) 4 0 ∧ fld ((cmd 0x0232 sepWords).param 1) 4 0 ≤ 16 ∧
      4 ≤ fld ((cmd 0x0232 sepWords).param 1) 15 8 ∧ fld ((cmd 0x0232 sepWords).param 1) 15 8 ≤ 64 ∧
      fld ((cmd 0x0232 sepWords).param 0) 1 0 = State.reset.rx.cfg.tCode.toNat) ∧
    Taken 0x0233 1 0 (cmd 0x0233 [0]) (one .acquire 0x0233 [0]) ∧
    (Taken 0x0234 2 0 (cmd 0x0234 [0, 8000]) (one .ready 0x0234 [0, 8000])) ∧
    Taken 0x0235 3 0 (cmd 0x0235 [0, 0, 0]) (one .ready 0x0235 [0, 0, 0]) :=
  ⟨by decide +kernel, by decide +kernel,
   ⟨taken_of_check (by decide +kernel), taken_of_check (by decide +kernel), by decide +kernel⟩,
   ⟨taken_of_check (by decide +kernel), by decide +kernel⟩, taken_of_check (by decide +kernel),
   taken_of_check (by decide +kernel), taken_of_check (by decide +kernel)⟩

theorem witness_ReceiveCommands_refused :
    (Taken 0x0230 7 0 (cmd 0x0230 [0, 0x7FFF, 0, 0, 0, 0, 0])
        (one .ready 0x0230 [0, 0x7FFF, 0, 0, 0, 0, 0]) ∧ 200 < half 0x7FFF false) ∧
    (Taken 0x0232 2 0 (cmd 0x0232 [2, 4 + 4 * 256]) (one .traffic 0x0232 [2, 4 + 4 * 256]) ∧
      (one .traffic 0x0232 []).pwr.mode = .traffic ∧
      fld (2 : Word) 1 0 ≠ State.reset.rx.cfg.tCode.toNat ∧ fld (2 : Word) 7 4 ≤ 12 ∧
      fld (2 : Word) 11 8 ≤ 12 ∧ 4 ≤ fld (4 + 4 * 256 : Word) 4 0 ∧
      4 ≤ fld (4 + 4 * 256 : Word) 15 8) ∧
    (Taken 0x0234 2 0 (cmd 0x0234 [0, 99]) (one .ready 0x0234 [0, 99]) ∧ (99 : Word).toNat < 100) ∧
    (receiving .ready (fun r => { r with pend := [(0, 0x0233, [1])] }) []).rx.pend =
      (0, 0x0233, [1]) :: [] ∧
    ((acquiring 2).pwr.mode = .acquire ∧ State.reset.pwr.mode ≠ .acquire) :=
  ⟨⟨taken_of_check (by decide +kernel), by decide +kernel⟩,
   ⟨taken_of_check (by decide +kernel), by decide +kernel⟩,
   ⟨taken_of_check (by decide +kernel), by decide +kernel⟩, by decide +kernel, by decide +kernel⟩

/-- Each value out of its range or not to be changed in its mode, with the word it stands in. -/
theorem witness_ReceiveCommands_words :
    ([(Mode.ready, 0x0230, 7, [0, 0, 0, 0, 0, 0, 1001]), (.acquire, 0x0230, 7, [0, 0, 0, 0x10000, 0, 0, 0]),
      (.ready, 0x0231, 5, [0x50, 0, 0, 0, 155000]), (.ready, 0x0231, 5, [0x40, 0, 0, 0, 144999]),
      (.ready, 0x0231, 5, [0x40, 1, 0, 0, 155000]), (.ready, 0x0231, 5, [0x40, 0, 200001, 0, 155000]),
      (.ready, 0x0231, 5, [0x40, 0, 0, 200001, 155000]), (.acquire, 0x0231, 5, [0x00, 0, 0, 0, 155000]),
      (.ready, 0x0232, 2, [0xD0, 0x404]), (.ready, 0x0232, 2, [0, 0x403]),
      (.ready, 0x0234, 2, [0, 8001])].all fun c =>
        takenCheck c.2.1 c.2.2.1 0 (cmd c.2.1 c.2.2.2) (one c.1 c.2.1 c.2.2.2)) = true ∧
    (1000 < half 1001 false ∧ 12 < fld (0xD0 : Word) 7 4 ∧ fld (0x403 : Word) 4 0 < 4 ∧
      4 < fld (0x50 : Word) 6 4 ∧ wordInt 0 < wordInt 1 ∧ fld (0x00 : Word) 6 4 ≠ State.reset.rx.cfg.nCode) ∧
    (cdOk State.reset.prof.rate 155000 4 (wordInt 200001) = false ∧
      cdOk State.reset.prof.rate 155000 4 (wordInt 0) = true ∧
      cdOk State.reset.prof.rate 155000 0 (wordInt 0) = true) ∧
    rxInverts (takeFrontend [0, 0, 0, 0x10000, 0, 0, 0] {}) ≠ rxInverts {} := by decide +kernel

/-- A command that waits while code P runs; a fixed dispersion and a new T in MAINTENANCE from A3 on. -/
theorem witness_ReceiveCommands_commits :
    ((receiving .ready (fun r => { r with pend := [(0, 0x0233, [1])] }) [cmd 0x0233 [1]]).codeP = true ∧
      findJob 0 (receiving .ready (fun r => { r with pend := [(0, 0x0233, [1])] }) [cmd 0x0233 [1]]) ≠ none) ∧
    ((receiving .maintenance (fun r => { r with acq := 3, cdNext := some (40, true) }) []).pwr.mode ≠ .acquire ∧
      3 ≤ (receiving .maintenance (fun r => { r with acq := 3, cdNext := some (40, true) }) []).rx.acq ∧
      (receiving .maintenance (fun r => { r with acq := 3, cdNext := some (40, true) }) []).rx.cdNext =
        some (40, true) ∧
      (takeCd cdWords {}).cdFixedMode = true ∧ (takeCd cdSearch {}).cdFixedMode = false) ∧
    (([2] : List Word).getD 0 0).extractLsb' 0 2 ≠ State.reset.rx.cfg.tCode ∧
    (([3] : List Word).getD 0 0).extractLsb' 0 2 = State.reset.rx.cfg.tCode := by decide +kernel

/-- The same, with the datapath as given. -/
def pathed (n : Nat) (f : RxPath → RxPath) : State :=
  (acquiring n).onRx fun r => { r with path := f r.path }
/-- The meter has seen the threshold reached for 10 us, in a mode of A1. -/
def strong (fixed : Bool) : State :=
  (pathed 1 fun x => { x with meter := { x.meter with strong := 3037500 } }).onRx fun r =>
    { r with cfg := { r.cfg with cdFixedMode := fixed } }

theorem witness_AcquisitionMachine :
    (∀ n ∈ List.range 7, (acquiring n).rx.acq = n ∧ (acquiring n).rx.adcLocked = true ∧
      (acquiring n).rx.cfg.cdFixedMode = false ∧ (acquiring n).rx.timingLocked = true ∧
      (acquiring n).rx.carrierLocked = true ∧ 4 ≤ (acquiring n).rx.snrRun ∧
      (acquiring n).codeP = true) ∧
    (∀ b ∈ [true, false], (strong b).rx.acq = 1 ∧ (strong b).rx.adcLocked = true ∧
      10 * usSamples (feedCodes [] (strong b)).prof.rate ≤ (feedCodes [] (strong b)).rx.path.meter.strong ∧
      (feedCodes [] (strong b)).rx.cfg.cdFixedMode = b) ∧
    (acquiring 1).rx.path.meter.strong < 10 * usSamples (acquiring 1).prof.rate ∧
    ((receiving .acquire (fun r => { r with acq := 4, snrRun := 3 }) []).rx.snrRun < 4 ∧
      (receiving .acquire (fun r => { r with acq := 1 }) []).rx.adcLocked = false) ∧
    ((feedCodes [] (pathed 2 fun x => { x with meter := { x.meter with step := true } })).rx.path.meter.step = true ∧
      (feedCodes [] (acquiring 2)).rx.path.meter.step = false ∧
      (feedCodes [] (acquiring 2)).rx.path.meter.squares.length < usSamples (acquiring 2).prof.rate) ∧
    State.reset.codeP = false ∧
    ((at' .traffic []).pwr.mode = .traffic ∧
      (circAt (onCirc 3 (fun c => { c with created := true, config := 0x1F0 }) (at' .traffic [])) 3).created =
        true ∧
      clientLoop (onCirc 3 (fun c => { c with created := true, config := 0x1F0 }) (at' .traffic [])) 3 = false) :=
  by decide +kernel

/-- 1 us of codes at zero, against a threshold and against none. -/
theorem witness_AcquisitionMachine_los :
    usSamples 1080 ≤ (List.replicate (usSamples 1080) 0 : List Nat).length ∧
    powerReaches 1080 1 { squares := List.replicate (usSamples 1080) 0 } = false ∧
    powerReaches 1080 0 { squares := List.replicate (usSamples 1080) 0 } = true := by
  have h : lastPower 1080 { squares := List.replicate (usSamples 1080) 0 } = 0 := by
    simp [lastPower, Rat.div_def, Rat.zero_mul]
  refine ⟨by simp, ?_, ?_⟩ <;> simp only [powerReaches, h, List.length_replicate] <;> decide +kernel

theorem witness_AcquisitionMachine_exits :
    (250 * scanTime (acquiring 2).rx.cfg (acquiring 2).prof.rate ≤
        ((later 10000000000 (acquiring 2)).evt.period - (acquiring 2).rx.since).toNat ∧
      (fineCd (acquiring 2).rx.cfg (acquiring 2).prof.rate 0 24).isSome = true ∧
      fineCd (acquiring 2).rx.cfg (acquiring 2).prof.rate 0 25 = none) ∧
    ((3500000 : Int).natAbs ≤ 3500000 ∧ 3500000 < (-3500001 : Int).natAbs ∧
      1048576 ≤ ((later 971 (acquiring 3)).evt.period - (acquiring 3).rx.since).toNat *
        (acquiring 3).prof.rate) ∧
    (∀ n ∈ [2, 3, 4, 5], limitPassed (later 10000000000 (acquiring n)) = true ∧
      limitPassed (acquiring n) = false) ∧
    ((pathed 4 fun x => { x with quiet := 27000000 }).prof.rate * 25000 ≤
        (pathed 4 fun x => { x with quiet := 27000000 }).rx.path.quiet ∧
      (acquiring 4).rx.path.quiet < (acquiring 4).prof.rate * 25000 ∧
      (pathed 4 fun x => { x with stray := true }).rx.path.stray = true ∧
      (acquiring 4).rx.path.stray = false ∧
      (pathed 4 fun x => { x with wild := true }).rx.path.wild = true ∧ (acquiring 4).rx.path.wild = false) ∧
    (heldFromLock ((acquiring 0).onRx fun r => { r with held := some { since := 0, acq := 6 } }) = true ∧
      ((acquiring 0).onRx fun r => { r with held := some { since := 0, acq := 6 } }).rx.held =
        some { since := 0, acq := 6 } ∧
      heldFromLock (acquiring 1) = false) := by decide +kernel

/-- An LO message. -/
def loMsg (retries : Nat) : LoMsg := { step := true, seq := 1, value := 1000, retries := retries }
/-- LO steering on, the machine in A5, with the offsets of the interval so far. -/
def steering (x : Option LoMsg) (fs : List Int) : State :=
  receiving .acquire (fun r => { r with
    acq := 5, loMsg := x, loFrames := fs, cfg := { r.cfg with loEnable := true, loInterval := 0 } }) []
/-- Tracking on, the machine in A6 with the dispersion d. -/
def tracking (d : Rat) : State :=
  receiving .traffic (fun r => { r with
    acq := 6, cdApplied := d, cfg := { r.cfg with cdTrack := true } }) []

theorem witness_ReceivedFramesAndSteering :
    (∀ n ∈ List.range 7, (acquiring n).codeP = true ∧ (acquiring n).rx.pend = [] ∧
      (acquiring n).rx.cdNext = none ∧ (acquiring n).rx.acq = n) ∧
    ((receiving .acquire (fun r => { r with acq := 3, restarted := true, frames := 7 }) []).rx.restarted = true ∧
      7 ≤ (receiving .acquire (fun r => { r with acq := 3, restarted := true, frames := 7 }) []).rx.frames) ∧
    (syncGood (feedCodes [] (pathed 6 fun x =>
        { x with corr := [{ re := 1, im := 0 }, { re := 2, im := 0 }] })).rx.path = false ∧
      (receiving .traffic (fun r => { r with acq := 6, syncFails := 3 }) []).rx.syncFails = 3) ∧
    ((receiving .traffic (fun r => { r with cdNext := some (40, true) }) []).codeP = true ∧
      (receiving .traffic (fun r => { r with cdNext := some (40, true) }) []).rx.cdNext = some (40, true) ∧
      (receiving .traffic (fun r => { r with cdNext := some (40, true) }) []).rx.acq = 0) ∧
    State.reset.codeP = false ∧ (at' .traffic []).skim.capture ≠ .armed ∧
    (((later 249999 (acquiring 0)).evt.period - (acquiring 0).rx.clipAt).toNat < 250000 ∧
      250000 ≤ ((later 250000 (acquiring 0)).evt.period - (acquiring 0).rx.clipAt).toNat) ∧
    ((tracking 0).rx.acq = 6 ∧ (tracking 0).rx.cfg.cdTrack = true ∧
      250000000 ≤ ((later 250000000 (tracking 0)).evt.period - (tracking 0).rx.cdAt).toNat ∧
      ((later 249999999 (tracking 0)).evt.period - (tracking 0).rx.cdAt).toNat < 250000000 ∧
      absRat (((100 : Int) : Rat) - (tracking 0).rx.cdApplied) > 20 * rateScale (tracking 0).prof.rate ∧
      absRat (((0 : Int) : Rat) - (tracking 0).rx.cdApplied) ≤ 20 * rateScale (tracking 0).prof.rate ∧
      cdOk (tracking 0).prof.rate (tracking 0).rx.cfg.lambda (tracking 0).rx.cfg.nCode
        (0 + 20 * rateScale (tracking 0).prof.rate) = true ∧
      cdOk (tracking 0).prof.rate (tracking 0).rx.cfg.lambda (tracking 0).rx.cfg.nCode
        (200000 + 20 * rateScale (tracking 0).prof.rate) = false) := by decide +kernel

/-- The machine taken from A6 in this cycle, three syncs of it failed, and the datapath's sync good or not. -/
def heldSync (fails : Nat) (corr : List Cx) : State :=
  (pathed 0 fun x => { x with corr := corr }).onRx fun r =>
    { r with held := some { since := 0, acq := 6, syncFails := fails } }

theorem witness_ReceivedFramesAndSteering_held :
    ((heldSync 3 [{ re := 1, im := 0 }, { re := 2, im := 0 }]).rx.acq = 0 ∧
      (heldSync 3 []).rx.held = some { since := 0, acq := 6, syncFails := 3 } ∧
      (heldSync 3 []).evt.period = 0 ∧
      syncGood (heldSync 3 [{ re := 1, im := 0 }, { re := 2, im := 0 }]).rx.path = false) ∧
    ((heldSync 2 []).rx.held = some { since := 0, acq := 6, syncFails := 2 } ∧ ¬ (3 : Nat) ≤ 2) := by
  decide +kernel

/-- A clipped sample and one that is not, and CLIPPING 1 ms later. -/
theorem witness_ReceivedFramesAndSteering_clipped :
    ((takeCodes (codes 127) {}).clips.drop 0 ≠ [] ∧ (takeCodes (codes 0) {}).clips.drop 0 = []) ∧
    (((acquiring 1).onRx fun r => { r with clippedAt := some 0 }).rx.clippedAt = some 0 ∧
      ((later 249999 (acquiring 1)).evt.period - 0).toNat < 250000) := by decide +kernel

/-- The whey detector's periods are worked out, not yet, or have decided. -/
theorem witness_ReceivedFramesAndSteering_whey :
    (4 ≤ (pathed 4 fun x => { x with period := 30000 }).rx.acq ∧
      (pathed 4 fun x => { x with period := 30000 }).rx.path.decided = none ∧
      (pathed 4 fun x => { x with decided := some true }).rx.path.decided ≠ none ∧ (acquiring 3).rx.acq < 4) ∧
    (kSpan (rxProf (pathed 4 fun x => { x with period := 30000 })) + 1025 ≤ dataBefore 30000 ∧
      dataBefore 1024 < kSpan (rxProf (pathed 4 fun x => { x with period := 1024 })) + 1025) ∧
    (pathed 4 fun x => { x with period := 30000 }).codeP = true := by decide +kernel

/-- A frame whose sync correlates as it should counts as found where the detector of this implementation
finds that power. -/
theorem witness_sync_found (h : Config.syncDetected 2 = true) :
    syncGood { corr := [{ re := 1, im := 0 }, {}, {}, { re := 1, im := 0 }] } = true := by
  have e : ({ re := 1, im := 0 } : Cx).power + ({ re := 1, im := 0 } : Cx).power = 2 := by decide +kernel
  simp only [syncGood, List.getD_cons_zero, List.getD_cons_succ, e, h]
  decide +kernel

theorem witness_ReceivedFramesAndSteering_lo :
    ((steering none [10001]).rx.cfg.loEnable = true ∧ 5 ≤ (steering none [10001]).rx.acq ∧
      (steering none [10001]).rx.loMsg = none ∧
      (steering none [10001]).rx.loFrames.take (loIntervalFrames (steering none []).rx.cfg.loInterval.toNat) =
        [10001] ∧
      loIntervalFrames (steering none []).rx.cfg.loInterval.toNat = 1 ∧
      ((1000 * (steering none []).rx.cfg.deadband.toNat : Nat) : Rat) < absRat (10001 / 1) ∧
      absRat (-10000 / 1) ≤ ((1000 * (steering none []).rx.cfg.deadband.toNat : Nat) : Rat) ∧
      ((steering none []).rx.loSum +
        nearest ((10001 : Rat) / (2 ^ (steering none []).rx.cfg.loGain.toNat : Nat))).natAbs ≤
          1000 * (steering none []).rx.cfg.loRange.toNat) ∧
    (((steering none []).rx.loFrames.take 1).length < 1 ∧
      250000000 ≤ ((later 250000000 (steering none [])).evt.period - (steering none []).rx.loSentAt).toNat ∧
      ((later 249999999 (steering none [])).evt.period - (steering none []).rx.loSentAt).toNat < 250000000) ∧
    ((steering (some (loMsg 2)) []).rx.loMsg = some (loMsg 2) ∧ (loMsg 2).failed = false ∧
      2500 ≤ ((later 2500 (steering none [])).evt.period - (steering none []).rx.loSentAt).toNat ∧
      ((later 2499 (steering none [])).evt.period - (steering none []).rx.loSentAt).toNat < 2500 ∧
      (loMsg 2).retries < (steering none []).rx.cfg.loRetries.toNat ∧
      (steering none []).rx.cfg.loRetries.toNat ≤ (loMsg 3).retries) ∧
    ((steering (some { loMsg 3 with failed := true }) [10001]).rx.loMsg = some { loMsg 3 with failed := true } ∧
      (steering (some { loMsg 3 with failed := true }) [10001]).rx.loFrames.take 1 = [10001]) := by
  decide +kernel

/-! ### Decoder fabric and settling vat -/

/-- The fabric as given in a mode, with commands. -/
def fabric (m : Mode) (f : Dec → Dec) (jobs : List Job) : State := (at' m jobs).onDec f
/-- Churn c as given, every churn that is not given as at reset. -/
def churning (c : Nat) (x : Churn) (jobs : List Job) : State := onChurn c (fun _ => x) (at' .traffic jobs)

/-- OP_DEC_CONFIG at the ends of its ranges: ITER_WHEY 2, 16 iterations, BUDGET 256, DEADLINE 6000. -/
def decWords : List Word := [2 * 256 + 15 * 16 + 15, 256 * 65536 + 6000, 1]
/-- And the other ends, with the release mode and deadline of reset. -/
def decWords' : List Word := [0x1000, 16 * 65536 + 900, 1]
/-- The shares that sum to 792. -/
def shareWords : List Word := [88, 88, 88, 88, 88, 88, 88, 88, 88]

theorem witness_DecoderCommands_config :
    (Taken 0x0240 3 0 (cmd 0x0240 decWords) (one .ready 0x0240 decWords) ∧
      Taken 0x0240 3 0 (cmd 0x0240 decWords) (one .maintenance 0x0240 decWords) ∧
      Taken 0x0240 3 0 (cmd 0x0240 decWords) (one .traffic 0x0240 decWords) ∧
      (decCfgOf (cmd 0x0240 decWords)).deadline ≠ State.reset.dec.cfg.deadline) ∧
    (Taken 0x0240 3 0 (cmd 0x0240 decWords') (one .traffic 0x0240 decWords') ∧
      (decCfgOf (cmd 0x0240 decWords')).fixed = State.reset.dec.cfg.fixed ∧
      (decCfgOf (cmd 0x0240 decWords')).deadline = State.reset.dec.cfg.deadline) ∧
    (∀ d ∈ [decCfgOf (cmd 0x0240 decWords), decCfgOf (cmd 0x0240 decWords')],
      d.iterWhey ≤ 2 ∧ d.iterMin ≤ d.iterMax ∧ 16 ≤ d.budget ∧ d.budget ≤ 256 ∧
      100 ≤ d.deadline ∧ d.deadline ≤ 6000 ∧ 1 ≤ d.bank) ∧
    (Taken 0x0240 3 0 (cmd 0x0240 [0x10, 0, 0]) (one .ready 0x0240 [0x10, 0, 0]) ∧
      (decCfgOf (cmd 0x0240 [0x10, 0, 0])).iterMax < (decCfgOf (cmd 0x0240 [0x10, 0, 0])).iterMin) :=
  ⟨⟨taken_of_check (by decide +kernel), taken_of_check (by decide +kernel),
    taken_of_check (by decide +kernel), by decide +kernel⟩,
   ⟨taken_of_check (by decide +kernel), by decide +kernel⟩, by decide +kernel,
   taken_of_check (by decide +kernel), by decide +kernel⟩

/-- The values out of range word by word, and a change of the release mode in TRAFFIC. -/
theorem witness_DecoderCommands_refusals :
    ([(Mode.ready, [0x300, 16 * 65536 + 100, 1]), (.ready, [0x1000, 15 * 65536 + 100, 1]),
      (.ready, [0x1000, 16 * 65536 + 99, 1]), (.ready, [0x1000, 257 * 65536 + 6000, 1]),
      (.ready, [0x1000, 256 * 65536 + 6001, 1]), (.ready, [0x1000, 16 * 65536 + 100, 0]),
      (.traffic, [0x800, 16 * 65536 + 900, 1])].all fun c =>
        takenCheck 0x0240 3 0 (cmd 0x0240 c.2) (one c.1 0x0240 c.2)) = true ∧
    2 < (decCfgOf (cmd 0x0240 [0x300, 16 * 65536 + 100, 1])).iterWhey ∧
    (decCfgOf (cmd 0x0240 [0x1000, 15 * 65536 + 100, 1])).budget < 16 ∧
    (decCfgOf (cmd 0x0240 [0x1000, 16 * 65536 + 99, 1])).deadline < 100 ∧
    (decCfgOf (cmd 0x0240 [0x1000, 16 * 65536 + 100, 0])).bank = 0 ∧
    (decCfgOf (cmd 0x0240 [0x800, 16 * 65536 + 900, 1])).fixed ≠ State.reset.dec.cfg.fixed := by decide +kernel

theorem witness_DecoderCommands_churn :
    (Taken 0x0241 1 0 (cmd 0x0241 [256 + 31]) (churning 31 { started := true } [cmd 0x0241 [256 + 31]]) ∧
      bit (256 + 31 : Word) 8 = true ∧ fld (256 + 31 : Word) 4 0 = 31 ∧
      (churnAt (churning 31 { started := true } []) 31).serves = true) ∧
    (Taken 0x0241 1 0 (cmd 0x0241 [256]) (one .traffic 0x0241 [256]) ∧
      (churnAt (one .traffic 0x0241 []) 0).serves = false) ∧
    (Taken 0x0241 1 0 (cmd 0x0241 [31])
        (onChurn 0 (fun x => { x with started := true })
          (churning 31 { started := true } [cmd 0x0241 [31]])) ∧
      bit (31 : Word) 8 = false ∧
      (∃ o, o < 32 ∧ o ≠ 31 ∧ usable (onChurn 0 (fun x => { x with started := true })
        (churning 31 { started := true } [cmd 0x0241 [31]])) o = true) ∧
      (churnAt (onChurn 0 (fun x => { x with started := true })
        (churning 31 { started := true } [])) 31).serves = true) ∧
    (Taken 0x0241 1 0 (cmd 0x0241 [0]) (churning 31 { started := true } [cmd 0x0241 [0]]) ∧
      (∃ o, o < 32 ∧ o ≠ 0 ∧ usable (churning 31 { started := true } [cmd 0x0241 [0]]) o = true) ∧
      (churnAt (churning 31 { started := true } []) 0).serves = false) ∧
    (Taken 0x0241 1 0 (cmd 0x0241 [31]) (churning 31 { started := true } [cmd 0x0241 [31]]) ∧
      ∀ o, o < 32 → o ≠ 31 → usable (churning 31 { started := true } [cmd 0x0241 [31]]) o = false) :=
  ⟨⟨taken_of_check (by decide +kernel), by decide +kernel⟩,
   ⟨taken_of_check (by decide +kernel), by decide +kernel⟩,
   ⟨taken_of_check (by decide +kernel), by decide +kernel, ⟨0, by decide +kernel⟩, by decide +kernel⟩,
   ⟨taken_of_check (by decide +kernel), ⟨31, by decide +kernel⟩, by decide +kernel⟩,
   ⟨taken_of_check (by decide +kernel), by decide +kernel⟩⟩

theorem witness_DecoderCommands_ends :
    ((churnAt (churning 5 { started := true, draining := [0] } [cmd 0x0241 [5]]) 5).draining = [0] ∧
      slotsUsed (churning 5 { started := true, draining := [0] } []).dec 5 = 0 ∧
      (churnAt (one .traffic 0 []) 5).draining = []) ∧
    (∃ x, churnAt (churning 5 { started := true, dumping := true, again := true } []) 5 = x ∧
      x.dumping = true ∧ x.again = true ∧ x.returning = []) ∧
    (∃ x, churnAt (churning 5 { started := true, dumping := true } []) 5 = x ∧
      x.dumping = true ∧ x.again = false ∧ x.started = true ∧ x.offCmd = false ∧ x.offFault = false) ∧
    (∃ x, churnAt (churning 5 { started := true, offCmd := true, returning := [0] }
        [cmd 0x0241 [256 + 5]]) 5 = x ∧
      x.dumping = false ∧ x.returning = [0] ∧ x.started = true ∧
      findJob 0 (churning 5 { started := true, offCmd := true, returning := [0] }
        [cmd 0x0241 [256 + 5]]) = some (cmd 0x0241 [256 + 5])) ∧
    (Taken 0x0120 9 0 (cmd 0x0120 shareWords) (one .standby 0x0120 shareWords) ∧
      (sharesOf (cmd 0x0120 shareWords)).sum = 792) ∧
    (Taken 0x0120 9 0 (cmd 0x0120 (89 :: shareWords.tail)) (one .standby 0x0120 (89 :: shareWords.tail)) ∧
      792 < (sharesOf (cmd 0x0120 (89 :: shareWords.tail))).sum) ∧
    ((at' .standby []).codeS = true ∧ (at' .standby []).dec.sharesPend = [] ∧
      (fabric .standby (fun d => { d with sharesPend := [(0, [])] }) [cmd 0x0120 []]).dec.sharesPend =
        [(0, [])] ∧ State.reset.codeS = false ∧
      250 ≤ ((later 250 (at' .standby [])).evt.period - (at' .standby []).dec.windowAt).toNat ∧
      ((later 249 (at' .standby [])).evt.period - (at' .standby []).dec.windowAt).toNat < 250) ∧
    (let d := { State.reset.dec with
       credits := [0, 1], requests := [request 0 7 3, request 1 7 5, request 1 7 9] }
     grantOf 5 7 d = some (request 1 7 5) ∧ grantOf 4 7 d = some (request 0 7 3) ∧
       grantOf 2 7 d = none ∧ request 0 7 3 ∈ d.requests ∧ (request 0 7 3).port = 7 ∧
       (request 0 7 3).entered ≤ (5 : Int) ∧ holdsCredit d.credits (request 0 7 3) = false) :=
  ⟨by decide +kernel, ⟨_, rfl, by decide +kernel⟩, ⟨_, rfl, by decide +kernel⟩,
   ⟨_, rfl, by decide +kernel⟩, ⟨taken_of_check (by decide +kernel), by decide +kernel⟩,
   ⟨taken_of_check (by decide +kernel), by decide +kernel⟩, by decide +kernel, by decide +kernel⟩

/-- A leaf with two requests, and one whose requests are still to come. -/
theorem witness_DecoderCommands_leaves :
    leafOut 5 [request 7 7 5, request 8 7 3] = (some (request 8 7 3), [request 7 7 5]) ∧
    leafOut 4 [request 7 7 5] = (none, [request 7 7 5]) ∧
    (∀ m ∈ [1, 6, 7, 8, 2, 3, 4, 5, 0], (request m 7 5).master = m) := by decide +kernel

/-- A block of the given place and count. -/
def decBlock (p : Place) (done : Nat) : DecBlock :=
  { seq := 7, frame := 0, index := 2, arrival := 0, deadline := 1000000, limit := 16, done := done, place := p }
/-- A fabric in A5 that holds the block. -/
def inFabric (b : DecBlock) : State :=
  (fabric .acquire (fun d => { d with blocks := [b] }) []).onRx fun r => { r with acq := 5 }

/-- A fabric in A5 whose codes have given the LLRs so far. -/
def collected (llrs : List Int) : State :=
  (inFabric (decBlock .none 0)).onRx fun r => { r with path := { r.path with llrs := llrs } }

theorem collected_llrs (llrs : List Int) :
    (feedCodes [] (collected llrs)).rx.path.llrs = llrs ∧ 5 ≤ (collected llrs).rx.acq ∧
    (collected llrs).codeP = true := ⟨rfl, by show (5 : Nat) ≤ 5; decide, rfl⟩

/-- A block's worth of LLRs, and one short of it. -/
theorem witness_DecoderBlocks_llrs :
    16384 ≤ (feedCodes [] (collected (List.replicate 16384 0))).rx.path.llrs.length ∧
    (feedCodes [] (collected (List.replicate 16383 0))).rx.path.llrs.length < 16384 := by
  rw [(collected_llrs _).1, (collected_llrs _).1, List.length_replicate, List.length_replicate]
  decide

/-- The block whose last symbol was sampled at the first sample has arrived by the sample count, or not yet. -/
theorem witness_DecoderBlocks_counted :
    (collected []).rx.path.ends.headD 0 = 0 ∧
    arrivalOf (collected []) 0 ≤ 10 ^ 12 ∧ (0 : Nat) < arrivalOf (collected []) 0 := by decide +kernel

theorem witness_DecoderBlocks_arrival :
    ((inFabric (decBlock .none 0)).codeP = true ∧ 5 ≤ (inFabric (decBlock .none 0)).rx.acq ∧
      State.reset.codeP = false) ∧
    (((decBlock .none 0).index < 2 ∨ wheyDecided (inFabric (decBlock .none 0)) 0 = false) ∧
      dispatchTo (inFabric (decBlock .none 0)) = none ∧
      dispatchTo (onChurn 4 (fun x => { x with started := true }) (inFabric (decBlock .none 0))) = some 4) ∧
    (2 ≤ (decBlock .none 0).index ∧
      wheyDecided ((inFabric (decBlock .none 0)).onRx fun r => { r with decisions := [(0, false)] }) 0 = true ∧
      (inFabric (decBlock .none 0)).dec.cfg.iterWhey = 0) ∧
    (∃ x, findBlock 7 (inFabric { decBlock .none 3 with cause := some .passed }) = some x ∧ x.cause ≠ none) ∧
    (findBlock 7 (inFabric (decBlock (.running 4) 0)) = some (decBlock (.running 4) 0) ∧
      (decBlock (.running 4) 0).cause = none ∧ (decBlock (.running 4) 0).place = .running 4) := by
  refine ⟨by decide +kernel, by decide +kernel, by decide +kernel, ⟨_, rfl, by decide +kernel⟩,
    by decide +kernel⟩

/-- The slot's first word has two flipped bits. -/
def badSlot (c : Nat) (p : Place) : State := setCell 0 (c * 2 ^ 17) { valid := true, flips := 3 } (inFabric (decBlock p 0))

/-- What an iteration decides: the CRC passes or not, and each clause's other conditions hold of a block
whose words all read. -/
theorem witness_DecoderBlocks_iteration :
    (findBlock 7 (inFabric (decBlock (.running 4) 0)) = some (decBlock (.running 4) 0) ∧
      workDone 1024 0 (decBlock (.running 4) 0) (inFabric (decBlock (.running 4) 0)) = false ∧
      workDone 1024 1000000 (decBlock (.running 4) 0) (inFabric (decBlock (.running 4) 0)) = true ∧
      (readSlot 4 0 (inFabric (decBlock (.running 4) 0))).1.isSome = true ∧
      (readSlot 4 0 (badSlot 4 (.running 4))).1 = none) ∧
    ((decBlock (.running 4) 15).limit ≤ (decBlock (.running 4) 15).done + 1 ∧
      (decBlock (.running 4) 14).done + 1 < (decBlock (.running 4) 14).limit) ∧
    (tooLate (inFabric (decBlock (.running 4) 0)) 1000000 0 (decBlock (.running 4) 0) = true ∧
      tooLate (inFabric (decBlock (.running 4) 0)) 0 0 (decBlock (.running 4) 0) = false) ∧
    findBlock 8 (inFabric (decBlock (.running 4) 0)) = none ∧
    (findBlock 7 (inFabric (decBlock (.waiting 4) 0)) = some (decBlock (.waiting 4) 0) ∧
      tooLate (inFabric (decBlock (.waiting 4) 0)) 1000000 0 (decBlock (.waiting 4) 0) = true ∧
      tooLate (inFabric (decBlock (.waiting 4) 0)) 0 0 (decBlock (.waiting 4) 0) = false) := by
  decide +kernel

/-- A transfer from churn 9 to churn 4, which takes 165 cycles. -/
theorem witness_DecoderBlocks_steal :
    (findBlock 7 (inFabric (decBlock (.transit 9 4 true) 0)) = some (decBlock (.transit 9 4 true) 0) ∧
      workDone (160 + (9 + 32 - 4) % 32) 0 (decBlock (.transit 9 4 true) 0)
        (inFabric (decBlock (.transit 9 4 true) 0)) = false ∧
      workDone (160 + (9 + 32 - 4) % 32) 1000000 (decBlock (.transit 9 4 true) 0)
        (inFabric (decBlock (.transit 9 4 true) 0)) = true ∧
      (readSlot 9 0 (inFabric (decBlock (.transit 9 4 true) 0))).1.isSome = true ∧
      (readSlot 9 0 (badSlot 9 (.transit 9 4 true))).1 = none) := by decide +kernel

theorem witness_DecoderBlocks_release :
    (findBlock 7 (inFabric (decBlock (.transit 9 4 true) 2)) = some (decBlock (.transit 9 4 true) 2) ∧
      budgetOk (inFabric (decBlock (.transit 9 4 true) 2)) (decBlock (.transit 9 4 true) 2) = false ∧
      budgetOk ((inFabric (decBlock (.transit 9 4 true) 2)).onDec fun d => { d with account := 16 })
        (decBlock (.transit 9 4 true) 2) = true) ∧
    findBlock 7 (inFabric { decBlock (.final 4) 2 with cause := some .passed }) =
      some { decBlock (.final 4) 2 with cause := some .passed } ∧
    (∃ x, (inFabric { decBlock .none 2 with cause := some .maxIter }).dec.blocks = x :: [] ∧
      releasable (inFabric { decBlock .none 2 with cause := some .maxIter }) 0 x = true ∧
      (readEntry x (inFabric { decBlock .none 2 with cause := some .maxIter })).1.isSome = true) ∧
    (∃ x, (inFabric (decBlock .none 2)).dec.blocks = x :: [] ∧ x.cause = none) ∧
    (inFabric { decBlock (.final 4) 2 with cause := some .passed }).dec.blocks ≠ [] ∧
    (at' .acquire []).dec.blocks = [] := by
  refine ⟨by decide +kernel, by decide +kernel,
    ⟨_, rfl, by decide +kernel⟩, ⟨_, rfl, rfl⟩, by decide +kernel, by decide +kernel⟩

/-- Its vat entry's first word is poisoned. -/
theorem witness_DecoderBlocks_poisoned :
    releasable (setCell 1 (entryAddr State.reset.prof 7) { valid := true, poison := true }
      (inFabric { decBlock .none 2 with cause := some .passed, written := true })) 0
      { decBlock .none 2 with cause := some .passed, written := true } = true ∧
    (readEntry { decBlock .none 2 with cause := some .passed, written := true }
      ((setCell 1 (entryAddr State.reset.prof 7) { valid := true, poison := true }
        (inFabric { decBlock .none 2 with cause := some .passed, written := true })).onDec fun d =>
          { d with now := max d.now 0 })).1 = none := by decide +kernel

/-! ### Circuit encryption. MACs, wrapped keys, the signature and its key are computed outside the
model from the standards' definitions. -/

/-- FIPS 197 appendix C.3, RFC 3394 section 4.6, and FIPS 180-4's digests of abc. -/
theorem test_primitives :
    aes256 0x000102030405060708090A0B0C0D0E0F101112131415161718191A1B1C1D1E1F
      0x00112233445566778899AABBCCDDEEFF = 0x8EA2B7CA516745BFEAFC49904B496089 ∧
    (keyUnwrap (natBe 32 0x000102030405060708090A0B0C0D0E0F101112131415161718191A1B1C1D1E1F)
      (natBe 40 0x28C9F404C4B810F4CBCCB35CFB87F8263F5786E2D80ED326CBC7F0E71A99F43BFB988B9B7A02DD21)) =
      some (natBe 32 0x00112233445566778899AABBCCDDEEFF000102030405060708090A0B0C0D0E0F) ∧
    beNat (sha256 [0x61, 0x62, 0x63]) =
      0xBA7816BF8F01CFEA414140DE5DAE2223B00361A396177A9CB410FF61F20015AD ∧
    beNat (sha384 [0x61, 0x62, 0x63]) =
      0xCB00753F45A35E8BB5A03D699AC65007272C32AB0EDED1631A8B605A43FF5BED8086072BA1E7CC2358BAECA134C825A7 := by
  decide +kernel

/-- The officer's two keys. -/
def officer : List Byte × List Byte := (List.replicate 32 0x0B, List.replicate 32 0x0C)
/-- A signed command of privilege 1 with SEQ 1 and a MAC. -/
def signed' (op : Nat) (ps : List Word) (mac : Nat) : Job :=
  { cmd op (ps ++ [1, 0] ++ bytesWords (natBe 32 mac)) with auth := true, priv := 1 }
/-- A state with the officer enrolled. -/
def enrolled (m : Mode) (f : Cry → Cry) (jobs : List Job) : State :=
  (at' m jobs).onCry fun y => f { y with officer := some officer }
/-- Context c as given. -/
def context (c : Nat) (x : Ctx) (s : State) : State :=
  s.onCry fun y => { y with ctx := tabMod {} y.ctx c (fun _ => x) }

def keyJob : Job := signed' 0x0410 ([7 + 65536] ++ bytesWords (natBe 48
  0x3F0E2DED323374CE64C34078ED4637EE76FAD9E7DBA5F4C4D970C544ECA130179DA5941A4A5C7252FBBC6D6CE46DB664))
  0xF519A323D81A24BAFFAE0E97FE240293F9FFBC1485027356E8FB9F4D3E858D04
def keyJobBad : Job := signed' 0x0410 ([7 + 65536] ++ List.replicate 12 0)
  0xDAA0D031E739A3DC41CE5C90C016263498D722B071782E13CE091D163A70FDC5
def eraseJob : Job := signed' 0x0411 [7 + 65536]
  0x871FAC1AEEA8B679180773FC3C56D54F1A2E901F7B5885BF28110155A8A05DC4
/-- Circuits 7 and 1023, at their next superframe or at an instant. -/
def switchJob (timed : Bool) : Job :=
  signed' 0x0420 ([word (b2n timed), 0, 0, 0, 128] ++ List.replicate 30 0 ++ [0x80000000])
    (if timed then 0x6156854EB8A674142A6E361EDE00FDFB33A8A811925C7E25358C41FFB6BF6472
     else 0x9E446FA63FAC88821F3564FAC473819AF7A5C1A94A0C865514B7AA88823EA3D4)
def switchNone : Job := signed' 0x0420 (List.replicate 36 0)
  0xDAB1DFBFA7353FF16F2072BE56AF95BF00F8AE253D39022C18BE6B3C25D0D5AB

/-- The record of OP_KEY_LOAD unwraps to key bytes 0 to 31, context 7, slot 1. -/
def keyRecord : List Byte := (List.range 32).map (BitVec.ofNat 8 ·) ++ [0, 7, 1, 0, 0, 0, 0, 0]

theorem mac_keyJob : macOk officer.1 keyJob = true := by decide +kernel
theorem mac_keyJobBad : macOk officer.1 keyJobBad = true := by decide +kernel
theorem mac_eraseJob : macOk officer.1 eraseJob = true := by decide +kernel
theorem mac_switchJob : macOk officer.1 (switchJob false) = true := by decide +kernel
theorem mac_switchTimed : macOk officer.1 (switchJob true) = true := by decide +kernel
theorem mac_switchNone : macOk officer.1 switchNone = true := by decide +kernel

theorem witness_CircuitKeys_load :
    (TakenSigned 0x0410 13 0 keyJob (enrolled .zeroised (fun y => { y with tamperPin := true }) [keyJob]) ∧
      pinsAsserted (enrolled .zeroised (fun y => { y with tamperPin := true }) [keyJob]) = true ∧
      keyJob.priv = 1) ∧
    (TakenSigned 0x0410 13 0 keyJob (enrolled .zeroised id [keyJob]) ∧
      fld (keyJob.param 0) 9 0 = 7 ∧ bit (keyJob.param 0) 16 = true ∧
      pinsAsserted (enrolled .zeroised id [keyJob]) = false ∧
      keyUnwrap officer.2 (paramBytes keyJob 4 48) = some keyRecord ∧ recordOk 7 true keyRecord = true ∧
      slotInUse (enrolled .zeroised id [keyJob]) 7 true = false) ∧
    (TakenSigned 0x0410 13 0 keyJob
        (context 7 { slot1 := .loaded, rxEpoch := true } (enrolled .traffic id [keyJob])) ∧
      slotInUse (context 7 { slot1 := .loaded, rxEpoch := true } (enrolled .traffic id [keyJob])) 7 true = true) ∧
    (TakenSigned 0x0410 13 0 keyJobBad (enrolled .ready id [keyJobBad]) ∧
      keyUnwrap officer.2 (paramBytes keyJobBad 4 48) = none ∧ keyJobBad.priv = 1) :=
  ⟨⟨signed_of_check (by decide +kernel) rfl mac_keyJob, by decide +kernel⟩,
   ⟨signed_of_check (by decide +kernel) rfl mac_keyJob, by decide +kernel⟩,
   ⟨signed_of_check (by decide +kernel) rfl mac_keyJob, by decide +kernel⟩,
   ⟨signed_of_check (by decide +kernel) rfl mac_keyJobBad, by decide +kernel⟩⟩

/-- Contexts 7 and 1023 with a key in slot 1, transmitting with slot 0. -/
def switchable (m : Mode) (jobs : List Job) : State :=
  context 1023 { slot1 := .loaded } (context 7 { slot1 := .loaded } (enrolled m id jobs))

theorem witness_CircuitKeys_switch :
    (TakenSigned 0x0411 1 0 eraseJob (enrolled .ready id [eraseJob]) ∧
      slotInUse (enrolled .ready id [eraseJob]) 7 true = false ∧
      TakenSigned 0x0411 1 0 eraseJob (context 7 { slot1 := .loaded, txEpoch := true }
        (enrolled .ready id [eraseJob])) ∧
      slotInUse (context 7 { slot1 := .loaded, txEpoch := true } (enrolled .ready id [eraseJob])) 7 true =
        true) ∧
    (TakenSigned 0x0420 36 0 (switchJob false) (switchable .traffic [switchJob false]) ∧
      switchCircuits (switchJob false) = BitVec.ofNat 1024 (2 ^ 1023 + 2 ^ 7) ∧
      (switchable .traffic [switchJob false]).cry.switches.length < 16 ∧
      ((List.range 1024).all fun d => !(BitVec.ofNat 1024 (2 ^ 1023 + 2 ^ 7)).getLsbD d ||
        (ctxAt (switchable .traffic [switchJob false]) d).fault == false &&
        (ctxAt (switchable .traffic [switchJob false]) d).holds
          (!(ctxAt (switchable .traffic [switchJob false]) d).txEpoch) &&
        !scheduled (switchable .traffic [switchJob false]) d) ∧
      bit ((switchJob false).param 0) 0 = false ∧ (switchable .traffic []).codeP = true) ∧
    (TakenSigned 0x0420 36 0 (switchJob false)
        ((switchable .ready [switchJob false]).onPwr fun p => { p with pRunning := false }) ∧
      ((switchable .ready [switchJob false]).onPwr fun p => { p with pRunning := false }).codeP = false) ∧
    (TakenSigned 0x0420 36 0 (switchJob true)
        ((switchable .traffic [switchJob true]).onTim fun t => { t with valid := true }) ∧
      tripleNs (triple96 ((switchJob true).param 1) ((switchJob true).param 2) ((switchJob true).param 3)) <
        1000000000) ∧
    (TakenSigned 0x0420 36 0 switchNone (enrolled .ready id [switchNone]) ∧
      switchCircuits switchNone = 0 ∧ bit (switchNone.param 0) 0 = false) :=
  ⟨⟨signed_of_check (by decide +kernel) rfl mac_eraseJob, by decide +kernel,
    signed_of_check (by decide +kernel) rfl mac_eraseJob, by decide +kernel⟩,
   ⟨signed_of_check (by decide +kernel) rfl mac_switchJob, by decide +kernel⟩,
   ⟨signed_of_check (by decide +kernel) rfl mac_switchJob, by decide +kernel⟩,
   ⟨signed_of_check (by decide +kernel) rfl mac_switchTimed, by decide +kernel⟩,
   ⟨signed_of_check (by decide +kernel) rfl mac_switchNone, by decide +kernel⟩⟩

/-- Context 1023 with an OLD slot. -/
def erasing (e : OldSlot) : State := context 1023 { slot0 := .old, erase := some e } (at' .traffic [])

theorem witness_CircuitKeys_events :
    (State.reset.codeP = false ∧ State.reset.cry.zeroising = false ∧ (at' .traffic []).codeP = true ∧
      (at' .zeroised []).pwr.mode = .zeroised ∧ State.reset.pwr.mode ≠ .zeroised) ∧
    ((ctxAt (erasing { slot := false, seen := true, opened := 3 }) 1023).erase =
        some { slot := false, seen := true, opened := 3 } ∧
      (ctxAt (erasing { slot := false, seen := true, opened := 2 }) 1023).erase =
        some { slot := false, seen := true, opened := 2 } ∧ (ctxAt (at' .traffic []) 1023).erase = none) ∧
    (9 ≤ (ctxAt (context 0 { lagOpens := 9 } (at' .traffic [])) 0).lagOpens ∧
      (ctxAt (context 0 { lagOpens := 9 } (at' .traffic [])) 0).lag = false ∧
      (ctxAt (context 0 { lagOpens := 8 } (at' .traffic [])) 0).lagOpens < 9) := by decide +kernel

/-- A superframe starts after one that the slot's count begins with, and the frame after it. -/
theorem witness_CircuitKeys_superframes :
    (16 : BitVec 64).toNat % 8 = 0 ∧ (17 : BitVec 64).toNat % 8 ≠ 0 ∧
    (ctxAt (erasing { slot := false, seen := true, opened := 2, first := 8 }) 1023).erase =
      some { slot := false, seen := true, opened := 2, first := 8 } := by decide +kernel

/-! #### Enrolment and the officer's commands -/

/-- The challenge of scalar 1, whose point is the generator. -/
def challenge : Challenge :=
  { scalar := natBe 48 1, nonce := List.replicate 16 0, issued := 0
    pub := natBe 97 0x04AA87CA22BE8B05378EB1C71EF320AD746E1D3B628BA79B9859F741E082542A385502F25DBF55296C3A545E3872760AB73617DE4A96262C6F5D9E98BF9292DC29F8F41DBD289A147CE9DA3113B5F0B8C00A60B1CE1D7E819D7A431D7C90EA0E5F }
/-- The officer's message: the generator again, the wrapped keys and a signature. -/
def enrolWords : List Word := bytesWords (challenge.pub ++ [0, 0, 0] ++
  natBe 72 0xA1C09EB85FCBF69475B475274D5FD60EAB7357EE4C1EF5EC761C736C1781FD72BA15C99BC8EC9EC16BF5AA0F5E1AB6E7D88430A15F75ED5CFC7E1C5CF5AE1E52EB9DDD2D40FE8363 ++
  natBe 48 0xC1F52CF991AA7C103D2A0DC4C537F4460D2884ECF562CB209B6FCB162D2B0A6472ED273B2DDDF95C559F2FAE0A926068 ++
  natBe 48 0xC1F52CF991AA7C103D2A0DC4C537F4460D2884ECF562CB209B6FCB162D2B0A6472ED273B2DDDF95C559F2FAE0A926068)
def enrolmentKey : List Byte :=
  natBe 97 0x04F9F78D541D13277334D7D48902B28D15217A881DB17EBD62392C8796C3C57FB68FC0DBB636EFE0C04334039E1EA2BCE81030F1133F3A1665352D09F5DF6EF8C4341D10CCF04C4C8B15BC81A698ED64B0D4F0F00F86F47945FC071E5FECB2957B
/-- An image with an enrolment key, or without one; and a challenge with it, or none. -/
def enrolImage (key : Option (List Byte)) : Image :=
  { source := .slotA, version := 0, security := 0, bodyLength := 0, enrolKey := key, body := [] }
def enrolling (key : Option (List Byte)) (ch : Option Challenge) : State :=
  ((one .ready 0x0401 enrolWords).onPwr fun p => { p with image := some (enrolImage key) }).onCry
    fun y => { y with challenge := ch }

theorem enrolment_verifies :
    enrolKeys enrolmentKey challenge (paramBytes (cmd 0x0401 enrolWords) 0 97)
      (paramBytes (cmd 0x0401 enrolWords) 100 72) (paramBytes (cmd 0x0401 enrolWords) 172 96) =
      some (officer.1 ++ officer.2) := by decide +kernel

theorem witness_OfficerCommands_enrolment :
    (Taken 0x0400 0 0 (cmd 0x0400 []) (one .ready 0x0400 []) ∧
      Taken 0x0401 0 0 (cmd 0x0401 [0]) (one .ready 0x0401 [0]) ∧ (cmd 0x0401 [0]).params.length < 67 ∧
      (one .ready 0x0401 [0]).cry.challenge = none) ∧
    (Taken 0x0401 67 0 (cmd 0x0401 enrolWords) (enrolling (some enrolmentKey) (some challenge)) ∧
      paramBytes (cmd 0x0401 enrolWords) 97 3 = [0, 0, 0] ∧
      (enrolling (some enrolmentKey) (some challenge)).cry.officer = none ∧
      (enrolling (some enrolmentKey) (some challenge)).cry.challenge = some challenge ∧
      ((enrolling (some enrolmentKey) (some challenge)).pwr.image.bind fun i => i.enrolKey) =
        some enrolmentKey ∧
      pinsAsserted (enrolling (some enrolmentKey) (some challenge)) = false) ∧
    (Taken 0x0401 67 0 (cmd 0x0401 enrolWords) (enrolling none (some challenge)) ∧
      ((enrolling none (some challenge)).pwr.image.bind fun i => i.enrolKey) = none) ∧
    (Taken 0x0401 67 0 (cmd 0x0401 enrolWords) (enrolling none none) ∧
      (enrolling none none).cry.challenge = none) ∧
    (Taken 0x0401 67 0 (cmd 0x0401 enrolWords) (enrolled .ready id [cmd 0x0401 enrolWords]) ∧
      (enrolled .ready id []).cry.officer = some officer) ∧
    (60 * 250000000 ≤ (((enrolling none (some challenge)).onEvt fun e =>
        { e with period := 15000000000 }).evt.period - challenge.issued).toNat ∧
      ((enrolling none (some challenge)).evt.period - challenge.issued).toNat < 60 * 250000000) :=
  ⟨⟨taken_of_check (by decide +kernel), taken_of_check (by decide +kernel), by decide +kernel⟩,
   ⟨taken_of_check (by decide +kernel), by decide +kernel⟩,
   ⟨taken_of_check (by decide +kernel), by decide +kernel⟩, ⟨taken_of_check (by decide +kernel), by decide +kernel⟩,
   ⟨taken_of_check (by decide +kernel), by decide +kernel⟩, by decide +kernel⟩

def configJob : Job := signed' 0x0403 [0x10008]
  0xBE786F348CC442FB5733C45309A62844287BDFA405E97527F87D682B30F224A7
def configJobBad : Job := signed' 0x0403 [0]
  0x074EFBC4FE34933D10C298F0CEC9F94F7BEF40B7F7136183CD5551140A999DC5
def updateJob : Job := signed' 0x0402 (bytesWords (natBe 72
  0xF0761605335E81AC756DC670DE1E694E7E701F72D3CC310AF2F3B7187FE689550B3048C6466884CBEDE79B7386C74700CC1BD58FA832CE9AF51F7D9CDFC92DD55BDD7D36776E56BA))
  0xC65EC72313701C4F3905172988252CB41F1ADDFC9940AF9E8E56D1F6F7570827
def updateJobBad : Job := signed' 0x0402 (List.replicate 18 0)
  0xDAA96DA1F9184F3C85832B972FE974E854048AF882731301B7EDDEDF3C00B88D
def readJob : Job := signed' 0x0404 [0xFC00, 256]
  0xFA8E3EBAB750AEC67FCCC99CB82B02114DA93C1B3A755DA508EE1BD7D6B161EA
def readJobOdd : Job := signed' 0x0404 [2, 1]
  0x4F08BA28D16AA6EEC2866D24C49144C39714756A4F58DA93D591A87E1955CAE2
def readJobLong : Job := signed' 0x0404 [0, 257]
  0x0854399FFBC6F99C4B3AC06579D614DE5997D88AF539BE01B714E7F827EF5CBB

theorem mac_configJob : macOk officer.1 configJob = true := by decide +kernel
theorem mac_configJobBad : macOk officer.1 configJobBad = true := by decide +kernel
theorem mac_updateJob : macOk officer.1 updateJob = true := by decide +kernel
theorem mac_updateJobBad : macOk officer.1 updateJobBad = true := by decide +kernel
theorem mac_readJob : macOk officer.1 readJob = true := by decide +kernel
theorem mac_readJobOdd : macOk officer.1 readJobOdd = true := by decide +kernel
theorem mac_readJobLong : macOk officer.1 readJobLong = true := by decide +kernel

theorem witness_OfficerCommands_signed :
    (TakenSigned 0x0403 1 0 configJob (enrolled .ready id [configJob]) ∧
      fld (configJob.param 0) 15 0 ≠ 0 ∧ anyKey (enrolled .ready id [configJob]) = false) ∧
    (TakenSigned 0x0403 1 0 configJob (context 5 { slot0 := .loaded } (enrolled .ready id [configJob])) ∧
      anyKey (context 5 { slot0 := .loaded } (enrolled .ready id [configJob])) = true) ∧
    (TakenSigned 0x0403 1 0 configJobBad (enrolled .ready id [configJobBad]) ∧
      fld (configJobBad.param 0) 15 0 = 0) ∧
    (TakenSigned 0x0402 18 0 updateJob (enrolled .ready id [updateJob]) ∧
      keyUnwrap officer.2 (paramBytes updateJob 0 72) =
        some (List.replicate 32 0x0E ++ List.replicate 32 0x0F)) ∧
    (TakenSigned 0x0402 18 0 updateJobBad (enrolled .ready id [updateJobBad]) ∧
      keyUnwrap officer.2 (paramBytes updateJobBad 0 72) = none ∧ updateJobBad.priv = 1) ∧
    (TakenSigned 0x0404 2 0 readJob (enrolled .ready id [readJob]) ∧ (readJob.param 0).toNat % 4 = 0 ∧
      (readJob.param 0).toNat + 4 * (readJob.param 1).toNat ≤ 0x10000 ∧
      (readJob.param 1).toNat ≤ 256 ∧ 1 ≤ (readJob.param 1).toNat) ∧
    (TakenSigned 0x0404 2 0 readJobOdd (enrolled .ready id [readJobOdd]) ∧
      (readJobOdd.param 0).toNat % 4 ≠ 0) ∧
    (TakenSigned 0x0404 2 0 readJobLong (enrolled .ready id [readJobLong]) ∧
      256 < (readJobLong.param 1).toNat) :=
  ⟨⟨signed_of_check (by decide +kernel) rfl mac_configJob, by decide +kernel⟩,
   ⟨signed_of_check (by decide +kernel) rfl mac_configJob, by decide +kernel⟩,
   ⟨signed_of_check (by decide +kernel) rfl mac_configJobBad, by decide +kernel⟩,
   ⟨signed_of_check (by decide +kernel) rfl mac_updateJob, by decide +kernel⟩,
   ⟨signed_of_check (by decide +kernel) rfl mac_updateJobBad, by decide +kernel⟩,
   ⟨signed_of_check (by decide +kernel) rfl mac_readJob, by decide +kernel⟩,
   ⟨signed_of_check (by decide +kernel) rfl mac_readJobOdd, by decide +kernel⟩,
   ⟨signed_of_check (by decide +kernel) rfl mac_readJobLong, by decide +kernel⟩⟩

/-- A signed OP_ABORT of an OP_KEY_ERASE, which waits, is fetched, runs, or is decided. -/
def abortJob : Job := signed' 0x0102 [6]
  0x57670E64E50C2BBA05CA583E3AF550713565149D829F2BA149AFD73664449FC2
def officerTarget (stage : Stage) : State := enrolled .ready id [abortJob, target 0x0411 stage]

theorem mac_abortJob : macOk officer.1 abortJob = true := by decide +kernel

theorem witness_QueryAndAbortCommands_officer :
    (TakenSigned 0x0102 1 0 abortJob (officerTarget .running) ∧ abortJob.priv = 1 ∧
      bit (abortJob.param 0) 16 = false ∧ officerOp (target 0x0411 .running).opcode = true) ∧
    (TakenSigned 0x0102 1 0 abortJob (officerTarget .fetched) ∧
      TakenSigned 0x0102 1 0 abortJob (officerTarget .decided)) ∧
    ([Stage.running, .fetched, .decided].all fun st =>
      abortTarget (abortJob.param 0) (officerTarget st) == some (target 0x0411 st) &&
        findJob 1 (officerTarget st) == some (target 0x0411 st) && !(target 0x0411 st).committed) :=
  ⟨⟨signed_of_check (by decide +kernel) rfl mac_abortJob, by decide +kernel⟩,
   ⟨signed_of_check (by decide +kernel) rfl mac_abortJob, signed_of_check (by decide +kernel) rfl mac_abortJob⟩,
   by decide +kernel⟩

/-- No trailer, a trailer with a wrong MAC, and one whose SEQ is not above the last. -/
theorem witness_OfficerCommands_failed :
    ([{ cmd 0x0403 [1] with priv := 1 }, signed' 0x0403 [0x10008] 0].all fun x =>
      findJob 0 (enrolled .ready id [x]) == some x && ready 0x0403 x (enrolled .ready id [x]) &&
        x.priv == 1) ∧
    ({ cmd 0x0403 [1] with priv := 1 } : Job).auth = false ∧
    macOk officer.1 (signed' 0x0403 [0x10008] 0) = false ∧
    configJob.trailerSeq.toNat ≤ (enrolled .ready (fun y => { y with seq := 1 }) [configJob]).cry.seq.toNat := by
  decide +kernel

/-! #### Erasure -/

theorem witness_Zeroisation :
    (at' .standby []).codeS = true ∧ State.reset.codeS = false ∧
    Taken 0x04F0 0 0 (cmd 0x04F0 []) (one .traffic 0x04F0 []) ∧ (one .traffic 0x04F0 []).codeS = true ∧
    (enrolled .ready (fun y => { y with zeroising := true }) [configJob]).codeS = true ∧
    (enrolled .ready (fun y => { y with zeroising := true }) [configJob]).cry.zeroising = true ∧
    0 < groupWords 6 ∧ MemoryCanonical State.reset ∧
    JobIdsFresh (enrolled .ready (fun y => { y with zeroising := true }) [configJob]) ∧
    findJob 0 (enrolled .ready (fun y => { y with zeroising := true }) [configJob]) = some configJob ∧
    (isOfficer configJob = true ∧ configJob.committed = false ∧ configJob.stage ≠ .decided) ∧
    isOfficer (cmd 0x0100 []) = false ∧ State.reset.cry.zeroising = false :=
  ⟨by decide +kernel, by decide +kernel, taken_of_check (by decide +kernel), by decide +kernel,
   by decide +kernel, by decide +kernel, by decide +kernel, canonical_of_check (by decide +kernel),
   by simp [JobIdsFresh, enrolled, at', State.onCry, configJob, signed', cmd], by decide +kernel,
   by decide +kernel, by decide +kernel, by decide +kernel⟩

/-! ### The whole block -/

def readJobShort : Job := signed' 0x0404 [0]
  0xA2068DF0420C15826D45D36A8C27BAD805904B7FB3055BC54CAA3F9A29E5E5B3
theorem mac_readJobShort : macOk officer.1 readJobShort = true := by decide +kernel

/-- A command that its core has not been given. -/
def unbound : Job := { cmd 0x0100 [] with core := none }

theorem witness_RefusedCommands :
    findJob 1 (one .ready 0x0100 []) = none ∧
    (findJob 0 (at' .ready [unbound]) = some unbound ∧ ready 0x0100 unbound (at' .ready [unbound]) = false) ∧
    ([cmd 0x0410 [], { cmd 0x0410 [] with priv := 1 }].all fun x =>
      findJob 0 (at' .ready [x]) == some x && ready 0x0410 x (at' .ready [x]) && !x.auth &&
        trailerOp x.opcode) ∧
    (ready 0x0404 readJob (at' .ready [readJob]) = true ∧ readJob.auth = true ∧
      (at' .ready [readJob]).cry.officer = none) ∧
    (ready 0x0404 readJob (enrolled .ready (fun y => { y with seq := 1 }) [readJob]) = true ∧
      readJob.trailerSeq ≤ (enrolled .ready (fun y => { y with seq := 1 }) [readJob]).cry.seq) ∧
    (ready 0x0404 (signed' 0x0404 [0, 1] 0) (enrolled .ready id [signed' 0x0404 [0, 1] 0]) = true ∧
      macOk officer.1 (signed' 0x0404 [0, 1] 0) = false) ∧
    (ready 0x0103 (cmd 0x0103 [0]) (one .zeroised 0x0103 [0]) = true ∧
      trailerOp (cmd 0x0103 [0]).opcode = false ∧ opModes (cmd 0x0103 [0]).opcode .zeroised false = false ∧
      (one .zeroised 0x0103 [0]).pwr.mode = .zeroised ∧
      (one .zeroised 0x0103 [0]).pwr.pRunning = false) ∧
    (ready 0x0502 (cmd 0x0502 [1, 2, 3]) (one .ready 0x0502 [1, 2, 3]) = true ∧
      trailerOp (cmd 0x0502 [1, 2, 3]).opcode = false ∧
      opModes (cmd 0x0502 [1, 2, 3]).opcode .ready true = true ∧ (cmd 0x0502 [1, 2, 3]).params.length < 4) ∧
    (ready 0x0420 (switchJob false) (enrolled .standby id [switchJob false]) = true ∧
      (switchJob false).auth = true ∧
      (enrolled .standby id []).cry.seq < (switchJob false).trailerSeq ∧
      opModes (switchJob false).opcode .standby false = false) ∧
    (ready 0x0404 readJobShort (enrolled .ready id [readJobShort]) = true ∧ readJobShort.auth = true ∧
      opModes readJobShort.opcode .ready true = true ∧ readJobShort.params.length < 2 + 10) := by
  decide +kernel

theorem witness_RefusedCommands_signed :
    (∃ o, (enrolled .standby id [switchJob false]).cry.officer = some o ∧ macOk o.1 (switchJob false) = true) ∧
    (∃ o, (enrolled .ready id [readJobShort]).cry.officer = some o ∧ macOk o.1 readJobShort = true) :=
  ⟨⟨officer, rfl, mac_switchJob⟩, ⟨officer, rfl, mac_readJobShort⟩⟩

/-- A key load in ZEROISED, waiting in the queue. -/
def keyLoading : State := { enrolled .zeroised id [keyJob] with pending := [.opKeyLoad 0] }

/-- A step answers a next state that passes a check. -/
def stepCheck (f : State → Bool) (s : State) : Bool :=
  match step s with
  | .next t => f t
  | _ => false

theorem step_of_check {f : State → Bool} {s : State} (h : stepCheck f s = true) :
    ∃ t, step s = .next t ∧ f t = true := by
  unfold stepCheck at h
  split at h
  · exact ⟨_, by assumption, h⟩
  · cases h

/-- The key check value of the loaded key, as computed outside the model. -/
def keyCheckValue : Word := 0xE499E9

/-- It takes the device to READY. -/
theorem witness_ModeChanges : ∃ t, step keyLoading = .next t ∧ keyLoading.pwr.mode = .zeroised ∧
    AtStage 0 .fetched keyLoading ∧ Ended 0 stOk true [keyCheckValue] t ∧ t.pwr.mode = .ready := by
  obtain ⟨t, ht, h⟩ := step_of_check (s := keyLoading)
    (f := fun t => (findJob 0 t).any (fun x => x.stage == .decided && x.status == stOk && x.committed &&
      x.result == [keyCheckValue]) && t.pwr.mode == .ready) (by decide +kernel)
  simp only [Bool.and_eq_true, Option.any_eq_true, beq_iff_eq] at h
  obtain ⟨⟨x, hx, ⟨⟨h1, h2⟩, h3⟩, h4⟩, hm⟩ := h
  exact ⟨t, ht, rfl, ⟨keyJob, by decide +kernel, rfl⟩, ⟨x, hx, h1, h2, h3, h4⟩, hm⟩

theorem witness_MemoryStaysCanonical : MemoryCanonical keyLoading := canonical_of_check (by decide +kernel)

/-- The premises of the invariants hold in a state with a command. -/
theorem witness_CountersAndCommandsStaySound :
    MemoryCanonical keyLoading ∧ JobIdsFresh keyLoading ∧ CounterTablesCanonical keyLoading :=
  ⟨canonical_of_check (by decide +kernel),
   ⟨by simp [keyLoading, enrolled, at', State.onCry, keyJob, signed', cmd],
    by simp [keyLoading, enrolled, at', State.onCry]⟩,
   by unfold CounterTablesCanonical; decide +kernel⟩

theorem witness_ModeChanges_resets :
    (AtStage 0 .fetched keyLoading ∧ keyLoading.pwr.mode = .zeroised) ∧
    ({ State.reset with cmd := { State.reset.cmd with resetWritten := true } } : State).cmd.resetWritten = true ∧
    2500 ≤ ((later 2500 State.reset).evt.period - State.reset.cmd.resetAt).toNat :=
  ⟨⟨⟨keyJob, by decide +kernel, rfl⟩, rfl⟩, rfl, by decide +kernel⟩

end Sys2Proof.Tests
end

section
/-!
SUPPORT. What every operation of the block leaves of its power state or of its mode (R9), one rule for
each operation, in the order of the model.
-/

namespace Sys2Proof.Machine

/-- A fold keeps what each of its steps keeps. -/
theorem foldl_keeps {σ α β : Type} (g : σ → β) {f : σ → α → σ}
    (h : ∀ s a, g (f s a) = g s) (l : List α) (s : σ) : g (l.foldl f s) = g s := by
  induction l generalizing s with
  | nil => rfl
  | cons a l ih => exact (ih (f s a)).trans (h s a)

@[simp] theorem foldl_pwr {α : Type} {f : State → α → State} (h : ∀ s a, (f s a).pwr = s.pwr)
    (l : List α) (s : State) : (l.foldl f s).pwr = s.pwr := foldl_keeps State.pwr h l s

@[simp] theorem foldl_mode {α : Type} {f : State → α → State}
    (h : ∀ s a, (f s a).pwr.mode = s.pwr.mode) (l : List α) (s : State) :
    (l.foldl f s).pwr.mode = s.pwr.mode := foldl_keeps (fun s => s.pwr.mode) h l s

@[simp] theorem ite_pwr (c : Prop) [Decidable c] (s t : State) :
    (if c then s else t).pwr = if c then s.pwr else t.pwr := apply_ite State.pwr c s t

@[simp] theorem ite_cmd (c : Prop) [Decidable c] (s t : State) :
    (if c then s else t).cmd = if c then s.cmd else t.cmd := apply_ite State.cmd c s t

@[simp] theorem ite_mode (c : Prop) [Decidable c] (p q : Pwr) :
    (if c then p else q).mode = if c then p.mode else q.mode := apply_ite Pwr.mode c p q

/-- The state that a verdict on a command in `s` leaves, before the outcome is recorded. -/
def Verdict.state (s : State) : Verdict → State
  | .refuse _ => s
  | .refuseWith _ t | .complete t _ | .answer t _ | .accept t | .work t | .decided t => t

@[simp] theorem Verdict.state_refuse (s : State) (r : Refused) :
    (Verdict.refuse r).state s = s := by
  simp only [Verdict.state]
@[simp] theorem Verdict.state_refuseWith (s t : State) (r : Refused) :
    (Verdict.refuseWith r t).state s = t := by
  simp only [Verdict.state]
@[simp] theorem Verdict.state_complete (s t : State) (l : List Word) :
    (Verdict.complete t l).state s = t := by
  simp only [Verdict.state]
@[simp] theorem Verdict.state_answer (s t : State) (l : List Word) :
    (Verdict.answer t l).state s = t := by
  simp only [Verdict.state]
@[simp] theorem Verdict.state_accept (s t : State) : (Verdict.accept t).state s = t := by
  simp only [Verdict.state]
@[simp] theorem Verdict.state_work (s t : State) : (Verdict.work t).state s = t := by
  simp only [Verdict.state]
@[simp] theorem Verdict.state_decided (s t : State) : (Verdict.decided t).state s = t := by
  simp only [Verdict.state]

@[simp] theorem Verdict.state_ite (c : Prop) [Decidable c] (s : State) (v w : Verdict) :
    (if c then v else w).state s = if c then v.state s else w.state s :=
  apply_ite (Verdict.state s) c v w

/-- ACQUIRE and TRAFFIC taken as one mode: the acquisition machine moves between the two by itself
(R502). -/
def Mode.upToLock : Mode → Mode
  | .traffic => .acquire
  | m => m

@[simp] theorem ite_upToLock (c : Prop) [Decidable c] (m n : Mode) :
    (if c then m else n).upToLock = if c then m.upToLock else n.upToLock :=
  apply_ite Mode.upToLock c m n

/-- Whatever state a command answers from `s`, its mode is that of `s`, with ACQUIRE and TRAFFIC
taken as one. -/
def KeepsMode (s : State) (o : Host.Outcome State Fault Refusal) : Prop :=
  ∀ t, o = .next t → t.pwr.mode.upToLock = s.pwr.mode.upToLock

@[simp] theorem keepsMode_next (s t : State) :
    KeepsMode s (.next t) ↔ t.pwr.mode.upToLock = s.pwr.mode.upToLock := by
  simp [KeepsMode]

@[simp] theorem setFail_mode (src : ImageSource) (code : Nat) (p : Pwr) :
    (setFail src code p).mode = p.mode := by
  cases src <;> rfl

/-! ### The operations of Machine/Ops.lean -/

@[simp] theorem when_pwr (b : Bool) {f : State → State} (h : ∀ s, (f s).pwr = s.pwr) (s : State) :
    (when b f s).pwr = s.pwr := by
  unfold when
  split
  · exact h s
  · rfl

@[simp] theorem drawFree_pwr (s : State) : (drawFree s).2.pwr = s.pwr := by simp [drawFree]
@[simp] theorem raise_pwr (i : Nat) (data : Nat) (s : State) : (raise i data s).pwr = s.pwr := by
  simp [raise]
@[simp] theorem raiseBy_pwr (officer : Bool) (i : Nat) (data : Nat) (s : State) :
    (raiseBy officer i data s).pwr = s.pwr := by simp [raiseBy]
@[simp] theorem setLevelData_pwr (i : Nat) (b : Bool) (data : Nat) (s : State) :
    (setLevelData i b data s).pwr = s.pwr := by simp [setLevelData]
@[simp] theorem setLevel_pwr (i : Nat) (b : Bool) (s : State) : (setLevel i b s).pwr = s.pwr := by
  simp [setLevel]
@[simp] theorem statAdd_pwr (off n : Nat) (s : State) : (statAdd off n s).pwr = s.pwr := by
  simp [statAdd]
@[simp] theorem errAdd_pwr (off n : Nat) (s : State) : (errAdd off n s).pwr = s.pwr := by
  simp [errAdd]
@[simp] theorem clearCounter_pwr (off : Nat) (s : State) : (clearCounter off s).pwr = s.pwr := by
  simp [clearCounter]
@[simp] theorem raiseLimitedBy_pwr (officer : Bool) (key i data : Nat) (s : State) :
    (raiseLimitedBy officer key i data s).pwr = s.pwr := by simp [raiseLimitedBy]
@[simp] theorem raiseLimited_pwr (key i data : Nat) (s : State) :
    (raiseLimited key i data s).pwr = s.pwr := by simp [raiseLimited]
@[simp] theorem deliverNow_pwr (n : Nat) (s : State) : (deliverNow n s).pwr = s.pwr := by
  simp [deliverNow]
@[simp] theorem deliverMsix_pwr (s : State) : (deliverMsix s).pwr = s.pwr := by
  simp [deliverMsix]
@[simp] theorem setModeBy_mode (officer : Bool) (m : Mode) (s : State) :
    (setModeBy officer m s).pwr.mode = m := by simp [setModeBy]
@[simp] theorem setMode_mode (m : Mode) (s : State) : (setMode m s).pwr.mode = m :=
  setModeBy_mode ..
@[simp] theorem noteMany_pwr (times code addr id : Nat) (s : State) :
    (noteMany times code addr id s).pwr = s.pwr := by simp [noteMany]
@[simp] theorem note_pwr (code addr id : Nat) (s : State) : (note code addr id s).pwr = s.pwr := by
  simp [note]

/-! ### The operations of Machine/Budget.lean -/

@[simp] theorem onChurn_pwr (c : Nat) (f : Churn → Churn) (s : State) :
    (onChurn c f s).pwr = s.pwr := by simp [onChurn]
@[simp] theorem settleBudget_pwr (s : State) : (settleBudget s).pwr = s.pwr := by
  simp [settleBudget]
@[simp] theorem settleDecoder_pwr (s : State) : (settleDecoder s).pwr = s.pwr := by
  simp [settleDecoder, settleDeadline]
@[simp] theorem settleFabricLevels_pwr (s : State) : (settleFabricLevels s).pwr = s.pwr := by
  simp [settleFabricLevels]

/-! ### The operations of Machine/Jobs.lean -/

@[simp] theorem noteKeys_pwr (j : Job) (circuits : List Nat) (s : State) :
    (noteKeys j circuits s).pwr = s.pwr := by simp [noteKeys]
@[simp] theorem modJob_pwr (j : Nat) (f : Job → Job) (s : State) : (modJob j f s).pwr = s.pwr := by
  simp [modJob]
@[simp] theorem dropJob_pwr (j : Nat) (s : State) : (dropJob j s).pwr = s.pwr := by
  simp [dropJob]
@[simp] theorem finish_pwr (j : Nat) (status : BitVec 8) (detail : Word) (result : List Word)
    (s : State) :
    (finish j status detail result s).pwr = s.pwr := by simp [finish]
@[simp] theorem finishOk_pwr (j : Nat) (result : List Word) (s : State) :
    (finishOk j result s).pwr = s.pwr := by simp [finishOk]
@[simp] theorem commitAt_pwr (t : Nat) (j : Nat) (s : State) : (commitAt t j s).pwr = s.pwr := by
  simp [commitAt]
@[simp] theorem commit_pwr (j : Nat) (s : State) : (commit j s).pwr = s.pwr := by simp [commit]
@[simp] theorem commitDone_pwr (j : Nat) (result : List Word) (s : State) :
    (commitDone j result s).pwr = s.pwr := by simp [commitDone]
@[simp] theorem faultJob_pwr (core : Nat) (j : Nat) (s : State) :
    (faultJob core j s).pwr = s.pwr := by simp [faultJob]
@[simp] theorem withdraw_pwr (j : Nat) (s : State) : (withdraw j s).pwr = s.pwr := by
  simp [withdraw]
@[simp] theorem cancel_pwr (j : Nat) (status : BitVec 8) (detail : Word) (s : State) :
    (cancel j status detail s).pwr = s.pwr := by simp [cancel]

@[simp] theorem refuse_pwr (j : Job) (r : Refused) (s : State) : (refuse j r s).pwr = s.pwr := by
  simp [refuse, authFailed]
theorem conclude_pwr (j : Job) (v : Verdict) (s : State) :
    (conclude j v s).pwr = (v.state s).pwr := by
  cases v <;> simp [conclude]

/-- The state in which an opcode's checks are made: any sequence number consumed. -/
def Checked (job : Job) (s s1 : State) : Prop := s1 = s ∨ s1 = consumed job s

theorem step5_cases {j : Job} {s t : State} (h : step5 j s = some t) : Checked j s t := by
  unfold step5 checkAuth at h
  split at h
  · split at h
    · cases h
    · split at h
      · cases h; exact .inr rfl
      · cases h
  · split at h
    · cases h
    · cases h; exact .inl rfl

theorem Checked.pwr_eq {job : Job} {s s1 : State} (h : Checked job s s1) : s1.pwr = s.pwr := by
  obtain rfl | rfl := h <;> rfl

theorem Checked.findJob_eq {job : Job} {s s1 : State} (h : Checked job s s1) (j : Nat) :
    findJob j s1 = findJob j s := by
  obtain rfl | rfl := h <;> rfl

/-- What running an opcode can do: nothing, refuse the command with a status other than ST_OK, or
carry out the verdict of its body. -/
theorem runOp_cases (op need : Nat) (body : Job → State → Verdict) (j : Nat) (s : State) :
    runOp op need body j s = s ∨
    ∃ job s1, findJob j s = some job ∧ ready op job s = true ∧ Checked job s s1 ∧
      ((∃ r : Refused, r.1 ≠ stOk ∧ runOp op need body j s = refuse job r s1) ∨
        runOp op need body j s = conclude job (body job s1) s1) := by
  unfold runOp
  split
  case h_1 => exact .inl rfl
  case h_2 job hj =>
    split
    case isFalse => exact .inl rfl
    case isTrue hr =>
      refine .inr ?_
      split
      case h_1 => exact ⟨job, s, hj, hr, .inl rfl, .inl ⟨authRefusal, by decide, rfl⟩⟩
      case h_2 s1 h5 =>
        refine ⟨job, s1, hj, hr, step5_cases h5, ?_⟩
        split
        · exact .inl ⟨refMode s1, by simp [refMode, stMode, stOk], rfl⟩
        · split
          · exact .inl ⟨badParam _, by simp [badParam, stBadParam, stOk], rfl⟩
          · exact .inr rfl

/-- A command whose body keeps the mode keeps it. -/
@[simp] theorem runOp_mode {op need : Nat} {body : Job → State → Verdict}
    (h : ∀ job s, ((body job s).state s).pwr.mode = s.pwr.mode) (j : Nat) (s : State) :
    (runOp op need body j s).pwr.mode = s.pwr.mode := by
  obtain hr | ⟨job, s1, -, -, hc, ⟨r, -, hr⟩ | hr⟩ := runOp_cases op need body j s
  · rw [hr]
  · rw [hr, refuse_pwr, hc.pwr_eq]
  · rw [hr, conclude_pwr, h, hc.pwr_eq]

@[simp] theorem findJob_refuse (k : Nat) (j : Job) (r : Refused) (s : State) :
    findJob k (refuse j r s) = findJob k (finish j.id r.1 r.2 [] s) := by
  unfold refuse
  split <;> rfl

/-! ### The operations of Machine/Memory.lean -/

@[simp] theorem setCell_pwr (g a : Nat) (c : MemCell) (s : State) :
    (setCell g a c s).pwr = s.pwr := by simp [setCell]
@[simp] theorem onGrp_pwr (g : Nat) (f : MemGrp → MemGrp) (s : State) :
    (onGrp g f s).pwr = s.pwr := by simp [onGrp]
@[simp] theorem touched_pwr (g n : Nat) (s : State) : (touched g n s).pwr = s.pwr := by
  simp [touched]
@[simp] theorem writeWord_pwr (g a : Nat) (d : BitVec 128) (s : State) :
    (writeWord g a d s).pwr = s.pwr := by simp [writeWord]

@[simp] theorem writeWords_pwr (g a : Nat) (l : List (BitVec 128)) (s : State) :
    (writeWords g a l s).pwr = s.pwr := by
  induction l generalizing a s with
  | nil => rfl
  | cons d l ih => simp [writeWords, ih]

@[simp] theorem onMerge_pwr (g : Nat) (f : List MergeEntry → List MergeEntry) (s : State) :
    (onMerge g f s).pwr = s.pwr := by simp [onMerge]
@[simp] theorem dropMerge_pwr (g a : Nat) (s : State) : (dropMerge g a s).pwr = s.pwr := by
  simp [dropMerge]
@[simp] theorem invalidateRange_pwr (g lo hi : Nat) (s : State) :
    (invalidateRange g lo hi s).pwr = s.pwr := by simp [invalidateRange]
@[simp] theorem invalidate_pwr (g : Nat) (s : State) : (invalidate g s).pwr = s.pwr := by
  simp [invalidate]
@[simp] theorem clearCoeffs_pwr (half : Bool) (s : State) : (clearCoeffs half s).pwr = s.pwr := by
  simp [clearCoeffs]
@[simp] theorem switchCoeffs_pwr (half : Bool) (s : State) : (switchCoeffs half s).pwr = s.pwr := by
  simp [switchCoeffs]
@[simp] theorem fillGroup_pwr (g : Nat) (f : Nat → BitVec 128) (s : State) :
    (fillGroup g f s).pwr = s.pwr := by simp [fillGroup]
@[simp] theorem zeroGroup_pwr (g : Nat) (s : State) : (zeroGroup g s).pwr = s.pwr := by
  simp [zeroGroup]
@[simp] theorem setOverflow_pwr (g det a : Nat) (s : State) :
    (setOverflow g det a s).pwr = s.pwr := by simp [setOverflow]
@[simp] theorem logCe_pwr (g a det : Nat) (write : Bool) (s : State) :
    (logCe g a det write s).pwr = s.pwr := by simp [logCe]

@[simp] theorem logUe_pwr (g a det : Nat) (write : Bool) (s : State) :
    (logUe g a det write s).pwr = s.pwr := by
  unfold logUe
  dsimp only
  repeat' split
  all_goals simp

@[simp] theorem writeBack_pwr (g a : Nat) (s : State) : (writeBack g a s).pwr = s.pwr := by
  simp [writeBack]
@[simp] theorem noteError_pwr (code g a det : Nat) (s : State) :
    (noteError code g a det s).pwr = s.pwr := by simp [noteError]
@[simp] theorem foundCe_pwr (g a det : Nat) (s : State) : (foundCe g a det s).pwr = s.pwr := by
  simp [foundCe]
@[simp] theorem poisonWord_pwr (g a det : Nat) (write : Bool) (s : State) :
    (poisonWord g a det write s).pwr = s.pwr := by simp [poisonWord]

@[simp] theorem seeWord_pwr (g a det : Nat) (s : State) : (seeWord g a det s).2.pwr = s.pwr := by
  unfold seeWord
  dsimp only
  repeat' split
  all_goals simp

@[simp] theorem seeWords_pwr (g d a n : Nat) (s : State) : (seeWords g d a n s).2.pwr = s.pwr := by
  induction n generalizing a s with
  | zero => rfl
  | succ n ih => simp [seeWords, ih]

@[simp] theorem readPort_pwr (g a det : Nat) (s : State) : (readPort g a det s).2.pwr = s.pwr := by
  simp [readPort]
@[simp] theorem pauseLap_pwr (g : Nat) (s : State) : (pauseLap g s).pwr = s.pwr := by
  simp [pauseLap]
@[simp] theorem resumeLap_pwr (g : Nat) (s : State) : (resumeLap g s).pwr = s.pwr := by
  simp [resumeLap]

/-! ### The operations of Machine/Flags.lean -/

@[simp] theorem settleLog_pwr (s : State) : (settleLog s).pwr = s.pwr := by simp [settleLog]
@[simp] theorem onSq_pwr (r : Nat) (f : Sq → Sq) (s : State) : (onSq r f s).pwr = s.pwr := by
  simp [onSq]
@[simp] theorem onCq_pwr (r : Nat) (f : Cq → Cq) (s : State) : (onCq r f s).pwr = s.pwr := by
  simp [onCq]
@[simp] theorem settleStall_pwr (r : Nat) (s : State) : (settleStall r s).pwr = s.pwr := by
  simp [settleStall]
@[simp] theorem settleSamples_pwr (s : State) : (settleSamples s).pwr = s.pwr := by
  simp [settleSamples]

/-! ### The operations of Machine/Slaca.lean -/

@[simp] theorem bindCore_pwr (j : Nat) (s : State) : (bindCore j s).pwr = s.pwr := by
  unfold bindCore
  repeat' split
  all_goals simp

@[simp] theorem frontFinish_pwr (j : Nat) (r : Refused) (s : State) :
    (frontFinish j r s).pwr = s.pwr := by simp [frontFinish]

@[simp] theorem admitPacket_pwr (ring : Nat) (mailbox : Bool) (ws : List Word) (s : State) :
    (admitPacket ring mailbox ws s).pwr = s.pwr := by
  unfold admitPacket
  dsimp only
  repeat' split
  all_goals simp

theorem execPacketFetch_keepsMode (r : Nat) (read : PacketRead) (s : State) :
    KeepsMode s (execPacketFetch r read s) := by
  unfold execPacketFetch
  repeat' split
  all_goals simp

theorem execParamPointerReadDone_keepsMode (j : Nat) (read : PointerRead) (s : State) :
    KeepsMode s (execParamPointerReadDone j read s) := by
  unfold execParamPointerReadDone
  repeat' split
  all_goals simp

@[simp] theorem logOfficer_pwr (j : Job) (s : State) : (logOfficer j s).pwr = s.pwr := by
  simp [logOfficer]
@[simp] theorem countCompletion_pwr (j : Job) (s : State) : (countCompletion j s).pwr = s.pwr := by
  simp [countCompletion]
@[simp] theorem resetAnswered_pwr (j : Nat) (s : State) : (resetAnswered j s).pwr = s.pwr := by
  simp [resetAnswered]

@[simp] theorem placeCompletion_pwr (j : Nat) (s : State) : (placeCompletion j s).pwr = s.pwr := by
  unfold placeCompletion
  split <;> simp [writeCompletion]

@[simp] theorem tryComplete_pwr (j : Nat) (s : State) : (tryComplete j s).pwr = s.pwr := by
  unfold tryComplete
  repeat' split
  all_goals simp [completionWaits]

@[simp] theorem withheld_pwr {f : State → State} (h : ∀ s, (f s).pwr = s.pwr) (s : State) :
    (withheld f s).pwr = s.pwr := h _
@[simp] theorem writeWaiting_pwr (s : State) : (writeWaiting s).pwr = s.pwr := by
  simp [writeWaiting]

theorem execRingCompletionDiscard_keepsMode (j : Nat) (s : State) :
    KeepsMode s (execRingCompletionDiscard j s) := by
  unfold execRingCompletionDiscard
  split <;> simp

@[simp] theorem writeSqTail_pwr (r : Nat) (w : Word) (s : State) :
    (writeSqTail r w s).pwr = s.pwr := by simp [writeSqTail]
@[simp] theorem writeCqHead_pwr (r : Nat) (w : Word) (s : State) :
    (writeCqHead r w s).pwr = s.pwr := by simp [writeCqHead, unstall]
@[simp] theorem writeSqCtrl_pwr (r : Nat) (w : Word) (s : State) :
    (writeSqCtrl r w s).pwr = s.pwr := by simp [writeSqCtrl]
@[simp] theorem writeCqCtrl_pwr (r : Nat) (w : Word) (s : State) :
    (writeCqCtrl r w s).pwr = s.pwr := by simp [writeCqCtrl]
@[simp] theorem drivesMiso_pwr (bytes : List Byte) (s : State) :
    (drivesMiso bytes s).pwr = s.pwr := by simp [drivesMiso]
@[simp] theorem setResponse_pwr (bs : List Byte) (s : State) : (setResponse bs s).pwr = s.pwr := by
  simp [setResponse]

theorem execMboxResponseWrite_keepsMode (s : State) :
    KeepsMode s (execMboxResponseWrite s) := by
  unfold execMboxResponseWrite
  split <;> simp

@[simp] theorem abortBody_pwr (j : Job) (s : State) : ((abortBody j s).state s).pwr = s.pwr := by
  unfold abortBody
  dsimp only
  repeat' split
  all_goals simp

/-! ### The operations of Machine/Interrupts.lean -/

@[simp] theorem claimRead_pwr (n : Nat) (s : State) : (claimRead n s).pwr = s.pwr := by
  simp [claimRead]
@[simp] theorem returnWord_pwr (w : Word) (s : State) : (returnWord w s).pwr = s.pwr := by
  simp [returnWord]
@[simp] theorem touchGroup_pwr (n : Nat) (f : Evt → Evt) (s : State) :
    (touchGroup n f s).pwr = s.pwr := by simp [touchGroup]
@[simp] theorem completeWrite_pwr (n : Nat) (w : Word) (s : State) :
    (completeWrite n w s).pwr = s.pwr := by simp [completeWrite]
@[simp] theorem writeEnables_pwr (n : Nat) (f : Bool → Src → Src) (w : Word) (s : State) :
    (writeEnables n f w s).pwr = s.pwr := by simp [writeEnables]
@[simp] theorem writePendings_pwr (n : Nat) (f : Bool → Src → Src) (w : Word) (s : State) :
    (writePendings n f w s).pwr = s.pwr := by simp [writePendings]
@[simp] theorem writeIcuCfg_pwr (n : Nat) (w : Word) (s : State) :
    (writeIcuCfg n w s).pwr = s.pwr := by simp [writeIcuCfg]
@[simp] theorem writeGpioMode_pwr (w : Word) (s : State) : (writeGpioMode w s).pwr = s.pwr := by
  simp [writeGpioMode]

theorem execGpioEdge_keepsMode (i : Nat) (high : Bool) (s : State) :
    KeepsMode s (execGpioEdge i high s) := by
  unfold execGpioEdge
  dsimp only
  repeat' split
  all_goals simp

@[simp] theorem resumeHost_pwr {f : State → State} (h : ∀ s, (f s).pwr = s.pwr) (s : State) :
    (resumeHost f s).pwr = s.pwr := by
  simp [resumeHost, h]

theorem execMsixMaskClear_keepsMode (vector : Option Nat) (s : State) :
    KeepsMode s (execMsixMaskClear vector s) := by
  unfold execMsixMaskClear
  repeat' split
  all_goals simp

@[simp] theorem writeEntry_pwr (h : LogEntry) (late : Bool) (s : State) :
    (writeEntry h late s).pwr = s.pwr := by
  unfold writeEntry
  refine (settleLog_pwr _).trans ?_
  cases late <;> cases logFull s.evt <;> simp

theorem execEvlogMergeWrite_keepsMode (s : State) : KeepsMode s (execEvlogMergeWrite s) := by
  unfold execEvlogMergeWrite
  repeat' split
  all_goals simp [mergeEntry]

@[simp] theorem writeEvlogRead_pwr (w : Word) (s : State) : (writeEvlogRead w s).pwr = s.pwr := by
  simp [writeEvlogRead]
@[simp] theorem writeEvlogCtrl_pwr (w : Word) (s : State) : (writeEvlogCtrl w s).pwr = s.pwr := by
  simp [writeEvlogCtrl]

/-! ### The operations of Machine/Dpll.lean -/

@[simp] theorem onCand_pwr (i : Nat) (f : Cand → Cand) (s : State) :
    (onCand i f s).pwr = s.pwr := by
  simp [onCand]
@[simp] theorem toRefState_pwr (i : Nat) (st : RefState) (s : State) :
    (toRefState i st s).pwr = s.pwr := by simp [toRefState]
@[simp] theorem failCand_pwr (i : Nat) (s : State) : (failCand i s).pwr = s.pwr := by
  simp [failCand]
@[simp] theorem activityFault_pwr (i : Nat) (s : State) : (activityFault i s).pwr = s.pwr := by
  simp [activityFault]
@[simp] theorem setCandValid_pwr (i : Nat) (b : Bool) (s : State) :
    (setCandValid i b s).pwr = s.pwr := by simp [setCandValid]
@[simp] theorem startCandidates_pwr (s : State) : (startCandidates s).pwr = s.pwr := by
  simp [startCandidates]

@[simp] theorem moveCand_pwr (i : Nat) (inside : Bool) (s : State) :
    (moveCand i inside s).pwr = s.pwr := by
  unfold moveCand
  dsimp only
  split <;> simp

@[simp] theorem takeReading_pwr (i : Nat) (offset : Int) (s : State) :
    (takeReading i offset s).pwr = s.pwr := by simp [takeReading]

@[simp] theorem takePulse_pwr (i time : Nat) (s : State) : (takePulse i time s).pwr = s.pwr := by
  unfold takePulse
  dsimp only
  split <;> simp [goodPulse]

@[simp] theorem judge_pwr (s0 : State) (i : Nat) (s : State) : (judge s0 i s).pwr = s.pwr := by
  unfold judge
  split <;> simp

@[simp] theorem judgeDisagree_pwr (s : State) : (judgeDisagree s).pwr = s.pwr := by
  unfold judgeDisagree
  dsimp only
  split <;> simp

@[simp] theorem settleDpll_pwr (s : State) : (settleDpll s).pwr = s.pwr := by simp [settleDpll]
@[simp] theorem enterHoldover_pwr (s : State) : (enterHoldover s).pwr = s.pwr := by
  simp [enterHoldover]
@[simp] theorem settleOn_pwr (t : Nat) (s : State) : (settleOn t s).pwr = s.pwr := by
  simp [settleOn]
@[simp] theorem redirection_pwr (t : Nat) (s : State) : (redirection t s).pwr = s.pwr := by
  simp [redirection]
@[simp] theorem redirect_pwr (t : Nat) (s : State) : (redirect t s).pwr = s.pwr := by
  simp [redirect]

@[simp] theorem decideAgain_pwr (s : State) : (decideAgain s).pwr = s.pwr := by
  unfold decideAgain
  split <;> simp

@[simp] theorem targetLost_pwr (t : Nat) (s : State) : (targetLost t s).pwr = s.pwr := by
  unfold targetLost
  split <;> simp

@[simp] theorem settleStep_pwr (t : Nat) (s : State) : (settleStep t s).pwr = s.pwr := by
  unfold settleStep
  repeat' split
  all_goals simp

@[simp] theorem selectStep_pwr (s : State) : (selectStep s).pwr = s.pwr := by
  unfold selectStep
  repeat' split
  all_goals simp [startSwitch]

@[simp] theorem manualStep_pwr (s : State) : (manualStep s).pwr = s.pwr := by simp [manualStep]

@[simp] theorem selection_pwr (s : State) : (selection s).pwr = s.pwr := by
  unfold selection
  repeat' split
  all_goals simp

@[simp] theorem readPhase_pwr (raw : Int) (s : State) : (readPhase raw s).pwr = s.pwr := by
  simp [readPhase]

@[simp] theorem takePhase_pwr (s : State) : (takePhase s).pwr = s.pwr := by
  unfold takePhase
  split <;> simp

@[simp] theorem moveOutput_pwr (s : State) : (moveOutput s).pwr = s.pwr := by simp [moveOutput]
@[simp] theorem onOut_pwr (o : Nat) (f : ClkOut → ClkOut) (s : State) :
    (onOut o f s).pwr = s.pwr := by simp [onOut]
@[simp] theorem runOutputs_pwr (s : State) : (runOutputs s).pwr = s.pwr := by simp [runOutputs]
@[simp] theorem detectPhase_pwr (phase : Int) (fresh : Bool) (s : State) :
    (detectPhase phase fresh s).pwr = s.pwr := by simp [detectPhase]

theorem execSwitchCommitted_keepsMode (s : State) : KeepsMode s (execSwitchCommitted s) := by
  unfold execSwitchCommitted
  split <;> simp

theorem execHoldoverSample_keepsMode (guard : Nat) (s : State) :
    KeepsMode s (execHoldoverSample guard s) := by
  unfold execHoldoverSample
  dsimp only
  repeat' split
  all_goals simp

@[simp] theorem writeNcoHi_pwr (w : Word) (s : State) : (writeNcoHi w s).pwr = s.pwr := by
  unfold writeNcoHi
  split
  · exact State.onDpll_pwr ..
  · rfl

@[simp] theorem refConfigBody_pwr (j : Job) (s : State) :
    ((refConfigBody j s).state s).pwr = s.pwr := by
  unfold refConfigBody
  dsimp only
  split <;> simp

@[simp] theorem selectBody_pwr (j : Job) (s : State) : ((selectBody j s).state s).pwr = s.pwr := by
  unfold selectBody
  dsimp only
  split <;> simp

@[simp] theorem loopBody_pwr (j : Job) (s : State) : ((loopBody j s).state s).pwr = s.pwr := by
  unfold loopBody
  dsimp only
  split <;> simp

@[simp] theorem toAligned_pwr (o : Nat) (s : State) : (toAligned o s).pwr = s.pwr := by
  simp [toAligned]
@[simp] theorem putOut_pwr (o : Nat) (set : OutSet) (s : State) : (putOut o set s).pwr = s.pwr := by
  simp [putOut]

@[simp] theorem outputBody_pwr (j : Job) (s : State) : ((outputBody j s).state s).pwr = s.pwr := by
  unfold outputBody
  dsimp only
  split <;> simp

theorem execAlignFail_keepsMode (o : Nat) (s : State) : KeepsMode s (execAlignFail o s) := by
  unfold execAlignFail
  split <;> simp

@[simp] theorem moveEdge_pwr (o : Nat) (at' : Rat) (s : State) :
    (moveEdge o at' s).pwr = s.pwr := by
  simp [moveEdge]

@[simp] theorem alignOutput_pwr (i time o : Nat) (s : State) :
    (alignOutput i time o s).pwr = s.pwr := by
  unfold alignOutput
  split <;> simp

/-! ### The operations of Machine/Time.lean -/

@[simp] theorem holdCorr_pwr (s : State) : (holdCorr s).pwr = s.pwr := by simp [holdCorr]
@[simp] theorem settleServo_pwr (s : State) : (settleServo s).pwr = s.pwr := by
  simp [settleServo, evalBw]
@[simp] theorem toServo_pwr (st : Servo) (cause : Nat) (s : State) :
    (toServo st cause s).pwr = s.pwr := by simp [toServo, settleTimeclk]
@[simp] theorem setRefusing_pwr (b : Bool) (s : State) : (setRefusing b s).pwr = s.pwr := by
  simp [setRefusing]
@[simp] theorem clearRefusals_pwr (s : State) : (clearRefusals s).pwr = s.pwr := by
  simp [clearRefusals]

@[simp] theorem drxChanged_pwr (s : State) : (drxChanged s).pwr = s.pwr := by
  unfold drxChanged
  dsimp only
  split <;> simp

@[simp] theorem lockStep_pwr (th : Rat) (s : State) : (lockStep th s).pwr = s.pwr := by
  unfold lockStep
  repeat' split
  all_goals simp

@[simp] theorem onPulse_pwr (k : Nat) (f : Pulse → Pulse) (s : State) :
    (onPulse k f s).pwr = s.pwr := by simp [onPulse]

@[simp] theorem pulseStepped_pwr (old new k : Nat) (s : State) :
    (pulseStepped old new k s).pwr = s.pwr := by
  unfold pulseStepped
  dsimp only
  split <;> simp

@[simp] theorem commitSet_pwr (value : Int) (p : PendingSet) (s : State) :
    (commitSet value p s).pwr = s.pwr := by
  unfold commitSet
  dsimp only
  repeat' split
  all_goals simp

@[simp] theorem writeBaseHi_pwr (w : Word) (s : State) : (writeBaseHi w s).pwr = s.pwr := by
  simp [writeBaseHi]

theorem execTimeSetPulseTimeout_keepsMode (s : State) :
    KeepsMode s (execTimeSetPulseTimeout s) := by
  unfold execTimeSetPulseTimeout
  split <;> simp

@[simp] theorem timeConfigBody_pwr (j : Job) (s : State) :
    ((timeConfigBody j s).state s).pwr = s.pwr := by
  unfold timeConfigBody
  dsimp only
  split <;> simp [changeRole]

@[simp] theorem timeSetBody_pwr (j : Job) (s : State) :
    ((timeSetBody j s).state s).pwr = s.pwr := by
  unfold timeSetBody
  dsimp only
  split <;> simp

@[simp] theorem timeStepBody_pwr (j : Job) (s : State) :
    ((timeStepBody j s).state s).pwr = s.pwr := by
  unfold timeStepBody
  dsimp only
  split <;> simp

@[simp] theorem timePulseBody_pwr (j : Job) (s : State) :
    ((timePulseBody j s).state s).pwr = s.pwr := by
  unfold timePulseBody
  dsimp only
  split <;> simp

/-! ### The operations of Machine/Frame.lean -/

@[simp] theorem writeMap_pwr (b : Bool) (words : List Word) (s : State) :
    (writeMap b words s).pwr = s.pwr := by simp [writeMap, setMapCrc]
@[simp] theorem writePlainMaps_pwr (p : Profile) (s : State) :
    (writePlainMaps p s).pwr = s.pwr := by
  simp [writePlainMaps]
@[simp] theorem sequencerRead_pwr (b : Bool) (s : State) : (sequencerRead b s).2.pwr = s.pwr := by
  simp [sequencerRead]
@[simp] theorem dacUnlock_pwr (s : State) : (dacUnlock s).pwr = s.pwr := by simp [dacUnlock]

@[simp] theorem lineProfileBody_pwr (j : Job) (s : State) :
    ((lineProfileBody j s).state s).pwr = s.pwr := by
  unfold lineProfileBody
  dsimp only
  repeat' split
  all_goals simp [adcRelock]

@[simp] theorem mapLoadBody_pwr (j : Job) (s : State) :
    ((mapLoadBody j s).state s).pwr = s.pwr := by
  unfold mapLoadBody
  dsimp only
  split <;> simp

@[simp] theorem mapSwitchBody_pwr (j : Job) (s : State) :
    ((mapSwitchBody j s).state s).pwr = s.pwr := by
  unfold mapSwitchBody
  dsimp only
  repeat' split
  all_goals simp

@[simp] theorem stopFrames_pwr (s : State) : (stopFrames s).pwr = s.pwr := by
  unfold stopFrames
  split <;> simp

/-! ### The operations of Machine/Crypto.lean -/

@[simp] theorem onCtx_pwr (c : Nat) (f : Ctx → Ctx) (s : State) : (onCtx c f s).pwr = s.pwr := by
  simp [onCtx, narrowCtx, narrowWrite]
@[simp] theorem wipeKey_pwr (c : Nat) (b : Bool) (s : State) : (wipeKey c b s).pwr = s.pwr := by
  simp [wipeKey]
@[simp] theorem eraseSlot_pwr (officer : Bool) (c : Nat) (b : Bool) (s : State) :
    (eraseSlot officer c b s).pwr = s.pwr := by simp [eraseSlot]
@[simp] theorem readKey_pwr (c : Nat) (b : Bool) (s : State) : (readKey c b s).2.pwr = s.pwr := by
  simp [readKey]

@[simp] theorem keyStoreFault_pwr (a : Nat) (s : State) : (keyStoreFault a s).pwr = s.pwr := by
  simp only [keyStoreFault, enterKeyFault, dropFromSwitches, storeCtx]
  repeat' split
  all_goals simp

@[simp] theorem commitSwitch_pwr (stamp : Nat) (opens : Bool) (w : EpochSwitch) (s : State) :
    (commitSwitch stamp opens w s).pwr = s.pwr := by
  unfold commitSwitch
  dsimp only
  split <;> simp

@[simp] theorem frameSwitches_pwr (txTime : Nat) (opens : Bool) (s : State) :
    (frameSwitches txTime opens s).pwr = s.pwr := by simp [frameSwitches]
@[simp] theorem rxEpochSeen_pwr (c : Nat) (b : Bool) (s : State) :
    (rxEpochSeen c b s).pwr = s.pwr := by simp [rxEpochSeen]

theorem execOldKeyErase_keepsMode (c : Nat) (s : State) :
    KeepsMode s (execOldKeyErase c s) := by
  unfold execOldKeyErase
  split <;> simp

@[simp] theorem epochSwitchBody_pwr (j : Job) (s : State) :
    ((epochSwitchBody j s).state s).pwr = s.pwr := by
  unfold epochSwitchBody
  dsimp only
  split <;> simp

@[simp] theorem dropChallenge_pwr (s : State) : (dropChallenge s).pwr = s.pwr := by
  simp [dropChallenge]

@[simp] theorem officerEnrolBody_pwr (j : Job) (s : State) :
    ((officerEnrolBody j s).state s).pwr = s.pwr := by
  unfold officerEnrolBody
  repeat' split
  all_goals simp

theorem execChallengeExpiry_keepsMode (s : State) : KeepsMode s (execChallengeExpiry s) := by
  unfold execChallengeExpiry
  split <;> simp

@[simp] theorem officerUpdateBody_pwr (j : Job) (s : State) :
    ((officerUpdateBody j s).state s).pwr = s.pwr := by
  unfold officerUpdateBody
  repeat' split
  all_goals simp

@[simp] theorem cryConfigBody_pwr (j : Job) (s : State) :
    ((cryConfigBody j s).state s).pwr = s.pwr := by
  unfold cryConfigBody
  dsimp only
  split <;> simp

@[simp] theorem clearKeys_pwr (s : State) : (clearKeys s).pwr = s.pwr := by simp [clearKeys]
@[simp] theorem triggerZeroise_pwr (f : Cry → Cry) (s : State) :
    (triggerZeroise f s).pwr = s.pwr := by simp [triggerZeroise]
@[simp] theorem abortOfficer_pwr (s : State) : (abortOfficer s).pwr = s.pwr := by
  simp [abortOfficer]

/-! ### The operations of Machine/Lanes.lean -/

@[simp] theorem failIngress_pwr (c : Nat) (s : State) : (failIngress c s).pwr = s.pwr := by
  simp [failIngress]

@[simp] theorem loseMarkers_pwr (c : Nat) (ls : List Nat) (s : State) :
    (loseMarkers c ls s).pwr = s.pwr := by
  refine (failIngress_pwr ..).trans ?_
  apply foldl_pwr
  exact fun _ _ => onLane_pwr ..

@[simp] theorem laneError_pwr (l cause : Nat) (s : State) : (laneError l cause s).pwr = s.pwr := by
  simp [laneError]
@[simp] theorem settleLaneClock_pwr (l : Nat) (s : State) : (settleLaneClock l s).pwr = s.pwr := by
  simp [settleLaneClock]
@[simp] theorem setFrozen_pwr (l : Nat) (b : Bool) (s : State) : (setFrozen l b s).pwr = s.pwr := by
  simp [setFrozen]

@[simp] theorem unalign_pwr (c : Nat) (s : State) : (unalign c s).pwr = s.pwr := by
  unfold unalign
  apply foldl_pwr
  exact fun _ _ => onLane_pwr ..

@[simp] theorem dropLane_pwr (st : Nat) (lost : Bool) (l : Nat) (s : State) :
    (dropLane st lost l s).pwr = s.pwr := by
  unfold dropLane
  dsimp only
  split <;> simp

@[simp] theorem goesDown_pwr (cause : Nat) (l : Nat) (s : State) :
    (goesDown cause l s).pwr = s.pwr := by simp [goesDown]
@[simp] theorem restartLane_pwr (cause : Nat) (l : Nat) (s : State) :
    (restartLane cause l s).pwr = s.pwr := by simp [restartLane]
@[simp] theorem restartNamed_pwr (ls : List Nat) (s : State) : (restartNamed ls s).pwr = s.pwr := by
  simp [restartNamed]

@[simp] theorem laneStarted_pwr (l : Nat) (s : State) : (laneStarted l s).pwr = s.pwr := by
  unfold laneStarted
  refine (foldl_pwr (fun s j => ?_) _ _).trans (onLane_pwr ..)
  split
  · rfl
  · split <;> simp

@[simp] theorem startLane_pwr (l : Nat) (s : State) : (startLane l s).pwr = s.pwr := by
  simp [startLane]
@[simp] theorem stopLane_pwr (l : Nat) (s : State) : (stopLane l s).pwr = s.pwr := by
  simp [stopLane]
@[simp] theorem startFirstPair_mode (ls : List Nat) (s : State) :
    (startFirstPair ls s).pwr.mode = s.pwr.mode := by simp [startFirstPair]
@[simp] theorem stopLanes_mode (s : State) : (stopLanes s).pwr.mode = s.pwr.mode := by
  simp [stopLanes]

@[simp] theorem startNextPair_mode (first : Nat) (s : State) :
    (startNextPair first s).pwr.mode = s.pwr.mode := by
  unfold startNextPair
  split <;> simp

theorem execLaneStart_keepsMode (slot : Option Nat) (first : Nat) (s : State) :
    KeepsMode s (execLaneStart slot first s) := by
  unfold execLaneStart
  split <;> simp

@[simp] theorem advanceChecker_pwr (l : Nat) (s : State) : (advanceChecker l s).pwr = s.pwr := by
  simp [advanceChecker]

@[simp] theorem settleMarker_pwr (l : Nat) (now : Bool) (s : State) :
    (settleMarker l now s).pwr = s.pwr := by
  unfold settleMarker
  dsimp only
  split <;> simp

theorem execGroupAligned_keepsMode (c : Nat) (lanes : List GroupLane) (s : State) :
    KeepsMode s (execGroupAligned c lanes s) := by
  rw [execGroupAligned, keepsMode_next]
  dsimp only
  split
  · rw [foldl_pwr fun _ _ => onLane_pwr ..]
    rfl
  · rfl

@[simp] theorem disableLane_pwr (l : Nat) (s : State) : (disableLane l s).pwr = s.pwr := by
  simp [disableLane]
@[simp] theorem hlaneTestBody_mode (j : Job) (s : State) :
    ((hlaneTestBody j s).state s).pwr.mode = s.pwr.mode := by
  unfold hlaneTestBody
  dsimp only
  split <;> simp [applyTest]

@[simp] theorem hlaneConfigBody_pwr (j : Job) (s : State) :
    ((hlaneConfigBody j s).state s).pwr = s.pwr := by
  unfold hlaneConfigBody
  dsimp only
  split <;> simp [applyLaneConfig]

@[simp] theorem hlaneRestartBody_pwr (j : Job) (s : State) :
    ((hlaneRestartBody j s).state s).pwr = s.pwr := by
  unfold hlaneRestartBody
  dsimp only
  split
  · rfl
  · split
    · simp
    · rw [Verdict.state_accept, foldl_pwr fun _ _ => onLane_pwr ..]

/-! ### The operations of Machine/Circuits.lean -/

@[simp] theorem clearCircuitCounters_pwr (c : Nat) (s : State) :
    (clearCircuitCounters c s).pwr = s.pwr := by simp [clearCircuitCounters]
@[simp] theorem claimLane_pwr (c : Nat) (rate : Bool) (l : Nat) (s : State) :
    (claimLane c rate l s).pwr = s.pwr := by simp [claimLane]

@[simp] theorem circuitCreateBody_mode (j : Job) (s : State) :
    ((circuitCreateBody j s).state s).pwr.mode = s.pwr.mode := by
  unfold circuitCreateBody
  dsimp only
  split <;> simp

@[simp] theorem circuitDeleteBody_pwr (j : Job) (s : State) :
    ((circuitDeleteBody j s).state s).pwr = s.pwr := by
  unfold circuitDeleteBody
  dsimp only
  split <;> simp [freeLane]

@[simp] theorem unlessTest_pwr (c : Nat) {f : State → State} (h : ∀ s, (f s).pwr = s.pwr)
    (s : State) :
    (unlessTest c f s).pwr = s.pwr := by
  simp [unlessTest, h]

@[simp] theorem ingressBlock_pwr (c : Nat) (b : BitVec 257) (s : State) :
    (ingressBlock c b s).pwr = s.pwr := by simp [ingressBlock]

theorem execClientBlockIngress_keepsMode (c : Nat) (symbols : List (BitVec 10)) (s : State) :
    KeepsMode s (execClientBlockIngress c symbols s) := by
  unfold execClientBlockIngress
  dsimp only
  repeat' split
  all_goals
    simp [takeSymbols, decodeArrived, countCorrected, countUncorrectable, enterBlock, loopBlock]

@[simp] theorem cut_pwr (c slots r : Nat) (s : State) : (cut c slots r s).2.pwr = s.pwr := by
  unfold cut
  dsimp only
  repeat' split
  all_goals simp

@[simp] theorem dropUncarried_pwr (rows : List Word) (s : State) :
    (dropUncarried rows s).pwr = s.pwr := by simp [dropUncarried]

@[simp] theorem cuts_pwr (rows : List Word) (rs : List (Nat × Nat)) (s : State) :
    (cuts rows rs s).2.pwr = s.pwr :=
  (foldl_keeps (fun acc : List Container × State => acc.2.pwr) (fun _ _ => cut_pwr ..) _ _).trans
    (dropUncarried_pwr ..)

@[simp] theorem sendHost_pwr (c : Nat) (bs : List Block66) (s : State) :
    (sendHost c bs s).pwr = s.pwr := by
  unfold sendHost
  apply foldl_pwr
  exact fun _ _ => onLane_pwr ..

@[simp] theorem drainEgress_pwr (c n : Nat) (s : State) : (drainEgress c n s).pwr = s.pwr := by
  simp [drainEgress]

@[simp] theorem topUp_pwr (l : Nat) (s : State) : (topUp l s).pwr = s.pwr := by
  unfold topUp
  dsimp only
  split <;> simp

@[simp] theorem turnToFill_pwr (c : Nat) (s : State) : (turnToFill c s).pwr = s.pwr := by
  simp [turnToFill]
@[simp] theorem deliverFill_pwr (c : Nat) (s : State) : (deliverFill c s).pwr = s.pwr := by
  simp [deliverFill]
@[simp] theorem fillAll_pwr (s : State) : (fillAll s).pwr = s.pwr := by simp [fillAll]
@[simp] theorem deliverErrorFill_pwr (c n : Nat) (predicted : Bool) (s : State) :
    (deliverErrorFill c n predicted s).pwr = s.pwr := by simp [deliverErrorFill]
@[simp] theorem deliverData_pwr (c phase : Nat) (blocks : List (BitVec 257)) (s : State) :
    (deliverData c phase blocks s).pwr = s.pwr := by simp [deliverData]
@[simp] theorem tcSkip_pwr (notice : Bool) (c : Nat) (s : State) :
    (tcSkip notice c s).pwr = s.pwr := by simp [tcSkip]

theorem execPtpIngress_keepsMode (c : Nat) (frame : List Byte) (s : State) :
    KeepsMode s (execPtpIngress c frame s) := by
  unfold execPtpIngress
  repeat' split
  all_goals simp

theorem execPtpEgress_keepsMode (c : Nat) (frame : List Byte) (s : State) :
    KeepsMode s (execPtpEgress c frame s) := by
  unfold execPtpEgress
  repeat' split
  all_goals simp

/-! ### The operations of Machine/Assembler.lean -/

@[simp] theorem switchStage_pwr (txTime : Nat) (s : State) :
    (switchStage txTime s).pwr = s.pwr := by
  unfold switchStage
  split <;> simp

theorem execFrameHandoff_keepsMode (s : State) : KeepsMode s (execFrameHandoff s) := by
  unfold execFrameHandoff
  split <;> simp

/-! ### The operations of Machine/Counters.lean -/

@[simp] theorem writeSnap_pwr (w : Word) (s : State) : (writeSnap w s).pwr = s.pwr := by
  simp [writeSnap]
@[simp] theorem writeView_pwr (w : Word) (s : State) : (writeView w s).pwr = s.pwr := by
  simp [writeView]
@[simp] theorem writeSampleRead_pwr (w : Word) (s : State) : (writeSampleRead w s).pwr = s.pwr := by
  simp [writeSampleRead]
@[simp] theorem onPmc_pwr (k : Nat) (f : Pmc → Pmc) (s : State) : (onPmc k f s).pwr = s.pwr := by
  simp [onPmc]
@[simp] theorem setCounter_pwr (off : Nat) (v : Quad) (s : State) :
    (setCounter off v s).pwr = s.pwr := by simp [setCounter]

@[simp] theorem commitPmc_pwr (k : Nat) (s : State) : (commitPmc k s).pwr = s.pwr := by
  unfold commitPmc
  repeat' split
  all_goals simp

@[simp] theorem ctrAccept_pwr (who : CtrIssuer) (priv : BitVec 2) (w : Nat → Word) (s : State) :
    (ctrAccept who priv w s).pwr = s.pwr := by simp [ctrAccept]

@[simp] theorem ctrConfigBody_pwr (j : Job) (s : State) :
    ((ctrConfigBody j s).state s).pwr = s.pwr := by
  unfold ctrConfigBody
  dsimp only
  split <;> simp

theorem execOpCtrConfig_keepsMode (c : CtrConfig) (s : State) :
    KeepsMode s (execOpCtrConfig c s) := by
  unfold execOpCtrConfig
  split <;> simp [zilvyConfig]

@[simp] theorem bwConfigBody_pwr (j : Job) (s : State) :
    ((bwConfigBody j s).state s).pwr = s.pwr := by
  unfold bwConfigBody
  dsimp only
  split <;> simp

/-! ### The operations of Machine/Cores.lean -/

@[simp] theorem onCore_pwr (c : Nat) (f : CoreSt → CoreSt) (s : State) :
    (onCore c f s).pwr = s.pwr := by simp [onCore]
@[simp] theorem coreFault_pwr (c cause : Nat) (s : State) : (coreFault c cause s).pwr = s.pwr := by
  simp [coreFault, releaseCore, abortByFault]
@[simp] theorem loadCore_pwr (c : Nat) (body : List (BitVec 128)) (s : State) :
    (loadCore c body s).pwr = s.pwr := by simp [loadCore]

@[simp] theorem copyBody_pwr (g d a n : Nat) (s : State) : (copyBody g d a n s).2.pwr = s.pwr := by
  induction n generalizing a s with
  | zero => rfl
  | succ n ih => simp only [copyBody]; split <;> simp [ih]

@[simp] theorem deliverWaiting_pwr (s : State) : (deliverWaiting s).pwr = s.pwr := by
  simp [deliverWaiting]

@[simp] theorem coreOffline_pwr (c : Nat) (s : State) : (coreOffline c s).pwr = s.pwr := by
  unfold coreOffline
  dsimp only
  split <;> simp

@[simp] theorem coreBack_pwr (c : Nat) (body : List (BitVec 128)) (s : State) :
    (coreBack c body s).pwr = s.pwr := by
  unfold coreBack
  dsimp only
  split <;> simp

theorem execCoreRestarted_keepsMode (c : Nat) (s : State) :
    KeepsMode s (execCoreRestarted c s) := by
  unfold execCoreRestarted
  dsimp only
  repeat' split
  all_goals simp

/-! ### The operations of Machine/Skim.lean -/

@[simp] theorem skimTrigger_pwr (b : Nat) (s : State) : (skimTrigger b s).pwr = s.pwr := by
  simp [skimTrigger]
@[simp] theorem stopSkim_pwr (s : State) : (stopSkim s).pwr = s.pwr := by simp [stopSkim]
@[simp] theorem requestReset_pwr (job : Option Nat) (s : State) :
    (requestReset job s).pwr = s.pwr := by simp [requestReset]

@[simp] theorem skimConfigBody_pwr (j : Job) (s : State) :
    ((skimConfigBody j s).state s).pwr = s.pwr := by
  unfold skimConfigBody
  dsimp only
  split <;> simp

/-! ### The operations of Machine/Transmit.lean -/

@[simp] theorem enterOut_pwr (o : OutState) (phi : Rat) (s : State) :
    (enterOut o phi s).pwr = s.pwr := by simp [enterOut]
@[simp] theorem setRequest_pwr (b : Bool) (s : State) : (setRequest b s).pwr = s.pwr := by
  simp [setRequest]
@[simp] theorem writeTxOutput_pwr (w : Word) (s : State) : (writeTxOutput w s).pwr = s.pwr := by
  simp [writeTxOutput]

@[simp] theorem portNext_pwr (s : State) : (portNext s).pwr = s.pwr := by
  unfold portNext
  repeat' split
  all_goals simp

@[simp] theorem runHooks_pwr (k : HookKind) (ws : List Word) (s : State) :
    (runHooks k ws s).pwr = s.pwr := by simp [runHooks]

@[simp] theorem transDone_pwr (h : OptTrans) (data : BitVec 16) (s : State) :
    (transDone h data s).pwr = s.pwr := by
  unfold transDone
  dsimp only
  split <;> simp [hooksDone]

@[simp] theorem transFailed_pwr (h : OptTrans) (status : BitVec 8) (detail : Word) (s : State) :
    (transFailed h status detail s).pwr = s.pwr := by
  unfold transFailed
  split <;> simp [hookFailed]

theorem execOptTransactionEnd_keepsMode (status : BitVec 8) (data : BitVec 16) (crc : BitVec 8)
    (s : State) :
    KeepsMode s (execOptTransactionEnd status data crc s) := by
  unfold execOptTransactionEnd
  dsimp only
  repeat' split
  all_goals simp

@[simp] theorem retryNow_pwr (w : OptWire) (s : State) : (retryNow w s).pwr = s.pwr := by
  simp [retryNow]

theorem execOptRetry_keepsMode (s : State) : KeepsMode s (execOptRetry s) := by
  unfold execOptRetry
  split <;> simp

@[simp] theorem optListBody_pwr (read : Bool) (j : Job) (s : State) :
    ((optListBody read j s).state s).pwr = s.pwr := by simp [optListBody]

@[simp] theorem portOpens_pwr (s : State) : (portOpens s).pwr = s.pwr := by
  unfold portOpens
  dsimp only
  split <;> simp

theorem execOptResetEnd_keepsMode (s : State) : KeepsMode s (execOptResetEnd s) := by
  unfold execOptResetEnd
  repeat' split
  all_goals simp

@[simp] theorem sampleRequest_pwr (s : State) : (sampleRequest s).pwr = s.pwr := by
  unfold sampleRequest
  dsimp only
  split <;> simp [startUp]

@[simp] theorem applyFilter_pwr (s : State) : (applyFilter s).pwr = s.pwr := by
  unfold applyFilter
  split <;> simp

theorem clipLane_pwr (src limit lane n : Nat) (s : State) :
    (clipLane src limit lane n s).pwr = s.pwr := by
  unfold clipLane
  split
  · exact raiseLimited_pwr _ _ _ s
  · rfl
@[simp] theorem clipWindow_pwr (src limit : Nat) (c : FourCounts) (s : State) :
    (clipWindow src limit c s).pwr = s.pwr := by
  unfold clipWindow
  rw [clipLane_pwr, clipLane_pwr, clipLane_pwr, clipLane_pwr]
@[simp] theorem countClips_pwr (base : Nat) (c : FourCounts) (s : State) :
    (countClips base c s).pwr = s.pwr := by simp [countClips]

@[simp] theorem updateFilter_pwr (j : Job) (f : TxFilter) (s : State) :
    ((updateFilter j f s).state s).pwr = s.pwr := by
  unfold updateFilter
  split <;> simp

@[simp] theorem txMaskBody_pwr (j : Job) (s : State) : ((txMaskBody j s).state s).pwr = s.pwr := by
  unfold txMaskBody
  dsimp only
  split <;> simp

@[simp] theorem txPrecompBody_pwr (j : Job) (s : State) :
    ((txPrecompBody j s).state s).pwr = s.pwr := by
  unfold txPrecompBody
  dsimp only
  split <;> simp

@[simp] theorem txRampBody_pwr (j : Job) (s : State) : ((txRampBody j s).state s).pwr = s.pwr := by
  unfold txRampBody
  split <;> simp

@[simp] theorem txHooksBody_pwr (j : Job) (s : State) :
    ((txHooksBody j s).state s).pwr = s.pwr := by
  unfold txHooksBody
  dsimp only
  split <;> simp

/-! ### The operations of Machine/Receive.lean -/

@[simp] theorem settleLineclk_pwr (s : State) : (settleLineclk s).pwr = s.pwr := by
  simp [settleLineclk]
@[simp] theorem toAcq_pwr (n : Nat) (restarted : Bool) (s : State) :
    (toAcq n restarted s).pwr = s.pwr := by simp [toAcq]
@[simp] theorem recordLof_pwr (cause : Nat) (s : State) : (recordLof cause s).pwr = s.pwr := by
  simp [recordLof]

@[simp] theorem lossOfFrame_upToLock (cause restart : Nat) (s : State) :
    (lossOfFrame cause restart s).pwr.mode.upToLock = s.pwr.mode.upToLock := by
  by_cases h : s.pwr.mode = .traffic <;> simp [lossOfFrame, h, Mode.upToLock]

@[simp] theorem signalLost_upToLock (cause : Nat) (s : State) :
    (signalLost cause s).pwr.mode.upToLock = s.pwr.mode.upToLock := by simp [signalLost]
@[simp] theorem loopUnlocked_upToLock (cause : Nat) (s : State) :
    (loopUnlocked cause s).pwr.mode.upToLock = s.pwr.mode.upToLock := by simp [loopUnlocked]
@[simp] theorem acqComplete_pwr (s : State) : (acqComplete s).pwr = s.pwr := by
  simp [acqComplete]

@[simp] theorem acquired_upToLock (s : State) :
    (acquired s).pwr.mode.upToLock = s.pwr.mode.upToLock := by
  by_cases h : s.pwr.mode = .acquire <;> simp [acquired, h, Mode.upToLock]

@[simp] theorem acqOnMode_pwr (old new : Mode) (s : State) : (acqOnMode old new s).pwr = s.pwr := by
  unfold acqOnMode
  split <;> simp [holdAcq]

@[simp] theorem enterMode_mode (officer : Bool) (m : Mode) (s : State) :
    (enterMode officer m s).pwr.mode = m := by simp [enterMode]
@[simp] theorem enterReady_mode (officer : Bool) (s : State) :
    (enterReady officer s).pwr.mode = .ready := by simp [enterReady]
@[simp] theorem stopReceive_pwr (s : State) : (stopReceive s).pwr = s.pwr := by
  simp [stopReceive]
@[simp] theorem feedCodes_pwr (codes : List FourCodes) (s : State) :
    (feedCodes codes s).pwr = s.pwr := by simp [feedCodes]

theorem execCdFound_keepsMode (scan : CdScan) (s : State) :
    KeepsMode s (execCdFound scan s) := by
  unfold execCdFound
  split <;> simp

@[simp] theorem checkCfo_pwr (cfo : Int) (s : State) : (checkCfo cfo s).pwr = s.pwr := by
  simp [checkCfo]

theorem execAcqTimeout_keepsMode (s : State) : KeepsMode s (execAcqTimeout s) := by
  unfold execAcqTimeout
  repeat' split
  all_goals simp

@[simp] theorem sendLo_pwr (m : LoMsg) (s : State) : (sendLo m s).pwr = s.pwr := by
  simp [sendLo]
@[simp] theorem newLo_pwr (step : Bool) (value : Int) (s : State) :
    (newLo step value s).pwr = s.pwr := by simp [newLo]

theorem execCdTrackUpdate_keepsMode (estimate : Int) (s : State) :
    KeepsMode s (execCdTrackUpdate estimate s) := by
  rw [execCdTrackUpdate, keepsMode_next]
  dsimp only
  split
  · split
    · repeat' split
      all_goals simp only [State.onRx_pwr, raise_pwr]
    · rw [State.onRx_pwr]
  · rfl

theorem execLoSteerInterval_keepsMode (n : Nat) (s : State) :
    KeepsMode s (execLoSteerInterval n s) := by
  unfold execLoSteerInterval
  dsimp only
  repeat' split
  all_goals simp [steerLo]

theorem execLoRetry_keepsMode (s : State) : KeepsMode s (execLoRetry s) := by
  unfold execLoRetry
  split <;> simp

@[simp] theorem applyDispersion_pwr (s : State) : (applyDispersion s).pwr = s.pwr := by
  unfold applyDispersion
  split <;> simp

@[simp] theorem applyRx_pwr (op : BitVec 16) (p : List Word) (s : State) :
    (applyRx op p s).pwr = s.pwr := by
  simp only [applyRx, restartAcquire]
  repeat' split
  all_goals simp

@[simp] theorem commitRx_pwr (s : State) : (commitRx s).pwr = s.pwr := by simp [commitRx]
@[simp] theorem queueRx_pwr (j : Job) (s : State) : ((queueRx j s).state s).pwr = s.pwr := by
  simp [queueRx]

@[simp] theorem rxFrontendBody_pwr (j : Job) (s : State) :
    ((rxFrontendBody j s).state s).pwr = s.pwr := by
  unfold rxFrontendBody
  split <;> simp

@[simp] theorem rxCdBody_pwr (j : Job) (s : State) : ((rxCdBody j s).state s).pwr = s.pwr := by
  unfold rxCdBody
  dsimp only
  split <;> simp

@[simp] theorem rxSeparatorBody_pwr (j : Job) (s : State) :
    ((rxSeparatorBody j s).state s).pwr = s.pwr := by
  unfold rxSeparatorBody
  dsimp only
  split <;> simp

@[simp] theorem frontStep_pwr (m : RxMeasure) (s : State) : (frontStep m s).pwr = s.pwr := by
  simp [frontStep, raiseFront]
@[simp] theorem slowQuality_pwr (m : RxMeasure) (s : State) : (slowQuality m s).pwr = s.pwr := by
  simp [slowQuality, overThreshold]
@[simp] theorem quality_pwr (m : RxMeasure) (s : State) : (quality m s).pwr = s.pwr := by
  simp [quality]

@[simp] theorem syncCheck_upToLock (s : State) :
    (syncCheck s).pwr.mode.upToLock = s.pwr.mode.upToLock := by
  unfold syncCheck
  dsimp only
  generalize hu : s.onRx _ = u
  rw [← State.onRx_pwr _ s, hu]
  split
  · simp
  · split <;> simp

@[simp] theorem heldSync_pwr (s : State) : (heldSync s).pwr = s.pwr := by
  unfold heldSync
  split <;> simp

@[simp] theorem endFrame_upToLock (m : RxMeasure) (s : State) :
    (endFrame m s).pwr.mode.upToLock = s.pwr.mode.upToLock := by simp [endFrame]
@[simp] theorem beginFrame_pwr (m : RxMeasure) (s : State) : (beginFrame m s).pwr = s.pwr := by
  simp [beginFrame]
@[simp] theorem poisonCoeff_pwr (a : Nat) (s : State) : (poisonCoeff a s).pwr = s.pwr := by
  simp [poisonCoeff]
@[simp] theorem readCoeffs_pwr (s : State) : (readCoeffs s).pwr = s.pwr := by simp [readCoeffs]

/-! ### The operations of Machine/Fabric.lean -/

@[simp] theorem modBlock_pwr (b : Quad) (f : DecBlock → DecBlock) (s : State) :
    (modBlock b f s).pwr = s.pwr := by simp [modBlock]

@[simp] theorem readUntil_pwr (g d a n : Nat) (s : State) :
    (readUntil g d a n s).2.pwr = s.pwr := by
  induction n generalizing a s with
  | zero => rfl
  | succ n ih => simp only [readUntil]; split <;> simp [ih]

@[simp] theorem readSlot_pwr (c k : Nat) (s : State) : (readSlot c k s).2.pwr = s.pwr := by
  simp [readSlot]

@[simp] theorem countCause_pwr (b : DecBlock) (k : Cause) (s : State) :
    (countCause b k s).pwr = s.pwr := by
  unfold countCause
  repeat' split
  all_goals simp

@[simp] theorem finalize_pwr (b : Quad) (k : Cause) (s : State) : (finalize b k s).pwr = s.pwr := by
  unfold finalize
  repeat' split
  all_goals simp

@[simp] theorem engineCycles_pwr (c n : Nat) (s : State) : (engineCycles c n s).pwr = s.pwr := by
  simp [engineCycles]

@[simp] theorem abandonPass_pwr (b : DecBlock) (s : State) : (abandonPass b s).pwr = s.pwr := by
  unfold abandonPass
  split <;> simp

@[simp] theorem noteBlock_pwr (code : Nat) (b : DecBlock) (churn : Option Nat) (s : State) :
    (noteBlock code b churn s).pwr = s.pwr := by
  unfold noteBlock
  split <;> simp

@[simp] theorem faultBlock_pwr (b : Quad) (s : State) : (faultBlock b s).pwr = s.pwr := by
  unfold faultBlock
  split <;> simp

@[simp] theorem startBlock_pwr (now c : Nat) (b : Quad) (s : State) :
    (startBlock now c b s).pwr = s.pwr := by simp [startBlock]

@[simp] theorem takeOwn_pwr (now c : Nat) (l : List DecBlock) (s : State) :
    (takeOwn now c l s).2.pwr = s.pwr := by
  induction l generalizing s with
  | nil => rfl
  | cons b l ih =>
    unfold takeOwn
    split
    · exact ih s
    · split
      · simp
      · simp [ih]

@[simp] theorem fillOwn_pwr (now c n : Nat) (s : State) : (fillOwn now c n s).pwr = s.pwr := by
  induction n generalizing s with
  | zero => rfl
  | succ n ih => simp [fillOwn, ih]

@[simp] theorem startTransfer_pwr (now : Nat) (s : State) (b : DecBlock) :
    (startTransfer now s b).pwr = s.pwr := by
  unfold startTransfer
  split <;> simp

@[simp] theorem startTransfers_pwr (now : Nat) (s : State) :
    (startTransfers now s).pwr = s.pwr := by
  simp [startTransfers]

@[simp] theorem stealOne_pwr (now c : Nat) (s : State) : (stealOne now c s).2.pwr = s.pwr := by
  unfold stealOne
  repeat' split
  all_goals simp

@[simp] theorem stealFor_pwr (now c n : Nat) (s : State) : (stealFor now c n s).pwr = s.pwr := by
  induction n generalizing s with
  | zero => rfl
  | succ n ih => simp [stealFor, ih]

@[simp] theorem schedule_pwr (s : State) : (schedule s).pwr = s.pwr := by simp [schedule]
@[simp] theorem atSample_pwr (now : Nat) (s : State) : (atSample now s).pwr = s.pwr := by
  simp [atSample]
@[simp] theorem applyDecCfg_pwr (c : DecCfg) (s : State) : (applyDecCfg c s).pwr = s.pwr := by
  simp [applyDecCfg]
@[simp] theorem commitDecCfg_pwr (s : State) : (commitDecCfg s).pwr = s.pwr := by
  simp [commitDecCfg]

@[simp] theorem dispatch_pwr (b : DecBlock) (llrs : List Int) (s : State) :
    (dispatch b llrs s).pwr = s.pwr := by
  unfold dispatch
  split
  · simp
  · split
    · simp
    · rw [modBlock_pwr, State.onDec_pwr, writeWords_pwr, noteBlock_pwr]

@[simp] theorem dumpChurn_pwr (c : Nat) (s : State) : (dumpChurn c s).pwr = s.pwr := by
  simp [dumpChurn]
@[simp] theorem countPrefec_pwr (llrs : List Int) (code : Nat) (info : List Bool) (s : State) :
    (countPrefec llrs code info s).pwr = s.pwr := by simp [countPrefec]
@[simp] theorem countAttempt_pwr (b : DecBlock) (s : State) : (countAttempt b s).pwr = s.pwr := by
  simp [countAttempt]
@[simp] theorem afterIteration_pwr (now c : Nat) (x : DecBlock) (llrs : List Int)
    (decisions : List Bool) (s : State) :
    (afterIteration now c x llrs decisions s).pwr = s.pwr := by simp [afterIteration]
@[simp] theorem endIteration_pwr (now c : Nat) (x : DecBlock) (ws : List (BitVec 128)) (s : State) :
    (endIteration now c x ws s).pwr = s.pwr := by simp [endIteration]

theorem execIterationEnd_keepsMode (now : Nat) (b : BitVec 64) (c : Nat) (s : State) :
    KeepsMode s (execIterationEnd now b c s) := by
  unfold execIterationEnd
  dsimp only
  repeat' split
  all_goals simp

theorem execBlockDeadline_keepsMode (now : Nat) (b : BitVec 64) (s : State) :
    KeepsMode s (execBlockDeadline now b s) := by
  unfold execBlockDeadline
  split <;> simp

theorem execStealTransferEnd_keepsMode (now : Nat) (b : BitVec 64) (parityError : Bool)
    (s : State) :
    KeepsMode s (execStealTransferEnd now b parityError s) := by
  unfold execStealTransferEnd
  dsimp only
  repeat' split
  all_goals simp [landSteal]

theorem execVatWriteEnd_keepsMode (now : Nat) (b : BitVec 64) (s : State) :
    KeepsMode s (execVatWriteEnd now b s) := by
  unfold execVatWriteEnd
  repeat' split
  all_goals simp

@[simp] theorem vatPoison_pwr (a : Nat) (s : State) : (vatPoison a s).pwr = s.pwr := by
  unfold vatPoison
  split <;> simp

@[simp] theorem endReturn_pwr (c : Nat) (s : State) : (endReturn c s).pwr = s.pwr := by
  simp [endReturn]

theorem execChurnOnline_keepsMode (c : Nat) (s : State) :
    KeepsMode s (execChurnOnline c s) := by
  unfold execChurnOnline
  dsimp only
  repeat' split
  all_goals simp [invalidateBank]

@[simp] theorem stopFabric_pwr (s : State) : (stopFabric s).pwr = s.pwr := by simp [stopFabric]

@[simp] theorem decConfigBody_pwr (j : Job) (s : State) :
    ((decConfigBody j s).state s).pwr = s.pwr := by
  unfold decConfigBody
  dsimp only
  split <;> simp

theorem execFabricCreditWindow_keepsMode (s : State) (requests : List FabricReq) :
    KeepsMode s (execFabricCreditWindow s requests) := by
  rw [execFabricCreditWindow, keepsMode_next]
  dsimp only
  split
  · rw [State.onDec_pwr, foldl_pwr]
    · rw [State.onDec_pwr, State.onDec_pwr, noteEvents_pwr, State.onDec_pwr]
    · exact fun _ _ => (commitDone_pwr ..).trans (State.onDec_pwr ..)
  · rfl

/-! ### The operations of Machine/Integrity.lean -/

@[simp] theorem consequence_pwr (g a : Nat) (s : State) : (consequence g a s).pwr = s.pwr := by
  unfold consequence
  split <;> simp

theorem execCoeffSetRebuilt_keepsMode (s : State) : KeepsMode s (execCoeffSetRebuilt s) := by
  unfold execCoeffSetRebuilt
  split <;> simp

@[simp] theorem drainInto_pwr (g : Nat) (e : MergeEntry) (s : State) :
    (drainInto g e s).pwr = s.pwr := by
  unfold drainInto
  dsimp only
  repeat' split
  all_goals simp [discardWrite]

@[simp] theorem portReads_pwr (g : Nat) (l : List PortRead) (s : State) :
    (portReads g l s).pwr = s.pwr := by
  induction l generalizing s with
  | nil => rfl
  | cons r l ih => simp [portReads, ih]

theorem execMergeDrain_keepsMode (g addr : Nat) (writes : List NarrowWrite)
    (reads : List PortRead) (s : State) :
    KeepsMode s (execMergeDrain g addr writes reads s) := by
  unfold execMergeDrain
  dsimp only
  repeat' split
  all_goals simp [portWrites]

@[simp] theorem scrubWord_pwr (g a : Nat) (s : State) : (scrubWord g a s).pwr = s.pwr := by
  unfold scrubWord
  dsimp only
  repeat' split
  all_goals simp

@[simp] theorem lapWatchdog_pwr (g : Nat) (s : State) : (lapWatchdog g s).pwr = s.pwr := by
  simp [lapWatchdog]
@[simp] theorem writeLapLimit_pwr (g : Nat) (w : Word) (s : State) :
    (writeLapLimit g w s).pwr = s.pwr := by simp [writeLapLimit]
@[simp] theorem clearLog_pwr (g : Nat) (s : State) : (clearLog g s).pwr = s.pwr := by
  simp [clearLog]

@[simp] theorem memgWrite_pwr (g : Nat) {f : State → State} (h : ∀ s, (f s).pwr = s.pwr)
    (s : State) :
    (memgWrite g f s).pwr = s.pwr := by
  simp [memgWrite, h]

@[simp] theorem writeMemgStatus_pwr (g : Nat) (w : Word) (s : State) :
    (writeMemgStatus g w s).pwr = s.pwr := by simp [writeMemgStatus]

@[simp] theorem endPass_pwr (g : Nat) (status : BitVec 8) (s : State) :
    (endPass g status s).pwr = s.pwr := by
  unfold endPass
  split <;> simp

@[simp] theorem cutPass_pwr (g : Nat) (s : State) : (cutPass g s).pwr = s.pwr := by
  simp [cutPass]

@[simp] theorem passWord_pwr (g a : Nat) (s : State) : (passWord g a s).2.2.pwr = s.pwr := by
  unfold passWord
  dsimp only
  repeat' split
  all_goals simp

@[simp] theorem passStep_pwr (g a : Nat) (q : Pass × State) : (passStep g a q).2.pwr = q.2.pwr := by
  simp [passStep]

theorem execRecoveryPassRead_keepsMode (g : Nat) (s : State) :
    KeepsMode s (execRecoveryPassRead g s) := by
  rw [execRecoveryPassRead, keepsMode_next]
  split
  · rfl
  · split
    · rw [onGrp_pwr, foldl_keeps (fun q : Pass × State => q.2.pwr) fun _ _ => passStep_pwr ..]
    · rfl

theorem execRecoveryPassEnd_keepsMode (g : Nat) (s : State) :
    KeepsMode s (execRecoveryPassEnd g s) := by
  unfold execRecoveryPassEnd
  split <;> simp

@[simp] theorem memRecoverBody_pwr (j : Job) (s : State) :
    ((memRecoverBody j s).state s).pwr = s.pwr := by
  unfold memRecoverBody
  dsimp only
  split <;> simp

@[simp] theorem memInjectBody_pwr (j : Job) (s : State) :
    ((memInjectBody j s).state s).pwr = s.pwr := by
  unfold memInjectBody
  dsimp only
  split <;> simp [injectWord]

/-! ### The operations of Machine/Boot.lean -/

@[simp] theorem sendFlash_mode (ops : List FlashOp) (s : State) :
    (sendFlash ops s).pwr.mode = s.pwr.mode := by simp [sendFlash]
@[simp] theorem setSlot_mode (src : ImageSource) (l : List Byte) (s : State) :
    (setSlot src l s).pwr.mode = s.pwr.mode := by simp [setSlot]
@[simp] theorem verifyImage_mode (i : Image) (s : State) :
    (verifyImage i s).pwr.mode = s.pwr.mode := by simp [verifyImage]
@[simp] theorem answerChunk_pwr (code : Nat) (s : State) : (answerChunk code s).pwr = s.pwr := by
  simp [answerChunk]
@[simp] theorem failLoad_mode (code : Nat) (s : State) :
    (failLoad code s).pwr.mode = s.pwr.mode := by
  simp [failLoad]

@[simp] theorem takeChunk_mode (s : State) : (takeChunk s).pwr.mode = s.pwr.mode := by
  unfold takeChunk
  split <;> simp

@[simp] theorem postRequest_mode (s : State) : (postRequest s).pwr.mode = s.pwr.mode := by
  unfold postRequest
  split <;> simp [postChunk, postCommand]

@[simp] theorem slotAttempt_mode (src : ImageSource) (rest : List ImageSource) (how : FlashRead)
    (s : State) :
    (slotAttempt src rest how s).pwr.mode = s.pwr.mode := by simp [slotAttempt]

@[simp] theorem mailboxAttempt_mode (s : State) : (mailboxAttempt s).pwr.mode = s.pwr.mode := by
  unfold mailboxAttempt
  split <;> simp

theorem execBootSourceAttemptEnd_keepsMode (r : FlashRead) (s : State) :
    KeepsMode s (execBootSourceAttemptEnd r s) := by
  unfold execBootSourceAttemptEnd
  repeat' split
  all_goals simp

@[simp] theorem resumeLaps_pwr (s : State) : (resumeLaps s).pwr = s.pwr := by simp [resumeLaps]
@[simp] theorem setStageFail_mode (f : Nat) (s : State) :
    (setStageFail f s).pwr.mode = s.pwr.mode := by simp [setStageFail]

theorem execFwStaged_keepsMode (e : FlashEnd) (s : State) :
    KeepsMode s (execFwStaged e s) := by
  unfold execFwStaged
  split <;> simp

/-! ### The operations of Machine/Deframer.lean -/

@[simp] theorem readEntry_pwr (b : DecBlock) (s : State) : (readEntry b s).2.pwr = s.pwr := by
  unfold readEntry
  split <;> simp

theorem execBlockRelease_keepsMode (now : Nat) (s : State) :
    KeepsMode s (execBlockRelease now s) := by
  unfold execBlockRelease
  split <;> simp [pushBlock, countRelease, countFailed]

@[simp] theorem takeFrame_pwr (x : RxFrame) (s : State) : (takeFrame x s).pwr = s.pwr := by
  simp [takeFrame]
@[simp] theorem measure_pwr (x : RxFrame) (t2 : Nat) (s : State) :
    (measure x t2 s).pwr = s.pwr := by
  simp [measure]
@[simp] theorem takeEcho_pwr (x : RxFrame) (t2 age : Nat) (s : State) :
    (takeEcho x t2 age s).pwr = s.pwr := by simp [takeEcho]

@[simp] theorem overheadStep_upToLock (x : RxFrame) (s : State) :
    (overheadStep x s).pwr.mode.upToLock = s.pwr.mode.upToLock := by
  unfold overheadStep
  split
  · simp
  · dsimp only
    split
    · rfl
    · split
      · generalize hu : s.onRx _ = u
        rw [← State.onRx_pwr _ s, hu]
        split <;> simp
      · split
        · generalize hu : s.onRx _ = u
          rw [← State.onRx_pwr _ s, hu]
          split <;> simp
        · rfl

@[simp] theorem checkDetector_pwr (x : RxFrame) (s : State) : (checkDetector x s).pwr = s.pwr := by
  simp [checkDetector]

@[simp] theorem checkTag_pwr (x : RxFrame) (l : List (Word × Nat × Nat)) (c : Nat) (s : State) :
    (checkTag x l c s).2.pwr = s.pwr := by
  unfold checkTag
  dsimp only
  repeat' split
  all_goals simp [noKey]

@[simp] theorem countTag_pwr (c : Nat) (touched : Bool) (t : TagCheck) (s : State) :
    (countTag c touched t s).pwr = s.pwr := by
  unfold countTag
  split <;> simp [tagPassed, tagFailed]

@[simp] theorem fillError_pwr (x : RxFrame) (l : List (Word × Nat × Nat)) (c slots : Nat)
    (t : TagCheck) (s : State) :
    (fillError x l c slots t s).pwr = s.pwr := by
  unfold fillError
  split <;> simp

@[simp] theorem noteCount_pwr (x : RxFrame) (l : List (Word × Nat × Nat)) (c slots : Nat)
    (t : TagCheck) (s : State) :
    (noteCount x l c slots t s).pwr = s.pwr := by
  unfold noteCount
  split <;> simp

@[simp] theorem deliverRows_pwr (x : RxFrame) (l : List (Word × Nat × Nat)) (c slots : Nat)
    (touched : Bool) (t : TagCheck) (s : State) :
    (deliverRows x l c slots touched t s).pwr = s.pwr := by
  unfold deliverRows
  repeat' split
  all_goals simp

@[simp] theorem farFail_pwr (x : RxFrame) (c : Nat) (s : State) : (farFail x c s).pwr = s.pwr := by
  simp [farFail]
@[simp] theorem receiveCircuit_pwr (x : RxFrame) (l : List (Word × Nat × Nat)) (c : Nat)
    (s : State) :
    (receiveCircuit x l c s).pwr = s.pwr := by simp [receiveCircuit]
@[simp] theorem fillFrame_pwr (s : State) : (fillFrame s).pwr = s.pwr := by simp [fillFrame]

@[simp] theorem endUnterminated_pwr (cs : List Nat) (s : State) :
    (endUnterminated cs s).pwr = s.pwr := by
  unfold endUnterminated
  apply foldl_pwr
  exact fun _ _ => onCirc_pwr ..

@[simp] theorem deliverFrame_pwr (x : RxFrame) (rows : List Word) (s : State) :
    (deliverFrame x rows s).pwr = s.pwr := by simp [deliverFrame]

@[simp] theorem mapMatches_pwr (x : RxFrame) (s : State) : (mapMatches x s).2.pwr = s.pwr := by
  unfold mapMatches
  split <;> simp

@[simp] theorem carriedBitsOf_pwr (x : RxFrame) (rows : List Word) (s : State) :
    (carriedBitsOf x rows s).pwr = s.pwr := by simp [carriedBitsOf]

@[simp] theorem sequenceFrame_pwr (x : RxFrame) (inTraffic : Bool) (s : State) :
    (sequenceFrame x inTraffic s).pwr = s.pwr := by
  unfold sequenceFrame
  dsimp only
  split <;> simp

/-! ### The operations of Machine/Modes.lean -/

theorem execReadyEntry_keepsMode (katPassed : Bool) (s : State) :
    KeepsMode s (execReadyEntry katPassed s) := by
  simp only [execReadyEntry, startCodeP, katDone]
  repeat' split
  all_goals simp

@[simp] theorem startBit_mode (i : Nat) (s : State) : (startBit i s).pwr.mode = s.pwr.mode := by
  simp [startBit]

theorem execReadyUnitStart_keepsMode (u : StartUnit) (s : State) :
    KeepsMode s (execReadyUnitStart u s) := by
  unfold execReadyUnitStart
  repeat' split
  all_goals simp [startChurnGroup]

@[simp] theorem endTransition_mode (s : State) : (endTransition s).pwr.mode = s.pwr.mode := by
  unfold endTransition
  split <;> simp

@[simp] theorem startWindDown_mode (s : State) : (startWindDown s).pwr.mode = s.pwr.mode := by
  simp [startWindDown]

theorem execWindDownUnitStop_keepsMode (s : State) :
    KeepsMode s (execWindDownUnitStop s) := by
  unfold execWindDownUnitStop
  split <;> simp [stopNext, stopUnit]

@[simp] theorem stopCodeP_mode (s : State) : (stopCodeP s).pwr.mode = s.pwr.mode := by
  simp [stopCodeP]
@[simp] theorem cutWork_mode (j : Nat) (s : State) : (cutWork j s).pwr.mode = s.pwr.mode := by
  simp [cutWork]
@[simp] theorem cutOff_mode (j : Job) (s : State) : (cutOff j s).pwr.mode = s.pwr.mode := by
  simp [cutOff]
@[simp] theorem resetBody_mode (j : Job) (s : State) :
    ((resetBody j s).state s).pwr.mode = s.pwr.mode := by simp [resetBody]
@[simp] theorem loadKey_pwr (c : Nat) (b : Bool) (key : List Byte) (s : State) :
    (loadKey c b key s).pwr = s.pwr := by simp [loadKey]

@[simp] theorem bistBody_mode (j : Job) (s : State) :
    ((bistBody j s).state s).pwr.mode = s.pwr.mode := by
  unfold bistBody
  dsimp only
  split <;> simp

theorem execBistDone_keepsMode (failed : BitVec 5) (firstFail : Word) (s : State) :
    KeepsMode s (execBistDone failed firstFail s) := by
  unfold execBistDone
  split <;> simp

/-! ### The operations of Machine/Telemetry.lean -/

@[simp] theorem loadSequence_pwr (seq : List MonEntry) (log2 : Nat) (s : State) :
    (loadSequence seq log2 s).pwr = s.pwr := by simp [loadSequence]

@[simp] theorem startPass_pwr (s : State) : (startPass s).pwr = s.pwr := by
  unfold startPass
  split <;> simp

@[simp] theorem monStart_pwr (s : State) : (monStart s).pwr = s.pwr := by simp [monStart]

@[simp] theorem disturbCode_pwr (e : MonEntry) (code : BitVec 12) (s : State) :
    (disturbCode e code s).2.pwr = s.pwr := by
  unfold disturbCode
  split <;> simp

theorem execConversionEnd_keepsMode (i input : Nat) (v : InputSource) (s : State) :
    KeepsMode s (execConversionEnd i input v s) := by
  unfold execConversionEnd
  dsimp only
  repeat' split
  all_goals simp [takeConversion, decimate, endMonPass, endWindow]

@[simp] theorem monSequenceBody_pwr (j : Job) (s : State) :
    ((monSequenceBody j s).state s).pwr = s.pwr := by
  unfold monSequenceBody
  dsimp only
  split <;> simp

/-! ### The operations of Machine/Bus.lean -/

@[simp] theorem readEffect_pwr (a : Nat) (s : State) : (readEffect a s).pwr = s.pwr := by
  unfold readEffect
  split <;> simp

@[simp] theorem readRegister_pwr (m a : Nat) (s : State) : (readRegister m a s).2.pwr = s.pwr := by
  unfold readRegister
  repeat' split
  all_goals simp [loadLatch]

@[simp] theorem readWindow_pwr (m g a half : Nat) (s : State) :
    (readWindow m g a half s).2.pwr = s.pwr := by
  unfold readWindow
  dsimp only
  repeat' split
  all_goals simp [markPoisoned, poisonRead]

@[simp] theorem busRead_pwr (m addr : Nat) (s : State) : (busRead m addr s).2.pwr = s.pwr := by
  unfold busRead
  dsimp only
  repeat' split
  all_goals simp

@[simp] theorem busReadWords_pwr (m n a : Nat) (s : State) :
    (busReadWords m n a s).2.pwr = s.pwr := by
  induction n generalizing a s with
  | zero => rfl
  | succ n ih => simp [busReadWords, ih]

@[simp] theorem readTlp_pwr (m : Nat) (span : ReadSpan) (s : State) :
    (readTlp m span s).pwr = s.pwr := by simp [readTlp]
@[simp] theorem writeResetCause_mode (w : Word) (s : State) :
    (writeResetCause w s).pwr.mode = s.pwr.mode := by simp [writeResetCause]

@[simp] theorem writeRing_pwr (o : Nat) (w : Word) (s : State) : (writeRing o w s).pwr = s.pwr := by
  unfold writeRing
  repeat' split
  all_goals simp

@[simp] theorem writeIcuGroup_pwr (n q : Nat) (w : Word) (s : State) :
    (writeIcuGroup n q w s).pwr = s.pwr := by
  unfold writeIcuGroup
  split <;> simp [writeLogmask]

@[simp] theorem writeIcu_pwr (a : Nat) (w : Word) (s : State) : (writeIcu a w s).pwr = s.pwr := by
  unfold writeIcu
  split <;> simp

@[simp] theorem writeEvlog_pwr (o : Nat) (w : Word) (s : State) :
    (writeEvlog o w s).pwr = s.pwr := by
  unfold writeEvlog
  split <;> simp

@[simp] theorem writePmu_pwr (o : Nat) (w : Word) (s : State) : (writePmu o w s).pwr = s.pwr := by
  unfold writePmu
  split <;> simp

@[simp] theorem writeMemi_pwr (o : Nat) (w : Word) (s : State) : (writeMemi o w s).pwr = s.pwr := by
  unfold writeMemi
  repeat' split
  all_goals simp

@[simp] theorem hostWrite_mode (a : Nat) (w : Word) (s : State) :
    (hostWrite a w s).pwr.mode = s.pwr.mode := by
  unfold hostWrite
  repeat' split
  all_goals simp [writeBaseLo, writeNcoLo]

@[simp] theorem hostWriteWords_mode (a : Nat) (l : List Word) (s : State) :
    (hostWriteWords a l s).pwr.mode = s.pwr.mode := by
  induction l generalizing a s with
  | nil => rfl
  | cons w l ih => simp [hostWriteWords, ih]

@[simp] theorem i2cWord_mode (a : Nat) (w : Word) (s : State) :
    (i2cWord a w s).pwr.mode = s.pwr.mode := by
  unfold i2cWord
  repeat' split
  all_goals simp

@[simp] theorem i2cWords_mode (a : Nat) (l : List Byte) (s : State) :
    (i2cWords a l s).pwr.mode = s.pwr.mode := by
  fun_induction i2cWords a l s with
  | case1 a b0 b1 b2 b3 l s ih => exact ih.trans (i2cWord_mode ..)
  | case2 => simp

@[simp] theorem i2cReadWords_pwr (n a : Nat) (s : State) : (i2cReadWords n a s).2.pwr = s.pwr := by
  induction n generalizing a s with
  | zero => rfl
  | succ n ih => simp [i2cReadWords, ih]

@[simp] theorem cryWords_pwr (m n a : Nat) (s : State) : (cryWords m n a s).2.pwr = s.pwr := by
  induction n generalizing a s with
  | zero => rfl
  | succ n ih => simp [cryWords, ih]

@[simp] theorem cryReadBody_pwr (j : Job) (s : State) :
    ((cryReadBody j s).state s).pwr = s.pwr := by
  unfold cryReadBody
  dsimp only
  split <;> simp

/-! ### The operations of Machine/Line.lean -/

@[simp] theorem sealOne_pwr (f : OpenFrame) (k : Container) (s : State) :
    (sealOne f k s).2.pwr = s.pwr := by
  unfold sealOne
  dsimp only
  repeat' split
  all_goals simp [sealAbsent]

@[simp] theorem sealAll_pwr (f : OpenFrame) (s : State) : (sealAll f s).2.pwr = s.pwr :=
  foldl_keeps (fun acc : List Sealed × State => acc.2.pwr) (fun _ _ => sealOne_pwr ..) _ _

@[simp] theorem frameBits_pwr (r : LineFrame) (s : State) : (frameBits r s).2.pwr = s.pwr := by
  unfold frameBits
  dsimp only
  split <;> simp

@[simp] theorem sampleFrame_pwr (next : List (SymbolLevel × SymbolLevel)) (s : State) :
    (sampleFrame next s).pwr = s.pwr := (countClips_pwr ..).trans (State.onTx_pwr ..)

@[simp] theorem noteSent_pwr (r : LineFrame) (whey : Bool) (s : State) :
    (noteSent r whey s).pwr = s.pwr :=
  (note_pwr ..).trans (when_pwr _ (fun _ => carry_pwr ..) _)

theorem execTxFrameStart_keepsMode (filterReady : Bool) (s : State) :
    KeepsMode s (execTxFrameStart filterReady s) := by
  unfold execTxFrameStart
  dsimp only
  repeat' split
  all_goals simp [sendFrame, superframeStarts]

end Sys2Proof.Machine
end

section
/-!
PROOF. The case table over the commands: which of them keep the mode.
-/

namespace Sys2Proof.Machine

/-- The commands that name a mode of their own: the causes of RESET, its end, the entries into
STANDBY, OP_MODE_SET, the end of a zeroisation and the officer's key load (R502). -/
def setsMode : Instr → Bool
  | .opModeSet _ | .opKeyLoad _ | .zeroiseComplete _ | .standbyEntry | .resetEnd _ _ _ |
    .bootComplete | .powerOn | .resetNLow | .supplyFault _ | .thermalTrip |
    .resetCommandEntry => true
  | _ => false

/-- Every other command keeps the mode, or moves between ACQUIRE and TRAFFIC. -/
theorem exec_keepsMode {c : Instr} (h : setsMode c = false) (s : State) :
    KeepsMode s (exec c s) := by
  cases c with
  | opModeSet | opKeyLoad | zeroiseComplete | standbyEntry | resetEnd | bootComplete | powerOn
  | resetNLow | supplyFault | thermalTrip | resetCommandEntry => cases h
  | opNop j => simp [exec, execOpNop]
  | opDeviceInfo j => simp [exec, execOpDeviceInfo]
  | opAbort j => simp [exec, execOpAbort]
  | opReset j => simp [exec, execOpReset]
  | opFabricCredits j => simp [exec, execOpFabricCredits, fabricCreditsBody]
  | fabricCreditWindow requests => exact execFabricCreditWindow_keepsMode s requests
  | opLineProfile j => simp [exec, execOpLineProfile]
  | opTxShape j => simp [exec, execOpTxShape, txShapeBody]
  | opTxMask j => simp [exec, execOpTxMask]
  | opTxPrecomp j => simp [exec, execOpTxPrecomp]
  | opTxRamp j => simp [exec, execOpTxRamp]
  | opTxOutput j => simp [exec, execOpTxOutput, txOutputBody]
  | opTxHooks j => simp [exec, execOpTxHooks]
  | opOptWrite j => simp [exec, execOpOptWrite]
  | opOptRead j => simp [exec, execOpOptRead]
  | opOptReset j => simp [exec, execOpOptReset, optResetBody]
  | optResetEnd => exact execOptResetEnd_keepsMode s
  | optTransactionEnd status data crc => exact execOptTransactionEnd_keepsMode status data crc s
  | optRetry => exact execOptRetry_keepsMode s
  | optAlertFall => simp [exec, execOptAlertFall]
  | optAlertRise => simp [exec, execOptAlertRise]
  | txdspOutputWrite w => simp [exec, execTxdspOutputWrite]
  | txFrameStart filterReady => exact execTxFrameStart_keepsMode filterReady s
  | rampUpDone => simp [exec, execRampUpDone]
  | rampDownDone => simp [exec, execRampDownDone]
  | dacClipWindow sample => simp [exec, execDacClipWindow]
  | dacSynthUnlock => simp [exec, execDacSynthUnlock]
  | dacSynthLock => simp [exec, execDacSynthLock]
  | opRxFrontend j => simp [exec, execOpRxFrontend]
  | opRxCd j => simp [exec, execOpRxCd]
  | opRxSeparator j => simp [exec, execOpRxSeparator]
  | opRxTiming j => simp [exec, execOpRxTiming]
  | opRxCarrier j => simp [exec, execOpRxCarrier, rxCarrierBody]
  | opRxThresh j => simp [exec, execOpRxThresh]
  | rxFrameStart m => simp [exec, execRxFrameStart]
  | wheyDetectorDecision codes => simp [exec, execWheyDetectorDecision]
  | opDecConfig j => simp [exec, execOpDecConfig]
  | opDecChurn j => simp [exec, execOpDecChurn, decChurnBody]
  | churnDrained c => simp [exec, execChurnDrained]
  | opCircuitCreate j => simp [exec, execOpCircuitCreate]
  | opCircuitDelete j => simp [exec, execOpCircuitDelete]
  | opMapLoad j => simp [exec, execOpMapLoad]
  | opMapSwitch j => simp [exec, execOpMapSwitch]
  | opHlaneConfig j => simp [exec, execOpHlaneConfig]
  | opHlaneRestart j => simp [exec, execOpHlaneRestart]
  | opHlaneTest j => simp [exec, execOpHlaneTest]
  | opOfficerChallenge j => simp [exec, execOpOfficerChallenge, officerChallengeBody]
  | opOfficerEnrol j => simp [exec, execOpOfficerEnrol]
  | challengeExpiry => exact execChallengeExpiry_keepsMode s
  | opOfficerUpdate j => simp [exec, execOpOfficerUpdate]
  | opCryConfig j => simp [exec, execOpCryConfig]
  | opCryRead j => simp [exec, execOpCryRead]
  | opKeyErase j => simp [exec, execOpKeyErase, keyEraseBody]
  | opEpochSwitch j => simp [exec, execOpEpochSwitch]
  | epochSwitchInstant => simp [exec, execEpochSwitchInstant]
  | oldKeyErase c => exact execOldKeyErase_keepsMode c s
  | epochLag c => simp [exec, execEpochLag]
  | opZeroise j => simp [exec, execOpZeroise, zeroiseBody]
  | zeroisePin => simp [exec, execZeroisePin]
  | tamperPin => simp [exec, execTamperPin]
  | officerStoreFault => simp [exec, execOfficerStoreFault]
  | opTimeConfig j => simp [exec, execOpTimeConfig]
  | opTimeSet j => simp [exec, execOpTimeSet]
  | opTimeStep j => simp [exec, execOpTimeStep]
  | timeSetPulseTimeout => exact execTimeSetPulseTimeout_keepsMode s
  | opTimePulse j => simp [exec, execOpTimePulse]
  | timeTick => simp [exec, execTimeTick, commitTickSets]
  | timeBaseHiWrite w => simp [exec, execTimeBaseHiWrite]
  | pulseInstant k => simp [exec, execPulseInstant]
  | pulseWidthEnd k => simp [exec, execPulseWidthEnd]
  | servoIntervalEnd n =>
    simp [exec, execServoIntervalEnd, reportInterval, servoStep, preAcquire, emptyInterval,
      refuseOffset, advise, acceptOffset, piUpdate]
  | opDpllRefConfig j => simp [exec, execOpDpllRefConfig]
  | opDpllSelect j => simp [exec, execOpDpllSelect]
  | opDpllLoop j => simp [exec, execOpDpllLoop]
  | opDpllOutput j => simp [exec, execOpDpllOutput]
  | alignFail o => exact execAlignFail_keepsMode o s
  | dpllNcoHiWrite w => simp [exec, execDpllNcoHiWrite]
  | dpllEvaluation phase fresh => simp [exec, execDpllEvaluation]
  | switchCommitted => exact execSwitchCommitted_keepsMode s
  | refFreqUpdate k reading => simp [exec, execRefFreqUpdate, takeRate]
  | refActivityFault k => simp [exec, execRefActivityFault]
  | refQualified k => simp [exec, execRefQualified]
  | refinPulse k sub => simp [exec, execRefinPulse, commitPulseSets]
  | dpllLocked => simp [exec, execDpllLocked]
  | lockLost => simp [exec, execLockLost]
  | holdoverSample guard => exact execHoldoverSample_keepsMode guard s
  | opMonSequence j => simp [exec, execOpMonSequence]
  | opMonTestdac j => simp [exec, execOpMonTestdac, monTestdacBody]
  | monadcStartWrite => simp [exec, execMonadcStartWrite]
  | conversionEnd k input v => exact execConversionEnd_keepsMode k input v s
  | opSkimConfig j => simp [exec, execOpSkimConfig]
  | opSkimArm j => simp [exec, execOpSkimArm, skimArmBody]
  | opSkimTrigger j => simp [exec, execOpSkimTrigger, skimTriggerBody]
  | opSkimSync j => simp [exec, execOpSkimSync, skimSyncBody]
  | skimFrozen => simp [exec, execSkimFrozen]
  | syncNFall => simp [exec, execSyncNFall]
  | decimatorReset sample age => simp [exec, execDecimatorReset]
  | skimSatEvent xi xq yi yq => simp [exec, execSkimSatEvent, skimLane, writeSample]
  | opMemRecover j => simp [exec, execOpMemRecover]
  | recoveryPassEnd g => exact execRecoveryPassEnd_keepsMode g s
  | opMemInject j => simp [exec, execOpMemInject]
  | opBist j => simp [exec, execOpBist]
  | bistDone failed firstFail => exact execBistDone_keepsMode failed firstFail s
  | opFwStage j => simp [exec, execOpFwStage, fwStageBody, eraseFlash]
  | fwStaged e => exact execFwStaged_keepsMode e s
  | opFwActivate j r => simp [exec, execOpFwActivate, fwActivateBody]
  | opCoreReturn j => simp [exec, execOpCoreReturn, coreReturnBody]
  | opCtrConfig c => exact execOpCtrConfig_keepsMode c s
  | opCtrSnapshot j => simp [exec, execOpCtrSnapshot, ctrSnapshotBody]
  | opBwConfig j => simp [exec, execOpBwConfig]
  | pmcTick events => simp [exec, execPmcTick, countPmc, overflow, takeSample]
  | snapshotInstant wrapped => simp [exec, execSnapshotInstant]
  | bwWindow bytes => simp [exec, execBwWindow, latchPort]
  | pmuSnapWrite w => simp [exec, execPmuSnapWrite]
  | pmuViewWrite w => simp [exec, execPmuViewWrite]
  | pmuSampleReadWrite w => simp [exec, execPmuSampleReadWrite]
  | lowWordRead master span => simp [exec, execLowWordRead]
  | sqDoorbell r w => simp [exec, execSqDoorbell]
  | cqHeadWrite r w => simp [exec, execCqHeadWrite]
  | sqEnableWrite r w => simp [exec, execSqEnableWrite]
  | sqFetchErrorClear r => simp [exec, execSqFetchErrorClear]
  | cqEnableWrite r w => simp [exec, execCqEnableWrite]
  | packetFetch r read => exact execPacketFetch_keepsMode r read s
  | paramPointerReadDone j read => exact execParamPointerReadDone_keepsMode j read s
  | completionWrite j => simp [exec, execCompletionWrite]
  | mbxWrite addr bytes => simp [exec, execMbxWrite, storeRequest]
  | mbxRead addr n => simp [exec, execMbxRead]
  | mbxStatus => simp [exec, execMbxStatus]
  | mbxBadInstruction b => simp [exec, execMbxBadInstruction]
  | mbxPost => simp [exec, execMbxPost]
  | mboxResponseWrite => exact execMboxResponseWrite_keepsMode s
  | coreTrap c => simp [exec, execCoreTrap]
  | coreWatchdog c => simp [exec, execCoreWatchdog]
  | coreRestarted c => exact execCoreRestarted_keepsMode c s
  | holdoffExpiry n => simp [exec, execHoldoffExpiry]
  | icuClaimRead n => simp [exec, execIcuClaimRead]
  | icuCompleteWrite n w => simp [exec, execIcuCompleteWrite]
  | icuSpuriousRead n => simp [exec, execIcuSpuriousRead, spuriousRead]
  | icuEnableWrite n w => simp [exec, execIcuEnableWrite]
  | icuEnableSet n w => simp [exec, execIcuEnableSet]
  | icuEnableClr n w => simp [exec, execIcuEnableClr]
  | icuPendingWrite n w => simp [exec, execIcuPendingWrite]
  | icuPendingSet n w => simp [exec, execIcuPendingSet]
  | icuPendingClr n w => simp [exec, execIcuPendingClr]
  | icuCfgWrite n w => simp [exec, execIcuCfgWrite]
  | icuGpioModeWrite w => simp [exec, execIcuGpioModeWrite]
  | gpioEdge k high => exact execGpioEdge_keepsMode k high s
  | evlogMergeWrite => exact execEvlogMergeWrite_keepsMode s
  | evlogReadWrite w => simp [exec, execEvlogReadWrite]
  | evlogCtrlWrite w => simp [exec, execEvlogCtrlWrite]
  | d3hotEntry pmeEnable => simp [exec, execD3hotEntry]
  | d0Return clearPme => simp [exec, execD0Return]
  | busMasterEnableSet => simp [exec, execBusMasterEnableSet]
  | busMasterEnableClear => simp [exec, execBusMasterEnableClear]
  | msixEnableSet => simp [exec, execMsixEnableSet]
  | msixMaskClear vector => exact execMsixMaskClear_keepsMode vector s
  | pcieLinkUp => simp [exec, execPcieLinkUp]
  | pcieLinkDown => simp [exec, execPcieLinkDown]
  | pcieError uncorrectable => simp [exec, execPcieError]
  | perstAssert => simp [exec, execPerstAssert]
  | ringCompletionDiscard j => exact execRingCompletionDiscard_keepsMode j s
  | i2cWrite addr bytes => simp [exec, execI2cWrite]
  | i2cSetAddress addr => simp [exec, execI2cSetAddress]
  | i2cRead span => simp [exec, execI2cRead]
  | i2cError => simp [exec, execI2cError]
  | qspiError => simp [exec, execQspiError]
  | diagWindowRead addr => simp [exec, execDiagWindowRead]
  | memgLapLimitWrite g w => simp [exec, execMemgLapLimitWrite]
  | memgLogClear g => simp [exec, execMemgLogClear]
  | memgLogOverflowClear g => simp [exec, execMemgLogOverflowClear]
  | memgClearLaps g => simp [exec, execMemgClearLaps]
  | scrubRead g => simp [exec, execScrubRead, endLap]
  | scrubLapLong g => simp [exec, execScrubLapLong]
  | mergeDrain g addr writes reads => exact execMergeDrain_keepsMode g addr writes reads s
  | churnOnline c => exact execChurnOnline_keepsMode c s
  | coeffSetRebuilt => exact execCoeffSetRebuilt_keepsMode s
  | blockArrival now codes => simp [exec, execBlockArrival, arrive, takeLlrs]
  | iterationEnd now b c => exact execIterationEnd_keepsMode now b c s
  | blockDeadline now b => exact execBlockDeadline_keepsMode now b s
  | stealTransferEnd now b parityError => exact execStealTransferEnd_keepsMode now b parityError s
  | vatWriteEnd now b => exact execVatWriteEnd_keepsMode now b s
  | blockRelease now => exact execBlockRelease_keepsMode now s
  | frameOpen residues => simp [exec, execFrameOpen, superframeOpens, readTxMap]
  | frameHandoff => exact execFrameHandoff_keepsMode s
  | frameDeframed age drains => simp [exec, execFrameDeframed]
  | clientBlockIngress c coded => exact execClientBlockIngress_keepsMode c coded s
  | ingressFailStart c => simp [exec, execIngressFailStart]
  | ingressFailEnd c => simp [exec, execIngressFailEnd]
  | egressUnderrun c periods => simp [exec, execEgressUnderrun]
  | recoveryLock c => simp [exec, execRecoveryLock]
  | recoveryUnlock c => simp [exec, execRecoveryUnlock]
  | ptpIngress c frame => exact execPtpIngress_keepsMode c frame s
  | ptpEgress c frame => exact execPtpEgress_keepsMode c frame s
  | acqSignalDetected codes => simp [exec, execAcqSignalDetected]
  | cdFound scan => exact execCdFound_keepsMode scan s
  | frameSyncFound f => simp [exec, execFrameSyncFound, startLoops]
  | converged => simp [exec, execConverged]
  | acqTimeout => exact execAcqTimeout_keepsMode s
  | acqDecodeFail => simp [exec, execAcqDecodeFail]
  | powerStep codes => simp [exec, execPowerStep]
  | los codes => simp [exec, execLos]
  | timingUnlock => simp [exec, execTimingUnlock]
  | carrierUnlock => simp [exec, execCarrierUnlock]
  | adcSynthUnlock => simp [exec, execAdcSynthUnlock]
  | adcSynthLock => simp [exec, execAdcSynthLock]
  | adcClipWindow sample => simp [exec, execAdcClipWindow]
  | cdTrackUpdate estimate => exact execCdTrackUpdate_keepsMode estimate s
  | loSteerInterval n => exact execLoSteerInterval_keepsMode n s
  | loKeepalive => simp [exec, execLoKeepalive]
  | loAck => simp [exec, execLoAck]
  | loRetry => exact execLoRetry_keepsMode s
  | laneStart slot first => exact execLaneStart_keepsMode slot first s
  | laneTxSynthLock l => simp [exec, execLaneTxSynthLock]
  | laneSignalDetect l => simp [exec, execLaneSignalDetect]
  | laneCdrLock l => simp [exec, execLaneCdrLock]
  | laneUp l snr peak => simp [exec, execLaneUp]
  | laneBringupTimeout l => simp [exec, execLaneBringupTimeout]
  | laneDown l cause => simp [exec, execLaneDown]
  | laneFreezeWindow l w => simp [exec, execLaneFreezeWindow, receiveWindow, checkWindow]
  | freezeLong l => simp [exec, execFreezeLong]
  | groupAligned c lanes => exact execGroupAligned_keepsMode c lanes s
  | deskewFail c mixed => simp [exec, execDeskewFail]
  | checkerLock l => simp [exec, execCheckerLock]
  | checkerLost l => simp [exec, execCheckerLost]
  | thermalWarn hottest => simp [exec, execThermalWarn]
  | supplyLow rails => simp [exec, execSupplyLow]
  | bootSourceAttemptEnd r => exact execBootSourceAttemptEnd_keepsMode r s
  | mbxLoadTimeout => simp [exec, execMbxLoadTimeout]
  | avsUpdate hottest => simp [exec, execAvsUpdate]
  | avsLow core => simp [exec, execAvsLow]
  | readyEntry katPassed => exact execReadyEntry_keepsMode katPassed s
  | readyUnitStart u => exact execReadyUnitStart_keepsMode u s
  | readyDone => simp [exec, execReadyDone]
  | windDownUnitStop => exact execWindDownUnitStop_keepsMode s
  | registerWrite addr ws enables => simp [exec, execRegisterWrite]
  | timingRecoveryLock => simp [exec, execTimingRecoveryLock]
  | converterCalibrationEnd k => simp [exec, execConverterCalibrationEnd]
  | zeroiseTriggerRelease pin => simp [exec, execZeroiseTriggerRelease]
  | datapathUeRead g addr => simp [exec, execDatapathUeRead, upsetWord]
  | recoveryPassRead g => exact execRecoveryPassRead_keepsMode g s

end Sys2Proof.Machine
end

section
/-!
PROOF. The commands that name a mode, and what every step does to the mode (O60).
-/

namespace Sys2Proof.Machine

/-! ### The commands that name a mode (R10, R405, R490 to R493, R500, R502, R505) -/

@[simp] theorem enterReset_mode (f : Pwr → Pwr) (s : State) :
    (enterReset f s).pwr.mode = .reset := rfl

theorem execResetEnd_mode {sel pins : BitVec 2} {flash : Option Flash} {s t : State}
    (h : execResetEnd sel pins flash s = .next t) :
    t.pwr.mode = s.pwr.mode ∨ s.pwr.mode = .reset ∧ t.pwr.mode = .boot := by
  cases h
  dsimp only
  split
  case isTrue hc =>
    simp only [Bool.and_eq_true, decide_eq_true_eq] at hc
    exact .inr ⟨hc.1, by simp⟩
  case isFalse => exact .inl rfl

theorem execBootComplete_mode {s t : State} (h : execBootComplete s = .next t) :
    t.pwr.mode = s.pwr.mode ∨ s.pwr.mode = .boot ∧ t.pwr.mode = .standby := by
  cases h
  split
  · exact .inl rfl
  · split
    case isTrue => exact .inl rfl
    case isFalse hb => exact .inr ⟨Decidable.not_not.1 hb, by simp⟩

theorem execStandbyEntry_mode {s t : State} (h : execStandbyEntry s = .next t) :
    t.pwr.mode = s.pwr.mode ∨ s.pwr.mode = .ready ∧ t.pwr.mode = .standby := by
  cases h
  by_cases hr : s.pwr.mode = .ready
  · dsimp only
    split
    · split
      · exact .inl (by simp)
      · exact .inr ⟨hr, by simp [hr]⟩
    · exact .inl rfl
  · exact .inl (by simp [hr])

theorem execZeroiseComplete_mode {nonzero : Bool} {s t : State}
    (h : execZeroiseComplete nonzero s = .next t) :
    t.pwr.mode = s.pwr.mode ∨ s.codeS = true ∧ t.pwr.mode = .zeroised := by
  cases h
  dsimp only
  split
  case isTrue hc =>
    simp only [Bool.and_eq_true] at hc
    exact .inr ⟨hc.2, by by_cases hz : s.pwr.mode = .zeroised <;> simp [hz]⟩
  case isFalse => exact .inl rfl

theorem transition_mode (j : Job) (old new : Mode) (s : State) :
    ((transition j old new s).state s).pwr.mode = s.pwr.mode ∨
      ((transition j old new s).state s).pwr.mode = new := by
  unfold transition
  split
  · exact .inl (by simp)
  · exact .inr (by simp)
  · exact .inr (by simp)

/-- OP_MODE_SET keeps the mode or makes a transition of R502. -/
theorem modeSetBody_mode (j : Job) (s : State) :
    ((modeSetBody j s).state s).pwr.mode = s.pwr.mode ∨
      listed s.pwr.mode ((modeSetBody j s).state s).pwr.mode = true := by
  unfold modeSetBody
  split
  · exact .inl rfl
  next m _ =>
    split
    · exact .inl rfl
    · split
      · exact .inl rfl
      next hl =>
        split
        · exact .inl rfl
        · refine (transition_mode j s.pwr.mode m s).imp_right fun h => ?_
          rw [h]
          simpa using hl

theorem execOpModeSet_mode {j : Nat} {s t : State} (h : execOpModeSet j s = .next t) :
    t.pwr.mode = s.pwr.mode ∨ listed s.pwr.mode t.pwr.mode = true := by
  cases h
  obtain h | ⟨job, s1, -, -, hc, ⟨r, -, h⟩ | h⟩ := runOp_cases 0x0103 1 modeSetBody j s
  · exact .inl (by rw [h])
  · exact .inl (by rw [h, refuse_pwr, hc.pwr_eq])
  · rw [h, conclude_pwr, ← hc.pwr_eq]
    exact modeSetBody_mode job s1

/-! ### The officer's key load (R125, R126, R506) -/

@[simp] theorem onCand_cmd (i : Nat) (f : Cand → Cand) (s : State) :
    (onCand i f s).cmd = s.cmd := by
  simp [onCand]
@[simp] theorem failCand_cmd (i : Nat) (s : State) : (failCand i s).cmd = s.cmd := by
  simp [failCand, toRefState, raise]
@[simp] theorem activityFault_cmd (i : Nat) (s : State) : (activityFault i s).cmd = s.cmd := by
  simp [activityFault]
@[simp] theorem setCandValid_cmd (i : Nat) (b : Bool) (s : State) :
    (setCandValid i b s).cmd = s.cmd := by
  simp [setCandValid]
@[simp] theorem toAcq_cmd (n : Nat) (restarted : Bool) (s : State) :
    (toAcq n restarted s).cmd = s.cmd := by
  simp [toAcq, settleLineclk, statAdd]
@[simp] theorem writeWords_cmd (g a : Nat) (l : List (BitVec 128)) (s : State) :
    (writeWords g a l s).cmd = s.cmd := by
  induction l generalizing a s with
  | nil => rfl
  | cons d l ih => simp [writeWords, writeWord, setCell, touched, ih]

@[simp] theorem loadKey_cmd (c : Nat) (b : Bool) (key : List Byte) (s : State) :
    (loadKey c b key s).cmd = s.cmd := by
  simp [loadKey, onCtx, narrowCtx, narrowWrite, onMerge, raiseBy]

theorem leaveZeroised_of_zeroised {s : State} (h : s.pwr.mode = .zeroised) :
    (leaveZeroised s).pwr.mode = .ready := by
  simp [leaveZeroised, h]

theorem leaveZeroised_of_not {s : State} (h : s.pwr.mode ≠ .zeroised) :
    leaveZeroised s = s := if_neg h

@[simp] theorem leaveZeroised_cmd (s : State) : (leaveZeroised s).cmd = s.cmd := by
  by_cases h : s.pwr.mode = .zeroised
  · simp [leaveZeroised, h, enterReady, enterMode, setModeBy, acqOnMode, holdAcq, raiseBy, statAdd]
  · rw [leaveZeroised_of_not h]

/-- OP_KEY_LOAD refuses, or loads the key and leaves ZEROISED; the list of commands stands. -/
theorem keyLoadBody_cases (job : Job) (s : State) :
    (∃ r : Refused, r.1 ≠ stOk ∧ keyLoadBody job s = .refuse r) ∨
      ∃ u res, u.pwr = s.pwr ∧ u.cmd = s.cmd ∧
        keyLoadBody job s = .complete (leaveZeroised u) res := by
  dsimp only [keyLoadBody]
  split
  · exact .inl ⟨refDenied, by decide, rfl⟩
  · split
    · exact .inl ⟨refAuth8, by decide, rfl⟩
    · split
      · exact .inl ⟨refAuth8, by decide, rfl⟩
      · split
        · exact .inl ⟨refBusy, by decide, rfl⟩
        · exact .inr ⟨_, _, by simp, by simp [noteKeys], rfl⟩

/-- What an OP_KEY_LOAD can do: nothing, refuse a fetched command with a status other than ST_OK, or
complete it ST_OK and leave ZEROISED. -/
theorem execOpKeyLoad_cases {j : Nat} {s t : State} (h : execOpKeyLoad j s = .next t) :
    t = s ∨ AtStage j .fetched s ∧
      (t.pwr = s.pwr ∧ (∀ r, ¬ Ended j stOk true r t) ∨
       ∃ u r, u.pwr = s.pwr ∧ t.pwr = (leaveZeroised u).pwr ∧ Ended j stOk true r t) := by
  cases h
  obtain h | ⟨job, s1, hj, hr, hc, h⟩ := runOp_cases 0x0410 13 keyLoadBody j s
  · exact .inl h
  have hst : job.stage = .fetched := ready_stage hr
  have hid : job.id = j := findJob_id hj
  have hj1 : findJob j s1 = some job := (hc.findJob_eq j).trans hj
  have refused (r : Refused) (hne : r.1 ≠ stOk) :
      (refuse job r s1).pwr = s.pwr ∧ ∀ l, ¬ Ended j stOk true l (refuse job r s1) := by
    refine ⟨(refuse_pwr ..).trans hc.pwr_eq, fun l ⟨x, hx, _, hok, _⟩ => hne ?_⟩
    rw [findJob_refuse, hid, finish_self hj1 (by simp [hst])] at hx
    cases hx
    exact hok
  refine .inr ⟨⟨job, hj, hst⟩, ?_⟩
  obtain ⟨r, hne, h⟩ | h := h
  · rw [h]
    exact .inl (refused r hne)
  · rw [h]
    obtain ⟨r, hne, hb⟩ | ⟨u, res, hp, hcmd, hb⟩ := keyLoadBody_cases job s1
    · rw [hb]
      exact .inl (refused r hne)
    · rw [hb]
      have hu : findJob j (leaveZeroised u) = some job := by
        rw [← hj1]
        simp [findJob, hcmd]
      refine .inr ⟨u, res, hp.trans hc.pwr_eq, conclude_pwr .., ?_⟩
      rw [← hid] at hu ⊢
      exact commitDone_ended hu

/-! ### Mode changes (R10, R502) -/

theorem modeStep_of_upToLock {m n : Mode} : n.upToLock = m.upToLock → modeStep m n = true := by
  cases m <;> cases n <;> decide

theorem upToLock_eq_zeroised {m : Mode} : m.upToLock = Mode.zeroised.upToLock → m = .zeroised := by
  cases m <;> decide

theorem modeStep_reset (m : Mode) : modeStep m .reset = true := by cases m <;> rfl

theorem modeStep_zeroised {m : Mode} (h : m.codeS = true) : modeStep m .zeroised = true := by
  revert h
  cases m <;> decide

theorem listed_modeStep {m n : Mode} : listed m n = true → modeStep m n = true ∧ m ≠ .zeroised := by
  cases m <;> cases n <;> decide

/-- What R10 and R502 say of the modes before and after command `c`. -/
def ModeRule (c : Instr) (s t : State) : Prop :=
  modeStep s.pwr.mode t.pwr.mode = true ∧
    (s.pwr.mode = .zeroised → t.pwr.mode ≠ .zeroised →
      t.pwr.mode = .reset ∧ ((∃ rail, c = .supplyFault rail) ∨
        c ∈ [Instr.powerOn, .resetNLow, .thermalTrip, .resetCommandEntry]) ∨
      t.pwr.mode = .ready ∧ ∃ j r, c = .opKeyLoad j ∧ AtStage j .fetched s ∧ Ended j stOk true r t)

theorem ModeRule.of_upToLock {c : Instr} {s t : State}
    (h : t.pwr.mode.upToLock = s.pwr.mode.upToLock) : ModeRule c s t :=
  ⟨modeStep_of_upToLock h, fun hz hn => absurd (upToLock_eq_zeroised (hz ▸ h)) hn⟩

theorem ModeRule.of_eq {c : Instr} {s t : State} (h : t.pwr.mode = s.pwr.mode) : ModeRule c s t :=
  .of_upToLock (congrArg _ h)

/-- A change of mode that neither leaves ZEROISED nor is missing from R502. -/
theorem ModeRule.of_modeStep {c : Instr} {s t : State} (h : modeStep s.pwr.mode t.pwr.mode = true)
    (hz : s.pwr.mode ≠ .zeroised ∨ t.pwr.mode = .zeroised) : ModeRule c s t :=
  ⟨h, fun hs ht => hz.elim (fun hn => absurd hs hn) fun he => absurd he ht⟩

/-- The same for a command that keeps the mode or makes one move that R502 lists. -/
theorem ModeRule.of_move {c : Instr} {s t : State} {m n : Mode}
    (h : t.pwr.mode = s.pwr.mode ∨ s.pwr.mode = m ∧ t.pwr.mode = n)
    (hmn : modeStep m n = true) (hm : m ≠ .zeroised) : ModeRule c s t := by
  obtain h | ⟨rfl, rfl⟩ := h
  · exact .of_eq h
  · exact .of_modeStep hmn (.inl hm)

theorem ModeRule.of_reset {c : Instr} {s t : State} (h : t.pwr.mode = .reset)
    (hc : (∃ rail, c = .supplyFault rail) ∨
      c ∈ [Instr.powerOn, .resetNLow, .thermalTrip, .resetCommandEntry]) : ModeRule c s t :=
  ⟨h ▸ modeStep_reset _, fun _ _ => .inl ⟨h, hc⟩⟩

/-- OP_KEY_LOAD leaves ZEROISED where it completes ST_OK, and changes no other mode. -/
theorem modeRule_opKeyLoad {j : Nat} {s t : State} (h : execOpKeyLoad j s = .next t) :
    ModeRule (.opKeyLoad j) s t := by
  obtain rfl | ⟨hf, ⟨hp, -⟩ | ⟨u, r, hp, ht, he⟩⟩ := execOpKeyLoad_cases h
  · exact .of_eq rfl
  · exact .of_eq (by rw [hp])
  · by_cases hz : s.pwr.mode = .zeroised
    · have hr : t.pwr.mode = .ready := by rw [ht, leaveZeroised_of_zeroised (hp ▸ hz)]
      exact ⟨by rw [hz, hr]; rfl, fun _ _ => .inr ⟨hr, j, r, rfl, hf, he⟩⟩
    · exact .of_eq (by rw [ht, leaveZeroised_of_not (hp ▸ hz), hp])

/-- Every command keeps to R10 and to the transitions of R502. -/
theorem exec_modeRule {c : Instr} {s t : State} (h : exec c s = .next t) : ModeRule c s t := by
  by_cases hq : setsMode c = false
  · exact .of_upToLock (exec_keepsMode hq s t h)
  cases c with
  | opModeSet j =>
    obtain h | h := execOpModeSet_mode h
    · exact .of_eq h
    · exact .of_modeStep (listed_modeStep h).1 (.inl (listed_modeStep h).2)
  | opKeyLoad j => exact modeRule_opKeyLoad h
  | zeroiseComplete nonzero =>
    obtain h | ⟨hs, ht⟩ := execZeroiseComplete_mode h
    · exact .of_eq h
    · exact .of_modeStep (ht ▸ modeStep_zeroised hs) (.inr ht)
  | standbyEntry => exact .of_move (execStandbyEntry_mode h) rfl (by decide)
  | resetEnd sel pins flash => exact .of_move (execResetEnd_mode h) rfl (by decide)
  | bootComplete => exact .of_move (execBootComplete_mode h) rfl (by decide)
  | powerOn => cases h; exact .of_reset (enterReset_mode ..) (.inr (by simp))
  | resetNLow => cases h; exact .of_reset (enterReset_mode ..) (.inr (by simp))
  | supplyFault rail => cases h; exact .of_reset (enterReset_mode ..) (.inl ⟨rail, rfl⟩)
  | thermalTrip => cases h; exact .of_reset (enterReset_mode ..) (.inr (by simp))
  | resetCommandEntry =>
    cases h
    split
    · exact .of_reset (enterReset_mode ..) (.inr (by simp))
    · exact .of_eq rfl
  | _ => exact absurd rfl hq

/-- A step keeps the rule of the command at the front of the queue; an idle step changes nothing. -/
theorem step_modeRule {s t : State} (h : step s = .next t) :
    t = s ∨ ∃ c rest, s.pending = c :: rest ∧ ModeRule c s t := by
  unfold step at h
  split at h
  case h_1 => cases h; exact .inl rfl
  case h_2 c rest hp =>
    have hm : ModeRule c { s with pending := rest } t := exec_modeRule h
    exact .inr ⟨c, rest, hp, hm⟩

/-- A key load that completes ST_OK in ZEROISED ends in READY. -/
theorem ready_of_keyLoad {j : Nat} {r : List Word} {s t : State} (hz : s.pwr.mode = .zeroised)
    (hf : AtStage j .fetched s) (h : execOpKeyLoad j s = .next t) (he : Ended j stOk true r t) :
    t.pwr.mode = .ready := by
  obtain rfl | ⟨-, ⟨-, hno⟩ | ⟨u, -, hp, ht, -⟩⟩ := execOpKeyLoad_cases h
  · obtain ⟨x, hx, hst⟩ := hf
    obtain ⟨y, hy, hd, -⟩ := he
    rw [hx] at hy
    cases hy
    rw [hst] at hd
    cases hd
  · exact absurd he (hno r)
  · rw [ht, leaveZeroised_of_zeroised (hp ▸ hz)]

/-- Every cause of RESET enters it, OP_RESET's once its completion has been out for 10 us. -/
theorem resets_give_reset {c : Instr} {rail : BitVec 4} {s : State}
    (h : c ∈ [Instr.powerOn, .resetNLow, .thermalTrip, .supplyFault rail] ∨
      c = .resetCommandEntry ∧ s.cmd.resetWritten = true ∧
        2500 ≤ (s.evt.period - s.cmd.resetAt).toNat) :
    Gives c s fun t => t.pwr.mode = .reset := by
  obtain h | ⟨rfl, hw, hd⟩ := h
  · simp only [List.mem_cons, List.not_mem_nil, or_false] at h
    obtain rfl | rfl | rfl | rfl := h <;> exact ⟨_, rfl, rfl⟩
  · have hdue : usSince 10 s.cmd.resetAt s = true := decide_eq_true hd
    exact ⟨_, rfl, by simp [hw, hdue]⟩

/-- Settles O60: a step keeps its command's rule of modes, a key load that completes ends in READY,
and every cause of RESET enters it. -/
theorem modeChanges : Obligations.ModeChanges := by
  unfold Obligations.ModeChanges
  refine ⟨fun s t h => ?_, fun j r s t hz hf h he => ready_of_keyLoad hz hf h he,
    fun c rail s h => resets_give_reset h⟩
  obtain rfl | ⟨c, rest, hp, hm, hl⟩ := step_modeRule h
  · exact ⟨modeStep_of_upToLock rfl, fun hz hn => absurd hz hn⟩
  · exact ⟨hm, fun hz hn => ⟨c, rest, hp, hl hz hn⟩⟩

end Sys2Proof.Machine
end

section
/-!
SUPPORT. Interrupt sources and groups under the operations of Machine/Ops.lean: what a write of one
source or group leaves, and how a property of the sources and groups goes through a claim, a
delivery (R415, R416), a change of a group's sources and the log entry of a PME (R419, R431, R432).
-/

namespace Sys2Proof.Machine

/-- An entry that the table's order reaches is read as before after a write of another key, without
the canonical form. -/
theorem tabGet_tabSet_of_found {α : Type} [DecidableEq α] (d : α) (l : Tab α) (k j : Nat) (v : α)
    (hj : j ≠ k) (h : tabGet d l j ≠ d) : tabGet d (tabSet d l k v) j = tabGet d l j := by
  by_cases hv : v = d
  case neg => exact tabGet_tabSet_other_of_ne d l k j v hj hv
  case pos =>
    subst hv
    induction l with
    | nil => simp [tabSet]
    | cons a l ih =>
      obtain ⟨k', v'⟩ := a
      by_cases hk : k' = k
      · have hlt : ¬ j < k' := fun hlt => h (by simp [tabGet, hk ▸ Ne.symm hj, hlt])
        simp [tabSet, tabGet, hk, Ne.symm hj, hk ▸ hlt]
      · by_cases hlt : k < k'
        · simp [tabSet, hk, hlt]
        · simp only [tabSet, if_neg hk, if_neg hlt]
          simp only [tabGet] at h ⊢
          split
          · rfl
          · split
            · rfl
            · exact ih (by simpa [*] using h)

/-! ### One source, one group -/

theorem srcAt_setSrc_same {e : Evt} (h : tabWf {} e.src = true) (i : Nat) (f : Src → Src) :
    srcAt (setSrc i f e) i = f (srcAt e i) :=
  tabGet_tabSet_same _ _ _ _ h

theorem srcAt_setSrc_other {e : Evt} (h : tabWf {} e.src = true) {i k : Nat} (hk : k ≠ i)
    (f : Src → Src) : srcAt (setSrc i f e) k = srcAt e k :=
  tabGet_tabSet_other _ _ _ _ _ hk h

theorem tabWf_setSrc {e : Evt} (h : tabWf {} e.src = true) (i : Nat) (f : Src → Src) :
    tabWf {} (setSrc i f e).src = true :=
  tabWf_tabMod _ _ _ _ h

theorem grpAt_setGrp_other {e : Evt} {m n : Nat} (hn : n ≠ m) (h : grpAt e n ≠ {}) (f : Grp → Grp) :
    grpAt (setGrp m f e) n = grpAt e n :=
  tabGet_tabSet_of_found _ _ _ _ _ hn h

theorem grpAt_setGrp_same {e : Evt} {n : Nat} {f : Grp → Grp} (h : f (grpAt e n) ≠ {}) :
    grpAt (setGrp n f e) n = f (grpAt e n) :=
  tabGet_tabSet_same_of_ne _ _ _ _ h

/-- A group requests when one of its sources does. -/
theorem groupRequests_of_requests {e : Evt} {i : Nat} (h : (srcAt e i).requests = true) :
    groupRequests e (i / 16) = true := by
  have hmem : i ∈ (List.range 16).map fun j => 16 * (i / 16) + j :=
    List.mem_map.2 ⟨i % 16, List.mem_range.2 (Nat.mod_lt _ (by decide)), Nat.div_add_mod i 16⟩
  have hfirst : (firstRequest e (i / 16)).isSome = true := List.find?_isSome.2 ⟨i, hmem, h⟩
  simp [groupRequests, hfirst]

@[simp] theorem loadTimer_src (n : Nat) (e : Evt) : (loadTimer n e).src = e.src := rfl

theorem coreServed_of_route_lt {c : BitVec 4} {n : Nat} {e : Evt}
    (h : (grpAt e n).route.toNat < 2) : coreServed c n e = false := by
  unfold coreServed
  split
  · omega
  · rfl

@[simp] theorem relax_src (n : Nat) (e : Evt) : (relax n e).src = e.src := by
  unfold relax
  split <;> rfl

@[simp] theorem relax_sent (n : Nat) (e : Evt) : (relax n e).sent = e.sent := by
  unfold relax
  split <;> rfl

theorem relax_of_requests {n : Nat} {e : Evt} (h : groupRequests e n = true) : relax n e = e := by
  simp [relax, h]

/-- A group that stops requesting keeps its running timer. -/
theorem relax_timer_isSome {n : Nat} {e : Evt} (h : (grpAt e n).timer.isSome = true) :
    (grpAt (relax n e) n).timer.isSome = true := by
  unfold relax
  split
  · exact h
  · have hne : ({ grpAt e n with asserting := false, waiting := false } : Grp) ≠ {} := fun heq => by
      simp [show (grpAt e n).timer = none from congrArg Grp.timer heq] at h
    have hg : grpAt (setGrp n (fun g => { g with asserting := false, waiting := false }) e) n =
        { grpAt e n with asserting := false, waiting := false } := grpAt_setGrp_same hne
    exact (congrArg (fun g => g.timer.isSome) hg).trans h

/-! ### Properties of the sources and groups -/

/-- A property of the event part that depends on its sources and groups only. -/
def OfSources (P : Evt → Prop) : Prop :=
  ∀ {e e' : Evt}, P e → e'.src = e.src → e'.grp = e.grp → P e'

section
variable {P : Evt → Prop} {n : Nat} {e : Evt}

/-- What every claim of one source of the group keeps, Zilvy's claim of the group keeps. -/
theorem claimAll_keeps (h : ∀ e k g, k / 16 = n → P e →
      P (setSrc k (fun r => { r with p := levelSource g k && r.p, c := 0 }) e)) (he : P e) :
    P (claimAll n e) := by
  refine List.foldlRecOn _ _ he fun e he i hi => ?_
  have hk : (16 * n + i) / 16 = n := by
    have := List.mem_range.1 hi
    omega
  dsimp only
  split
  · exact h _ _ _ hk he
  · exact he

theorem relax_keeps (hP : OfSources P) (hgrp : ∀ f e, P e → P (setGrp n f e)) (he : P e) :
    P (relax n e) := by
  unfold relax
  split
  · exact he
  · exact hP (hgrp (fun g => { g with asserting := false, waiting := false }) _ he) rfl rfl

theorem deliver_keeps (hP : OfSources P) (hgrp : ∀ f e, P e → P (setGrp n f e))
    (hclaim : ∀ e, P e → P (claimAll n e)) (c : BitVec 4) (he : P e) : P (deliver c n e).1 := by
  have hload : P (loadTimer n e) := hgrp _ _ he
  unfold deliver
  split
  · split
    · dsimp only
      split
      · exact hP hload rfl rfl
      · exact hload
    · split
      · exact he
      · split
        · exact hload
        · dsimp only
          split <;> exact hP hload rfl rfl
  · exact hgrp _ _ hload
  · split
    · exact hgrp _ _ (hclaim _ (hP hload rfl rfl))
    · exact hgrp _ _ he

theorem touch_keeps (hP : OfSources P) (hgrp : ∀ f e, P e → P (setGrp n f e))
    (hclaim : ∀ e, P e → P (claimAll n e)) (c : BitVec 4) {f : Evt → Evt} (he : P (f e)) :
    P (touch c n f e).1 := by
  have hrelax : P (relax n (f e)) := relax_keeps hP hgrp he
  unfold touch
  dsimp only
  split
  · exact deliver_keeps hP hgrp hclaim c hrelax
  · exact hrelax

variable {x : EvtCtx}

/-- The event part once a discard is counted, before the raises that follow it (R432). -/
def countDiscard (e : Evt) : Evt :=
  let new := errAfter (cntAt e cntDropped) 1
  let e' := { setCnt cntDropped new e with discarded := e.discarded + 1 }
  if cntAt e cntDropped ≠ errMax ∧ new = errMax then e'.pass cntDropped else e'

/-- A discard with EVLOG_DROPPED raised where it is the first after a marker (R432). -/
def raiseDiscard (x : EvtCtx) (e : Evt) : Evt × Bool :=
  if e.discarded = 0 then bump x 50 (countDiscard e) else (countDiscard e, false)

/-- The entry of ERR_SATURATED for EVLOG_DROPPED, where it is logged and its queue has room. -/
def queueSaturated (x : EvtCtx) (e : Evt) : Evt :=
  if (grpAt e 5).logmask.getLsbD 1 && !queueFull 81 e then
    { e with held := e.held ++ [stampEntry x 81 false 0 (datum cntDropped) e] }
  else e

theorem discardEntry_eq (x : EvtCtx) (e : Evt) : discardEntry x e =
    if cntAt e cntDropped ≠ errMax ∧ errAfter (cntAt e cntDropped) 1 = errMax then
      (queueSaturated x (bump x 81 (raiseDiscard x e).1).1,
        (raiseDiscard x e).2 || (bump x 81 (raiseDiscard x e).1).2)
    else raiseDiscard x e := by
  rfl

theorem raiseDiscard_keeps (hP : OfSources P) (hbump : ∀ i e, P e → P (bump x i e).1) (he : P e) :
    P (raiseDiscard x e).1 := by
  have hcount : P (countDiscard e) := by
    unfold countDiscard
    dsimp only
    split <;> exact hP he rfl rfl
  unfold raiseDiscard
  split
  · exact hbump _ _ hcount
  · exact hcount

theorem queueSaturated_keeps (hP : OfSources P) (he : P e) : P (queueSaturated x e) := by
  unfold queueSaturated
  split
  · exact hP he rfl rfl
  · exact he

theorem discardEntry_keeps (hP : OfSources P) (hbump : ∀ i e, P e → P (bump x i e).1) (he : P e) :
    P (discardEntry x e).1 := by
  have hraise : P (raiseDiscard x e).1 := raiseDiscard_keeps hP hbump he
  rw [discardEntry_eq]
  split
  · exact queueSaturated_keeps hP (hbump _ _ hraise)
  · exact hraise

theorem logSource_keeps (hP : OfSources P) (hbump : ∀ i e, P e → P (bump x i e).1) (he : P e)
    (officer : Bool) (i code : Nat) (data : Quad) : P (logSource x officer i code data e).1 := by
  unfold logSource enqueue
  split
  · split
    · exact discardEntry_keeps hP hbump he
    · exact hP he rfl rfl
  · exact he

/-- What every raise keeps, the entry PME_SENT keeps. -/
theorem afterPme_keeps (hP : OfSources P) (hbump : ∀ i e, P e → P (bump x i e).1)
    {r : Evt × Bool} (hr : P r.1) : P (afterPme x r) := by
  unfold afterPme
  split
  · exact logSource_keeps hP hbump (hbump _ _ hr) ..
  · exact hr

end

/-! ### Sources in service -/

/-- The sources are in canonical form and those in service are as given. -/
def ServiceIs (service : Nat → Bool) (e : Evt) : Prop :=
  tabWf {} e.src = true ∧ ∀ k, (srcAt e k).s = service k

theorem serviceIs_ofSources (service : Nat → Bool) : OfSources (ServiceIs service) :=
  fun ⟨hwf, hs⟩ hsrc _ => ⟨hsrc ▸ hwf, fun k => by simpa [srcAt, hsrc] using hs k⟩

section
variable {service : Nat → Bool} {e : Evt}

theorem serviceIs_setGrp (n : Nat) (f : Grp → Grp) (e : Evt) (h : ServiceIs service e) :
    ServiceIs service (setGrp n f e) := h

theorem serviceIs_setSrc {f : Src → Src} (hf : ∀ r, (f r).s = r.s) (i : Nat)
    (h : ServiceIs service e) : ServiceIs service (setSrc i f e) := by
  obtain ⟨hwf, hs⟩ := h
  refine ⟨tabWf_setSrc hwf i f, fun k => ?_⟩
  by_cases hk : k = i
  · rw [hk, srcAt_setSrc_same hwf, hf, hs]
  · rw [srcAt_setSrc_other hwf hk, hs]

theorem serviceIs_claimAll (n : Nat) (e : Evt) (h : ServiceIs service e) :
    ServiceIs service (claimAll n e) :=
  claimAll_keeps (fun _ k _ _ he => serviceIs_setSrc (by intro; rfl) k he) h

theorem serviceIs_touch {f : Evt → Evt} (c : BitVec 4) (n : Nat) (h : ServiceIs service (f e)) :
    ServiceIs service (touch c n f e).1 :=
  touch_keeps (serviceIs_ofSources service) (serviceIs_setGrp n) (serviceIs_claimAll n) c h

/-- A raise leaves S of every source. -/
theorem serviceIs_bump (x : EvtCtx) (i : Nat) (e : Evt) (h : ServiceIs service e) :
    ServiceIs service (bump x i e).1 :=
  serviceIs_touch _ _ (serviceIs_setSrc (by intro; rfl) i h)

theorem serviceIs_afterPme (x : EvtCtx) {r : Evt × Bool} (h : ServiceIs service r.1) :
    ServiceIs service (afterPme x r) :=
  afterPme_keeps (serviceIs_ofSources service) (serviceIs_bump x) h

end

/-! ### A source that goes on requesting -/

/-- Source `i` requests, and its group, which has an entry in the table, goes to the host. -/
structure HostRequest (i : Nat) (e : Evt) : Prop where
  wf : tabWf {} e.src = true
  requests : (srcAt e i).requests = true
  stored : grpAt e (i / 16) ≠ {}
  host : (grpAt e (i / 16)).route.toNat < 2

theorem hostRequest_ofSources (i : Nat) : OfSources (HostRequest i) :=
  fun ⟨hwf, hr, hg, hh⟩ hsrc hgrp =>
    ⟨hsrc ▸ hwf, by simpa [srcAt, hsrc] using hr, by simpa [grpAt, hgrp] using hg,
      by simpa [grpAt, hgrp] using hh⟩

section
variable {i : Nat} {e : Evt}

theorem hostRequest_setGrp {m : Nat} (hm : i / 16 ≠ m) (f : Grp → Grp) (e : Evt)
    (h : HostRequest i e) : HostRequest i (setGrp m f e) := by
  have hg : grpAt (setGrp m f e) (i / 16) = grpAt e (i / 16) := grpAt_setGrp_other hm h.stored f
  exact ⟨h.wf, h.requests, hg ▸ h.stored, hg ▸ h.host⟩

theorem hostRequest_setSrc_other {k : Nat} (hk : i ≠ k) (f : Src → Src) (h : HostRequest i e) :
    HostRequest i (setSrc k f e) :=
  ⟨tabWf_setSrc h.wf k f, srcAt_setSrc_other h.wf hk f ▸ h.requests, h.stored, h.host⟩

theorem hostRequest_raised (k : Nat) (h : HostRequest i e) :
    HostRequest i (setSrc k Src.raised e) := by
  by_cases hk : i = k
  case neg => exact hostRequest_setSrc_other hk _ h
  case pos =>
    subst hk
    refine ⟨tabWf_setSrc h.wf i _, ?_, h.stored, h.host⟩
    have hr := h.requests
    simp only [Src.requests, Bool.and_eq_true] at hr
    simp [srcAt_setSrc_same h.wf, Src.requests, Src.raised, hr]

theorem hostRequest_claimAll {m : Nat} (hm : i / 16 ≠ m) (e : Evt) (h : HostRequest i e) :
    HostRequest i (claimAll m e) :=
  claimAll_keeps (fun _ _ _ hk he => hostRequest_setSrc_other (by rintro rfl; exact hm hk) _ he) h

/-- A group with an earlier request, which no core has served, is not delivered again (R415). -/
theorem touch_of_requested {c : BitVec 4} {n : Nat} {f : Evt → Evt}
    (h : groupRequests e n = true) (hc : coreServed c n e = false) :
    touch c n f e = (relax n (f e), false) := by
  simp [touch, h, hc]

/-- No raise ends the request of a source whose group goes to the host. -/
theorem hostRequest_bump (x : EvtCtx) (k : Nat) (e : Evt) (h : HostRequest i e) :
    HostRequest i (bump x k e).1 := by
  have hf : HostRequest i (setSrc k Src.raised e) := hostRequest_raised k h
  by_cases hk : i / 16 = k / 16
  · rw [bump, ← hk, touch_of_requested (groupRequests_of_requests h.requests)
      (coreServed_of_route_lt h.host), relax_of_requests (groupRequests_of_requests hf.requests)]
    exact hf
  · exact touch_keeps (hostRequest_ofSources i) (hostRequest_setGrp hk) (hostRequest_claimAll hk) _ hf

end

/-! ### A delivery to the host -/

section
variable {c : BitVec 4} {n : Nat} {e : Evt}

/-- A delivery to the host leaves every source. -/
theorem deliver_src_of_host (h : (grpAt e n).route.toNat < 2) : (deliver c n e).1.src = e.src := by
  unfold deliver
  dsimp only
  split
  · repeat' split
    all_goals simp
  · rfl
  · omega

/-- A delivery that sends a PME has loaded the timer (R415, R419). -/
theorem deliver_grp_of_pme (h : (deliver c n e).2 = true) :
    (deliver c n e).1.grp = (loadTimer n e).grp := by
  revert h
  unfold deliver
  dsimp only
  repeat' split
  all_goals simp

/-- Every delivery leaves the group an entry in the table, marked as freshly delivered. -/
theorem grpAt_loadTimer (n : Nat) (e : Evt) :
    grpAt (loadTimer n e) n = { grpAt e n with
      timer := if (grpAt e n).holdoff = 0 then none else some ((grpAt e n).holdoff, e.period)
      fresh := true } :=
  grpAt_setGrp_same fun heq => absurd (congrArg Grp.fresh heq) (by simp)

theorem hostRequest_deliver_of_pme {i : Nat} (hwf : tabWf {} e.src = true)
    (hr : (srcAt e i).requests = true) (hroute : (grpAt e (i / 16)).route.toNat < 2)
    (hpme : (deliver c (i / 16) e).2 = true) : HostRequest i (deliver c (i / 16) e).1 := by
  have hsrc : (deliver c (i / 16) e).1.src = e.src := deliver_src_of_host hroute
  have hg : grpAt (deliver c (i / 16) e).1 (i / 16) = grpAt (loadTimer (i / 16) e) (i / 16) := by
    simp only [grpAt, deliver_grp_of_pme hpme]
  rw [grpAt_loadTimer] at hg
  exact
    { wf := hsrc ▸ hwf
      requests := by simpa [srcAt, hsrc] using hr
      stored := fun heq => absurd (congrArg Grp.fresh (hg.symm.trans heq)) (by simp)
      host := hg ▸ hroute }

end

end Sys2Proof.Machine
end

section
/-!
PROOF. A write of ICU_COMPLETE (O9).
-/

namespace Sys2Proof.Machine

/-- The low ten bits of ICU_COMPLETE name the source (R421). -/
theorem fld_source (w : Word) : fld w 9 0 = w.toNat % 1024 := rfl

/-- A change of the group's sources after which source `i` requests, its group going to the host. -/
theorem requests_after_touch {x : EvtCtx} {f : Evt → Evt} {i : Nat} {e : Evt}
    (hwf : tabWf {} (f e).src = true) (hr : (srcAt (f e) i).requests = true)
    (hroute : (grpAt (f e) (i / 16)).route.toNat < 2) :
    (srcAt (afterPme x (touch x.cores (i / 16) f e)) i).requests = true := by
  unfold touch
  dsimp only
  rw [relax_of_requests (groupRequests_of_requests hr)]
  split
  case isFalse => exact hr
  case isTrue =>
    by_cases hpme : (deliver x.cores (i / 16) (f e)).2 = true
    case neg =>
      simpa [afterPme, hpme, srcAt, deliver_src_of_host hroute] using hr
    case pos =>
      have hasks := hostRequest_deliver_of_pme hwf hr hroute hpme
      exact (afterPme_keeps (hostRequest_ofSources i) (hostRequest_bump x) hasks).requests

/-- A group that requested before, which no core has served, or whose timer runs is not delivered
when its sources change (R415). -/
theorem touch_sent {x : EvtCtx} {n : Nat} {f : Evt → Evt} {e : Evt} (hsent : (f e).sent = e.sent)
    (hgrp : (f e).grp = e.grp)
    (h : groupRequests e n = true ∧ coreServed x.cores n e = false ∨
      (grpAt e n).timer.isSome = true) :
    (afterPme x (touch x.cores n f e)).sent = e.sent := by
  have hquiet : touch x.cores n f e = (relax n (f e), false) := by
    obtain ⟨hreq, hserved⟩ | htimer := h
    · exact touch_of_requested hreq hserved
    · have ht : (grpAt (relax n (f e)) n).timer.isSome = true :=
        relax_timer_isSome (by simpa [grpAt, hgrp] using htimer)
      simp [touch, Option.isNone_iff_eq_none, Option.isSome_iff_ne_none.1 ht]
  simp [hquiet, afterPme, hsent]

/-- The end of service of source `i`. -/
def endService (i : Nat) : Evt → Evt := setSrc i fun r => { r with s := false }

theorem execIcuCompleteWrite_of_inService {n : Nat} {w : Word} {s : State} (hn : n < 25)
    (hp : portsOpen s = true) (hg : w.toNat % 1024 / 16 = n)
    (hs : (srcAt s.evt (w.toNat % 1024)).s = true) :
    exec (.icuCompleteWrite n w) s = .next (touchGroup n (endService (w.toNat % 1024)) s) := by
  simp [exec, execIcuCompleteWrite, completeWrite, icuGroupOpen, groupExists, fld_source, endService,
    hn, hp, hg, hs]

theorem execIcuCompleteWrite_of_ignored {n : Nat} {w : Word} {s : State}
    (h : w.toNat % 1024 / 16 ≠ n ∨ (srcAt s.evt (w.toNat % 1024)).s = false) :
    exec (.icuCompleteWrite n w) s = .next s := by
  obtain h | h := h <;>
    simp [exec, execIcuCompleteWrite, completeWrite, fld_source, h]

/-- After the end of its service, S of source `i` is 0 and that of every other source as before. -/
theorem serviceIs_endService {i : Nat} {e : Evt} (hwf : tabWf {} e.src = true) :
    ServiceIs (fun k => decide (k ≠ i) && (srcAt e k).s) (endService i e) := by
  refine ⟨tabWf_setSrc hwf i _, fun k => ?_⟩
  by_cases hk : k = i
  · simp [endService, hk, srcAt_setSrc_same hwf]
  · simp [endService, hk, srcAt_setSrc_other hwf hk]

/-- Settles O9: the complete ends the service of its source alone, whatever the delivery that follows
raises, and neither that delivery nor the entry of its PME ends a host's request. -/
theorem icuCompleteClearsService : Obligations.IcuCompleteClearsService := by
  unfold Obligations.IcuCompleteClearsService
  refine fun n w s hn hports hwf => ⟨fun hg hs => ?_, execIcuCompleteWrite_of_ignored⟩
  refine ⟨_, execIcuCompleteWrite_of_inService hn hports hg hs, ?_⟩
  subst hg
  obtain ⟨-, hservice⟩ := serviceIs_afterPme s.ctx (serviceIs_touch s.ctx.cores
    (w.toNat % 1024 / 16) (serviceIs_endService (i := w.toNat % 1024) hwf))
  refine ⟨(hservice _).trans (by simp), fun k hk => (hservice k).trans (by simp [hk]),
    fun hpend hen hroute => requests_after_touch (tabWf_setSrc hwf _ _) ?_ hroute,
    touch_sent rfl rfl, rfl⟩
  simp [endService, srcAt_setSrc_same hwf, Src.requests, hpend, hen]

end Sys2Proof.Machine
end
